-- ==== Sys2Proof/Word.lean ====
section
/-! DEFINITION. The word types of the register space and the type of a sparse table. -/

namespace Sys2Proof

/-- A register value: every access is a 32-bit DW (R19, R382). -/
abbrev Word := BitVec 32

/-- A byte of a frame, an SPI frame or the NV store. -/
abbrev Byte := BitVec 8

/-- A sparse table from indexes to values: keys strictly rising, no entry that equals its key's default.
`Sys2Proof.Machine.tget` and `tput` read and write it, `twf` says the form holds. -/
abbrev Table (α : Type) := List (Nat × α)

end Sys2Proof
end

