-- ==== Sys2Proof/Syntax.lean ====
section
/-! DEFINITION. The commands of the block: one constructor per row of spec/opcode_table.json, with what the outside
world brings with it. A register command is one write of its code to CMD (a guarded one, with its complement) by a
master, whose CMD_ARG the page already holds. -/

namespace Sys2Proof

/-- The four masters of a register access (R383). -/
inductive Master where
  /-- 0: PCIe -/
  | control
  /-- 1: SPI -/
  | guardian
  /-- 2: the test port -/
  | testPort
  /-- 3: the device itself -/
  | device
  deriving DecidableEq, Repr

/-- What a scrub found. -/
inductive ScrubResult where
  | clean | corrected | uncorrectable
  deriving DecidableEq, Repr

/-- One event of a channel test (R66): the entry of the interpolator under test and the entry of SC[47], their coarse
counts extended. -/
structure TestPair where
  ch : Fin 48
  coarse : Nat
  raw : Nat
  /-- the entry of SC[47] -/
  coarse47 : Nat
  raw47 : Nat
  deriving DecidableEq, Repr

/-- What the analogue side and the memories bring to one round boundary; empty lists mean that nothing happened. -/
structure RoundEnv where
  /-- in the round that begins the board does not reach its barrier (R26) -/
  late : Bool := false
  /-- tempos of the round that begins (R283); 0: as at the nominal clock -/
  tempos : Nat := 0
  /-- synthesisers whose staged word failed its parity check (R199) -/
  parity : List (Fin 8) := []
  /-- per channel, sums of the 64 one-period and the 64 two-period codes of the idle interpolator (R56) -/
  cal : List (Fin 48 × Nat × Nat) := []
  /-- code-density events of the idle interpolator: (channel, raw code, count) (R60) -/
  codes : List (Fin 48 × Nat × Nat) := []
  /-- the test events of this round (R66) -/
  tests : List TestPair := []
  /-- queue entries with an error: (channel, place in the queue, uncorrectable) (R51) -/
  ecc : List (Fin 48 × Nat × Bool) := []
  /-- largest difference of an output VERIFY in this round, ps with 8 fractional bits (R220) -/
  verify : List (Fin 40 × Nat) := []
  /-- what the board's correction of a channel's skew for the on-die temperature comes to, fine units; a channel not
  listed keeps its correction (R62) -/
  warm : List (Fin 48 × Int) := []
  deriving DecidableEq, Repr

/-- What the budget controller latches (R374). -/
structure BudgetEnv where
  /-- the two diodes of each sensor, 0.01 degC (R373) -/
  diodes : List (Int × Int)
  /-- present reading of each rail, mV (R369) -/
  rails : List Nat
  /-- p_est of the round, mW (R375) -/
  pEst : Nat
  deriving DecidableEq, Repr

/-- An Ethernet frame as it reaches a port, FCS removed (R339). -/
structure RxFrame where
  fcsOk : Bool
  bytes : List Byte
  deriving DecidableEq, Repr

/-- An NTP request (R348). -/
structure NtpReq where
  ipv6 : Bool
  /-- source address, 4 or 16 bytes -/
  src : List Byte
  /-- bytes of the UDP payload -/
  len : Nat
  version : Nat
  mode : Nat
  poll : Nat
  /-- transmit timestamp of the request -/
  transmit : Nat
  /-- its extension fields are well formed -/
  extOk : Bool
  /-- the engine could have the response ready and the port could start it at the launch instant (R349) -/
  onTime : Bool
  /-- time since the last round boundary at the balls, 2^-16 ns -/
  at_ : Nat
  deriving DecidableEq, Repr

/-- The NTS fields of a request (R350). -/
structure NtsFields where
  /-- Unique Identifier -/
  uid : List Byte
  cookie : List Byte
  placeholders : Nat
  /-- the bytes the authenticator covers, its nonce and its ciphertext -/
  covered : List Byte
  nonce : List Byte
  sealed : List Byte
  deriving DecidableEq, Repr

/-- A PTP event message (R343, R346): Sync or Delay_Req. -/
structure PtpEvent where
  seq : Nat
  /-- originTimestamp, 2^-16 ns; absent in a two-step Sync -/
  origin : Option Int
  /-- correctionField, 2^-16 ns -/
  correction : Int
  /-- time since the last round boundary at the balls, 2^-16 ns -/
  at_ : Nat
  deriving DecidableEq, Repr

/-- The fields of an Announce that the device uses (R344, R347). -/
structure Announce where
  /-- entry of the master table it came from -/
  entry : Nat
  priority1 : Nat
  priority2 : Nat
  clockClass : Nat
  accuracy : Nat
  variance : Nat
  /-- grandmasterIdentity -/
  identity : Nat
  stepsRemoved : Nat
  utcOfs : Nat
  utcValid : Bool
  leap61 : Bool
  leap59 : Bool
  timeTraceable : Bool
  freqTraceable : Bool
  ptpTimescale : Bool
  deriving DecidableEq, Repr

/-- A unicast negotiation message (R345): request or cancel of one message type. -/
structure Signal where
  ipv6 : Bool
  /-- client address, 16 bytes, IPv4 in the last four -/
  addr : List Byte
  cancel : Bool
  /-- 0 Sync, 1 Announce, 2 Delay_Resp -/
  kind : Fin 3
  /-- logInterMessagePeriod -/
  log : Int
  /-- durationField, s -/
  duration : Nat
  deriving DecidableEq, Repr

/-- A PCIe memory request (R382): a window offset, and either written DWs with byte enables or a number of DWs. -/
structure PcieReq where
  offset : Nat
  /-- written DWs and their four byte enables; `none`: a read -/
  writes : Option (List (Word × Fin 16))
  /-- DWs read -/
  count : Nat
  deriving DecidableEq, Repr

/-- A PCIe configuration request: a read of a DW, or a write of MSI Enable (R382, R417). -/
inductive CfgReq where
  | read (dw : Nat)
  | msiEnable (on : Bool)
  deriving DecidableEq, Repr

/-- The instructions of the test access port (R471). -/
inductive TapIr where
  | bypass | idcode | sample | dbgAccess | extest | scan
  deriving DecidableEq, Repr

/-- A test-port access (R471). -/
inductive TapReq where
  | instruction (ir : TapIr)
  | read (addr : Nat)
  | write (addr : Nat) (value : Word)
  deriving DecidableEq, Repr

/-- The commands. -/
inductive Instr where
  /-- ROUND_BOUNDARY (R23): The round timer reaches 156,250 stamp-clock periods and the device carries out the ordered actions of a round boundary, then the board begins the new round. -/
  | roundBoundary (env : RoundEnv)
  /-- HARVEST_BOUNDARY (R95): A 1 s harvest boundary comes, latching counters into the banks and closing longer periods. -/
  | harvestBoundary
  /-- SCLK_LOCK (R41): The stamp-clock synthesiser first locks, starting the coarse count, round timer and SC[47]. -/
  | sclkLock (coarse : Nat)
  /-- OSC_SCLK_UNLOCK (R71): The stamp-clock synthesiser loses lock and every domain takes the F reaction. -/
  | oscSclkUnlock
  /-- STAMP_EVENT (R43): A selected edge on a channel passes the pre-divider and is stamped into its brine queue. -/
  | stampEvent (ch : Fin 48) (coarse : Nat) (raw : Nat) (falling : Bool)
  /-- STAMP_ENABLE (R64): ENABLE moves a channel from OFF to STARTING. -/
  | stampEnable (ch : Fin 48) (m : Master)
  /-- STAMP_DISABLE (R64): DISABLE stops a channel at the next boundary. -/
  | stampDisable (ch : Fin 48) (m : Master)
  /-- PREDIV_SYNC (R45): PREDIV_SYNC restarts the pre-divider at the next boundary. -/
  | predivSync (ch : Fin 48) (m : Master)
  /-- STAMP_TEST (R66): TEST starts an online test of a channel in RUN or a full-path test in OFF. -/
  | stampTest (ch : Fin 48) (m : Master)
  /-- STAMP_RETRY (R64): RETRY returns a DEGRADED or FENCED channel to STARTING. -/
  | stampRetry (ch : Fin 48) (m : Master)
  /-- LIN_RESTART (R60): LIN_RESTART discards the histogram in progress and starts a new one. -/
  | linRestart (ch : Fin 48) (m : Master)
  /-- STARTING_END (R508): 4,096 rounds of STARTING complete and the channel goes to RUN, DEGRADED or FENCED. -/
  | startingEnd (ch : Fin 48)
  /-- STAMP_TEST_END (R66): A channel test reaches its count and passes, fails or is aborted. -/
  | stampTestEnd (ch : Fin 48)
  /-- LIN_TABLE_COMPLETE (R60): A code-density histogram completes after 8,192 rounds and the new linearity table is adopted or refused. -/
  | linTableComplete (ch : Fin 48) (interpB : Bool)
  /-- TB_FOLLOWING (R40): The measured offset stays below 0.1 ppb for 80,000 rounds and the timebase loop enters FOLLOWING. -/
  | tbFollowing
  /-- OSC_TB_SRC_LOSS (R40): The timebase oscillator channel writes no stamp for the limit and the timebase term freezes. -/
  | oscTbSrcLoss
  /-- TB_RESUME (R40): A FROZEN timebase receives stamps for 80,000 rounds and returns to SLEWING. -/
  | tbResume
  /-- TB_CRYSTAL (R40): The timebase term reaches zero after TB_SRC becomes 0 and the state becomes CRYSTAL. -/
  | tbCrystal
  /-- TIM_START (R92): START checks a context's configuration and moves it to WAITING. -/
  | timStart (p : Fin 2) (m : Master)
  /-- TIM_STOP (R92): STOP returns a context to IDLE, posting a running gate with SHORT. -/
  | timStop (p : Fin 2) (m : Master)
  /-- CLEAR_STAB (R92): CLEAR_STAB clears a context's estimators and ring and keeps the anchor. -/
  | clearStab (p : Fin 2) (m : Master)
  /-- GATE_END (R76): A context's gate ends and its result is posted. -/
  | gateEnd (i : Fin 96)
  /-- TIE_SAMPLE (R85): A sample instant of a TIE_SERIES or STABILITY context comes and a sample enters the ring and estimators. -/
  | tieSample (i : Fin 96)
  /-- RESYNC (R94): RESYNC restarts the free-running harvest periods at the next boundary. -/
  | resync (m : Master)
  /-- ARCH_CLEAR (R103): ARCH_CLEAR sends the next archive record to slot 0. -/
  | archClear (m : Master)
  /-- QUAL_ENABLE (R126): ENABLE moves a candidate from DISABLED to MONITOR. -/
  | qualEnable (i : Fin 40) (m : Master)
  /-- QUAL_DISABLE (R126): DISABLE stops a candidate's monitors. -/
  | qualDisable (i : Fin 40) (m : Master)
  /-- FORCE_OUT (R111): FORCE_OUT puts a candidate in FORCED_OUT. -/
  | forceOut (i : Fin 40) (m : Master)
  /-- RESTORE (R111): RESTORE returns a FORCED_OUT candidate to SOAKING or DISQUALIFIED. -/
  | restore (i : Fin 40) (m : Master)
  /-- SKIP_SOAK (R111): SKIP_SOAK qualifies a soaking candidate whose monitors all pass. -/
  | skipSoak (i : Fin 40) (m : Master)
  /-- CLEAR_MASK (R126): CLEAR_MASK restarts a candidate's mask estimators. -/
  | clearMask (i : Fin 40) (m : Master)
  /-- SOAK_EXPIRY (R111): A candidate's soak timer reaches 0 and it becomes QUALIFIED. -/
  | soakExpiry (i : Fin 40)
  /-- GUARD_EXPIRY (R111): A SUSPECT candidate's guard timer reaches 0 with the failure present and it is disqualified. -/
  | guardExpiry (i : Fin 40)
  /-- FW_GATE_END (R119): A candidate's frequency-window gate ends and its fitted offset is posted and judged. -/
  | fwGateEnd (i : Fin 40)
  /-- MASK_SAMPLE (R121): A mask sample instant comes and the TDEV and MTIE mask points update. -/
  | maskSample (i : Fin 40)
  /-- ESMC_TIMEOUT (R123): Five seconds pass without a valid ESMC PDU and the candidate's rank becomes 15. -/
  | esmcTimeout (p : Fin 4)
  /-- RECEIVER_RELOCK (R108): A port receiver relocks or its link returns and the SyncE candidate becomes DISQUALIFIED. -/
  | receiverRelock (p : Fin 4)
  /-- LINK_CHANGE (R337): A packet port gains or loses block lock. -/
  | linkChange (p : Fin 4) (up : Bool)
  /-- FORCE_SELECT (R140): FORCE_SELECT makes the domain follow a named slot whatever its qualification. -/
  | forceSelect (d : Fin 12) (m : Master)
  /-- MANUAL_SELECT (R139): MANUAL_SELECT prefers a named slot while it is selectable. -/
  | manualSelect (d : Fin 12) (m : Master)
  /-- CLEAR_SELECT (R159): CLEAR_SELECT clears manual and forced requests and releases PX1608 selection freezing. -/
  | clearSelect (d : Fin 12) (m : Master)
  /-- PARK (R152): PARK parks an ensemble slot on command. -/
  | park (d : Fin 12) (m : Master)
  /-- UNPARK (R152): UNPARK ends a slot's parking and admits it. -/
  | unpark (d : Fin 12) (m : Master)
  /-- REALIGN_BO (R143): REALIGN_BO starts moving the build-out towards the slot offset. -/
  | realignBo (d : Fin 12) (m : Master)
  /-- WTR_EXPIRY (R138): The wait-to-restore count completes and the domain reverts to the better slot. -/
  | wtrExpiry (d : Fin 12)
  /-- PARK_TIME_EXPIRY (R152): A parked slot stays within the deviation limit for PARK_TIME and is admitted. -/
  | parkTimeExpiry (d : Fin 12) (slot : Fin 8)
  /-- WT_SAMPLE (R150): A weighting sample instant comes and the slot σ estimators and targets update. -/
  | wtSample (d : Fin 12)
  /-- DOM_ENABLE (R174): ENABLE moves a domain from INIT to FREE_RUN. -/
  | domEnable (d : Fin 12) (m : Master)
  /-- DOM_DISABLE (R174): DISABLE returns a domain to INIT. -/
  | domDisable (d : Fin 12) (m : Master)
  /-- FORCE_HOLDOVER (R174): FORCE_HOLDOVER puts an acquiring or locked domain into HOLDOVER. -/
  | forceHoldover (d : Fin 12) (m : Master)
  /-- RELEASE_HOLDOVER (R186): RELEASE_HOLDOVER ends a forced holdover. -/
  | releaseHoldover (d : Fin 12) (m : Master)
  /-- SLUICE_RESTART (R185): SLUICE_RESTART restarts the sluice profile at segment 0. -/
  | sluiceRestart (d : Fin 12) (m : Master)
  /-- MODEL_RESET (R178): MODEL_RESET discards the learned model. -/
  | modelReset (d : Fin 12) (m : Master)
  /-- MODEL_SAVE (R181): MODEL_SAVE writes a model record to the NV store. -/
  | modelSave (d : Fin 12) (m : Master)
  /-- LOCK_CRITERION (R175): The phase error stays within LOCK_PH for LOCK_TIME and the domain becomes LOCKED. -/
  | lockCriterion (d : Fin 12)
  /-- UNLOCK_CRITERION (R175): The phase error exceeds 4 × LOCK_PH for 64 rounds and the domain returns to ACQUIRE. -/
  | unlockCriterion (d : Fin 12)
  /-- HOLDOVER_LIMIT (R179): HO_MAX or the temperature span is reached and the domain enters HOLDOVER_LIMITED. -/
  | holdoverLimit (d : Fin 12)
  /-- SLUICE_SEGMENT_END (R184): A sluice segment's length runs out and the next segment begins. -/
  | sluiceSegmentEnd (d : Fin 12)
  /-- MODEL_SAMPLE (R178): A model sample interval ends and the sample enters the holdover model fit. -/
  | modelSample (d : Fin 12)
  /-- DOM_FB_LOSS (R166): The feedback phase is extrapolated for two rounds and the fault is raised. -/
  | domFbLoss (d : Fin 12)
  /-- DOM_FB_RANGE (R195): The feedback frequency departs from y_out for 8 rounds and the fault is raised. -/
  | domFbRange (d : Fin 12)
  /-- SYN_CAL_DONE (R206): A VCO band holding the nominal frequency is found and the synthesiser enters SETTLING. -/
  | synCalDone (k : Fin 8) (band : Fin 32)
  /-- SYN_VCO_RANGE (R206): No band is found within 2 ms and the synthesiser becomes FAILED. -/
  | synVcoRange (k : Fin 8)
  /-- SYN_LOCK (R206): The lock detector declares lock and the synthesiser becomes LOCKED. -/
  | synLock (k : Fin 8)
  /-- SYN_UNLOCK (R206): A LOCKED synthesiser loses lock and its outputs are squelched. -/
  | synUnlock (k : Fin 8)
  /-- SYN_RELOCK_TIMEOUT (R206): An UNLOCKED synthesiser does not relock in 10 ms and returns to CAL. -/
  | synRelockTimeout (k : Fin 8)
  /-- SYN_FOLLOW_RANGE (R228): FOLLOW_ERR stays above 1 ns for 8 rounds and the member's outputs are squelched. -/
  | synFollowRange (k : Fin 8)
  /-- DIV_SYNC (R216): DIV_SYNC arms a restart of the chosen groups of a synthesiser's outputs on one epoch. -/
  | divSync (k : Fin 8) (m : Master)
  /-- DIV_SYNC_EPOCH (R216): The chosen epoch passes and the grouped outputs restart together. -/
  | divSyncEpoch (k : Fin 8)
  /-- SYN_RETRY (R224): RETRY sends a FAILED or FENCED synthesiser to CAL. -/
  | synRetry (k : Fin 8) (m : Master)
  /-- OUTPUT_START (R215): An output waiting to start or restart begins at the first qualifying epoch of its source. -/
  | outputStart (j : Fin 40)
  /-- MOVE_SWITCH (R217): At the epoch after the move divider starts, the driver switches to it in a common low phase. -/
  | moveSwitch (j : Fin 40)
  /-- OUT_VERIFY (R220): VERIFY starts checking an output through its feedback channel. -/
  | outVerify (j : Fin 40) (m : Master)
  /-- VERIFY_END (R220): An output VERIFY reaches its count and passes, fails or is aborted. -/
  | verifyEnd (j : Fin 40)
  /-- OUT_RESTART (R227): RESTART restarts a running output. -/
  | outRestart (j : Fin 40) (m : Master)
  /-- OUT_RETRY (R227): RETRY returns a FENCED output to WAIT. -/
  | outRetry (j : Fin 40) (m : Master)
  /-- OUT_DRIVER (R228): The swing monitor finds a driver out of limits and the output is held. -/
  | outDriver (j : Fin 40)
  /-- OUT_BANK_SUPPLY (R369): A bank supply stays below 90 % of its declared value for 1 ms and the bank is held. -/
  | outBankSupply (b : Fin 5)
  /-- OUT_DIV_MISMATCH (R228): The duplicated output dividers disagree and the output is restarted. -/
  | outDivMismatch (j : Fin 40)
  /-- STEP_TIME (R238): STEP_TIME steps a time domain's scale at the next boundary. -/
  | stepTime (m : Master)
  /-- TIME_REARM (R241): TIME_REARM, proposed and countersigned, re-anchors a time domain and clears STEPPED and VALID. -/
  | timeRearm (m : Master)
  /-- AUTO_STEP (R238): A LOCKED domain with SRC_OK and AUTO_STEP steps itself. -/
  | autoStep (t : Fin 4)
  /-- UART_MESSAGE (R235): A UART time message arrives whole and labels a pulse or is discarded. -/
  | uartMessage (u : Fin 4) (bytes : List Byte) (afterUs : Nat) (beforeUs : Nat)
  /-- PPS_PULSE (R243): T reaches a whole second and the PPS generator emits a pulse. -/
  | ppsPulse (t : Fin 4)
  /-- LEAP (R242): The armed leap instant comes and UTC_OFS changes by one second. -/
  | leap (t : Fin 4)
  /-- TRG_FIRED (R245): A trigger's instant comes and it fires its action at the boundary. -/
  | trgFired (g : Fin 8)
  /-- TIMED_SWAP_DUE (R398): The instant of a timed SWAP_SETS comes and the swap falls at the next boundary. -/
  | timedSwapDue
  /-- TICK (R257): A 125 µs tick of a time domain comes and the link sends its frame. -/
  | tick (v : Fin 8)
  /-- LOAD_HOST (R293): LOAD_HOST opens the book store for host words. -/
  | loadHost (m : Master)
  /-- LOAD_FLASH (R293): LOAD_FLASH starts reading a book from flash. -/
  | loadFlash (m : Master)
  /-- BOOK_DATA (R293): A write to BOOK_DATA appends one word of the book in LOADING. -/
  | bookData (m : Master) (value : Word)
  /-- FLASH_LOAD_DONE (R293): A book read from flash completes or fails. -/
  | flashLoadDone (words : List Word) (ok : Bool)
  /-- SCHED_VERIFY (R287): VERIFY starts checking the stored book. -/
  | schedVerify (m : Master)
  /-- VERIFY_DONE (R287): Book verification completes and the store becomes VERIFIED or REFUSED. -/
  | verifyDone
  /-- ACTIVATE_WARM (R295): ACTIVATE with warm selected starts a warm activation that keeps KEEP ranges. -/
  | activateWarm (m : Master)
  /-- ACTIVATE_COLD (R295): ACTIVATE with cold selected starts a cold activation. -/
  | activateCold (m : Master)
  /-- ACTIVATION_COMPLETE (R295): The 16 rounds of activation end and the new book runs its first round. -/
  | activationComplete
  /-- SCHED_CLEAR (R293): CLEAR empties the book store. -/
  | schedClear (m : Master)
  /-- RESUME (R307): RESUME ends V3 forced under PX1608 fencing. -/
  | resume (m : Master)
  /-- SPARE_IN (R299): SPARE_IN replaces a scheduled cell by a spare over one copy round. -/
  | spareIn (m : Master)
  /-- CELL_TEST (R298): CELL_TEST starts a 64-round logic and memory test of a cell. -/
  | cellTest (m : Master)
  /-- CELL_TEST_DONE (R298): A cell test ends and the cell becomes SPARE or stays FENCED. -/
  | cellTestDone (c : Fin 32) (pass : Bool)
  /-- STORE_SCRUB (R307): The book store is scrubbed every 8,192 rounds. -/
  | storeScrub (err : ScrubResult)
  /-- BIND (R308): BIND, proposed and countersigned, binds the device to its named partner. -/
  | bind (m : Master)
  /-- UNBIND (R308): UNBIND, proposed and countersigned, removes the binding. -/
  | unbind (m : Master)
  /-- CASTLE (R325): CASTLE starts an exchange of the ACTIVE and STANDBY roles. -/
  | castle (m : Master)
  /-- RECORD_ARRIVAL (R318): A Relnan mirror record arrives whole on the castling link and is checked. -/
  | recordArrival (bytes : List Byte)
  /-- ORDERED_SET (R312): The partner's boundary ordered set arrives and is stamped. -/
  | orderedSet (count : Nat) (coarse : Nat)
  /-- BLOCK_LOCK (R327): Both castling lanes reach block lock and the partner-clock markers are found. -/
  | blockLock
  /-- SYNC_STEP (R327): A step of SYNCING completes and the next begins. -/
  | syncStep
  /-- PARTNER_LOST (R323): LOSS_ROUNDS pass without a valid record and the partner is lost. -/
  | partnerLost
  /-- CASTLE_FAIL (R325): A castling request lapses after 64 rounds without TAKEN. -/
  | castleFail
  /-- TAKEN_END (R325): A new ACTIVE stops sending TAKEN after 64 rounds. -/
  | takenEnd
  /-- ALIGNED (R322): Alignment error stays at or below 5 ps for 8,000 rounds and ALIGNED becomes 1. -/
  | aligned
  /-- ALIGN_LOSS (R322): Alignment error exceeds 50 ps for 8 rounds and ALIGNED returns to 0. -/
  | alignLoss
  /-- PAIR_PCLK_LOSS (R335): No marked partner-clock event for 2 rounds while LINK_UP raises the fault. -/
  | pairPclkLoss
  /-- PAIR_ALIGN_RANGE (R335): Alignment error above 1 ns for 64 rounds on an aligned STANDBY raises the fault. -/
  | pairAlignRange
  /-- FRAME_RECEIVED (R339): A frame arrives on a packet port and is discarded or passed to the host. -/
  | frameReceived (p : Fin 4) (frame : RxFrame)
  /-- NTP_REQUEST (R348): A plain NTP mode 3 request is answered, rate-limited, capped or discarded. -/
  | ntpRequest (p : Fin 4) (q : NtpReq)
  /-- NTS_REQUEST (R350): An NTS request is opened, authenticated and answered or refused with a NAK. -/
  | ntsRequest (p : Fin 4) (q : NtpReq) (n : NtsFields)
  /-- SYNC (R346): A client instance receives a Sync message and takes its receive stamp. -/
  | sync (i : Fin 4) (msg : PtpEvent)
  /-- FOLLOW_UP (R346): A client instance receives a Follow_Up carrying a two-step origin timestamp. -/
  | followUp (i : Fin 4) (seq : Nat) (origin : Int) (correction : Int)
  /-- DELAY_REQ (R343): A master receives a Delay_Req and sends a Delay_Resp. -/
  | delayReq (p : Fin 4) (ctx : Option (Fin 2048)) (msg : PtpEvent)
  /-- DELAY_RESP (R346): A client receives a Delay_Resp and completes an exchange. -/
  | delayResp (i : Fin 4) (seq : Nat) (receive : Int) (correction : Int)
  /-- ANNOUNCE (R347): A client receives an Announce and the controller runs BMCA. -/
  | announce (i : Fin 4) (a : Announce)
  /-- SIGNALING (R345): A unicast negotiation request or cancel is granted or denied. -/
  | signaling (p : Fin 4) (q : Signal)
  /-- ARP_REQUEST (R339): An ARP request or Neighbor Solicitation for a port address is answered by the controller. -/
  | arpRequest (p : Fin 4) (ipv6 : Bool) (target : List Byte)
  /-- ESMC_PDU (R342): An ESMC PDU is received and feeds the candidate's quality level. -/
  | esmcPdu (p : Fin 4) (ssm : Nat) (enhanced : Option Nat)
  /-- LAUNCH (R349): A response's launch instant comes and it is sent or dropped. -/
  | launch
  /-- SYNC_TX (R343): A master's Sync interval comes and it sends Sync. -/
  | syncTx (p : Fin 4) (ctx : Option (Fin 2048)) (at_ : Nat)
  /-- ANNOUNCE_TX (R344): A master's Announce interval comes and it sends Announce. -/
  | announceTx (p : Fin 4) (ctx : Option (Fin 2048))
  /-- DELAY_REQ_TX (R346): A client's Delay_Req interval comes and it sends Delay_Req. -/
  | delayReqTx (i : Fin 4) (at_ : Nat)
  /-- CLIENT_SAMPLE (R346): A client's sample interval ends and it forms its filtered offset. -/
  | clientSample (i : Fin 4)
  /-- ANNOUNCE_TIMEOUT (R347): A client receives no Announce for ANN_TO intervals and returns to LISTENING. -/
  | announceTimeout (i : Fin 4)
  /-- GRANT_EXPIRY (R345): A unicast grant expires and its context is freed. -/
  | grantExpiry (ctx : Fin 2048)
  /-- BUCKET_DECAY (R353): Every 2^RL_TAU_LOG2 rounds each rate-limit bucket falls by one. -/
  | bucketDecay
  /-- ESMC_INFO_PDU (R342): A second passes and the port sends an ESMC information PDU. -/
  | esmcInfoPdu (p : Fin 4)
  /-- TX_HELD_RETURN (R341): The transmit synthesiser has been LOCKED for 1 s and the port returns to it. -/
  | txHeldReturn (p : Fin 4)
  /-- GRATUITOUS_ARP (R357): A new ACTIVE announces its service addresses, and repeats 1 s and 2 s later. -/
  | gratuitousArp
  /-- HQ_RX_DATA (R340): A read of HQ_RX_DATA returns the next four bytes of the head host frame. -/
  | hqRxData (m : Master)
  /-- HQ_RX_POP (R340): A write to HQ_RX_POP removes the head host frame. -/
  | hqRxPop (m : Master) (value : Word)
  /-- HQ_TX_CTRL (R340): A write to HQ_TX_CTRL starts a host frame of given length and port. -/
  | hqTxCtrl (m : Master) (value : Word)
  /-- HQ_TX_DATA (R340): A write to HQ_TX_DATA adds four bytes and queues the frame at its last word. -/
  | hqTxData (m : Master) (value : Word)
  /-- KEY_INSTALL (R352): KEY_INSTALL installs a master key into a slot and clears KEY_DATA. -/
  | keyInstall (m : Master)
  /-- KEY_CURRENT (R352): KEY_CURRENT makes a valid slot make new cookies. -/
  | keyCurrent (m : Master)
  /-- KEY_ERASE (R360): KEY_ERASE erases a valid slot that is not current. -/
  | keyErase (m : Master)
  /-- FW_UPDATE (R358): FW_UPDATE loads and verifies a new controller image. -/
  | fwUpdate (m : Master)
  /-- FW_VERIFY_DONE (R475): Firmware verification completes and the image starts or is refused. -/
  | fwVerifyDone (image : List Word) (readOk : Bool)
  /-- RL_CLEAR (R353): RL_CLEAR empties every rate-limit bucket. -/
  | rlClear (m : Master)
  /-- PORT_RESTART (R361): PORT_RESTART restarts a port's PCS and clears SVC_STOP. -/
  | portRestart (m : Master)
  /-- TSVC_CTRL_WDOG (R366): The controller watchdog expires and the controller restarts. -/
  | tsvcCtrlWdog
  /-- CTRL_RESTART_DONE (R358): A controller restart completes and slow protocol work resumes. -/
  | ctrlRestartDone
  /-- BUDGET_LATCH (R374): 100 µs into a round the budget controller latches its inputs and sets the level. -/
  | budgetLatch (env : BudgetEnv)
  /-- BUDGET_HOLD_EXPIRY (R374): A cooling, calm or energy count of the controller completes and a level rises or falls. -/
  | budgetHoldExpiry
  /-- SAG (R370): VDD_CORE crosses a sag threshold and the throttle sets the cell clock. -/
  | sag (mv : Nat)
  /-- SUPPLY_FAULT (R369): A rail falls below its fault threshold for its filter time and its power fault is raised. -/
  | supplyFault (r : Fin 10) (mv : Nat)
  /-- BROWN_OUT (R369): A rail falls below brown-out or power-good is lost and the device enters RESET. -/
  | brownOut
  /-- THERM_TRIP (R380): A sensor stays at or above 140 °C for 1 ms and every domain takes the F reaction. -/
  | thermTrip (sensor : Fin 8)
  /-- DORMANT (R368): DORMANT stops the stamp, synthesiser, board and service islands. -/
  | dormant (m : Master)
  /-- WAKE (R506): WAKE restarts the stopped islands from stamp-clock lock. -/
  | wake (m : Master)
  /-- SPI_WRITE (R386): A WRITE frame is checked at CS_N rising and applied word by word. -/
  | spiWrite (bytes : List Byte)
  /-- SPI_READ (R386): A READ frame returns words after its CRC matches. -/
  | spiRead (bytes : List Byte)
  /-- SPI_STATUS (R386): A STATUS frame returns the STATUS byte. -/
  | spiStatus (bytes : List Byte)
  /-- GWRITE (R386): A GWRITE frame issues a value and its complement to GUARD as one guarded pair. -/
  | gwrite (bytes : List Byte)
  /-- SPI_UNKNOWN_OPCODE (R385): A frame with an undefined opcode is ignored and counted. -/
  | spiUnknownOpcode (bytes : List Byte)
  /-- PCIE_REQUEST (R382): A PCIe memory request is carried out as DW accesses in ascending order. -/
  | pcieRequest (q : PcieReq)
  /-- PCIE_LINK_CHANGE (R417): The PCIe link goes up or down, waking or sleeping the control host target. -/
  | pcieLinkChange (up : Bool)
  /-- PERST_N (R496): PERST_N resets or releases the PCIe endpoint only. -/
  | perstN (low : Bool)
  /-- GUARDED_WRITE (R392): A write to a guarded register or command stages the value for the writing master. -/
  | guardedWrite (m : Master) (page : Fin 256) (off : Fin 4096) (value : Word)
  /-- GUARD (R392): The complement reaches GUARD and the staged value or command takes effect. -/
  | guard_ (m : Master) (page : Fin 256) (value : Word)
  /-- GUARD_FAIL (R392): A staged value is discarded for a wrong complement, an intervening access or 1 µs expiry. -/
  | guardFail (m : Master)
  /-- ALIAS_WRITE (R396): A write to a bit alias applies data bit 0 to one bit under its access code. -/
  | aliasWrite (m : Master) (addr : Nat) (value : Word)
  /-- PAGE_FORCE (R437): A write of 1 to a PAGE_FORCE bit raises its fault source as if detected. -/
  | pageForce (m : Master) (page : Fin 256) (value : Word)
  /-- SNAPSHOT_READ (R403): A read of a snapshot origin copies its group into the master's holding set. -/
  | snapshotRead (m : Master) (page : Fin 256) (off : Fin 4096)
  /-- REGISTER_WRITE (R14): A write to a register with no row of its own acts as its access code states. -/
  | registerWrite (m : Master) (page : Fin 256) (off : Fin 4096) (value : Word)
  /-- CMD_UNKNOWN (R401): A write of an unknown command code is refused with REFUSED_ARG. -/
  | cmdUnknown (m : Master) (page : Fin 256) (code : Word)
  /-- BRIDGE_TIMEOUT (R402): An island does not answer within 4 µs, so the read returns 0 or the write is lost. -/
  | bridgeTimeout (m : Master) (addr : Nat) (wr : Option Word)
  /-- SWAP_SETS (R398): SWAP_SETS schedules the exchange of active and shadow sets at the next boundary. -/
  | swapSets (m : Master)
  /-- SWAP_SETS_TIMED (R398): SWAP_SETS with timed set arms an exchange at a time-of-day instant. -/
  | swapSetsTimed (m : Master)
  /-- SWAP_CANCEL (R407): SWAP_CANCEL cancels a pending timed swap. -/
  | swapCancel (m : Master)
  /-- COPY_SETS (R399): COPY_SETS schedules a copy of every active set into its shadow set. -/
  | copySets (m : Master)
  /-- RESET_FULL (R484): SYS RESET of kind FULL starts a POR. -/
  | resetFull (m : Master)
  /-- RESET_ISLANDS (R484): SYS RESET of kind ISLANDS resets every island but the always-on one. -/
  | resetIslands (m : Master)
  /-- RESET_SERVICE (R484): SYS RESET of kind SERVICE resets the service island and erases master keys. -/
  | resetService (m : Master)
  /-- CLAIM (R412): A read of CLAIM returns and puts in service the highest eligible interrupt. -/
  | claim (m : Master)
  /-- COMPLETE (R413): A write to COMPLETE ends a number's service and re-evaluates sources. -/
  | complete (m : Master) (value : Word)
  /-- SW_SET (R409): A write to SW_SET fires the named software interrupt sources. -/
  | swSet (m : Master) (value : Word)
  /-- TGT_CTRL (R415): A write to TGT_CTRL changes sleep, fallback or MSI mode and may send an MSI. -/
  | tgtCtrl (m : Master) (value : Word)
  /-- FALLBACK (R417): A source eligible on an asleep target for SLEEP_TO moves to the other target. -/
  | fallback (n : Fin 256)
  /-- FAULT_EVENT (R422): A fault source reports an event and the collector records it and starts its reaction. -/
  | faultEvent (page : Fin 256) (bit : Fin 32) (unit : Fin 256) (detail : Word)
  /-- CHECK_WINDOW_END (R431): A check window ends without acknowledgement and the fault escalates. -/
  | checkWindowEnd (slot : Fin 16)
  /-- U_ACK (R430): A write to U_ACK acknowledges a fault in check and frees its slot. -/
  | uAck (m : Master) (value : Word)
  /-- REC_RELEASE (R427): A write to REC_RELEASE frees the selected record. -/
  | recRelease (m : Master) (value : Word)
  /-- F_ACK (R434): F_ACK clears SAFE_CAUSE of a domain. -/
  | fAck (m : Master)
  /-- BIST (R443): BIST holds the outputs and self-tests every island but the always-on one. -/
  | bist (m : Master)
  /-- BIST_END (R443): BIST ends, records its result and resets the tested islands. -/
  | bistEnd (failType : Option Nat)
  /-- SWEEP_RESTART (R448): SWEEP_RESTART restarts the sweep cycle at step 0. -/
  | sweepRestart (m : Master)
  /-- SWEEP_STEP (R439): A sweep slot begins and the sweep tests its unit. -/
  | sweepStep
  /-- SWEEP_RETRY (R441): A refused sweep command is retried once per second until its slot ends. -/
  | sweepRetry
  /-- FAULT_SWEEP_LATE (R440): A sweep cycle is not complete 86,400 s after it began. -/
  | faultSweepLate
  /-- WIN (R451): A write to a window word programs one word of the NV store. -/
  | win (m : Master) (w : Fin 32) (value : Word)
  /-- COUNT_INIT (R463): COUNT_INIT writes both copies of an invalid counter with value 0. -/
  | countInit (m : Master)
  /-- COUNT_INC (R457): COUNT_INC writes value plus one into the other copy of a counter. -/
  | countInc (m : Master)
  /-- COUNT_READ (R457): COUNT_READ posts a counter's value and copy validity. -/
  | countRead (m : Master)
  /-- BP_SET (R461): BP_SET, proposed and countersigned, changes the NV block-protect mask. -/
  | bpSet (m : Master)
  /-- LOG_CLEAR (R463): LOG_CLEAR sends the next log entry to slot 0. -/
  | logClear (m : Master)
  /-- LOG_APPEND (R459): A waiting log entry is written to the event log ring. -/
  | logAppend
  /-- RUN_HOURS (R458): 3,600 s in a running power state pass and RUN_HOURS is incremented. -/
  | runHours
  /-- NV_SCRUB (R462): The scrub reads and corrects each NV word once every 65,536 s. -/
  | nvScrub (w : Nat) (err : ScrubResult)
  /-- NV_HOLDUP_LOW (R466): The 1 ms hold-up check finds the reserve low and writes are held. -/
  | nvHoldupLow (low : Bool)
  /-- LC_SET (R468): LC_SET, proposed and countersigned, changes the lifecycle state. -/
  | lcSet (m : Master)
  /-- DBG_SET (R470): DBG_SET, proposed and countersigned, changes the debug level. -/
  | dbgSet (m : Master)
  /-- KEY_WRITE (R478): KEY_WRITE, proposed and countersigned, enables a signing key slot. -/
  | keyWrite (m : Master)
  /-- KEY_REVOKE (R478): KEY_REVOKE, proposed and countersigned, revokes a signing key slot. -/
  | keyRevoke (m : Master)
  /-- MINVER_SET (R478): MINVER_SET, proposed and countersigned, raises BOOK_MIN and FW_MIN. -/
  | minverSet (m : Master)
  /-- PROPOSAL_CANCEL (R476): PROPOSAL_CANCEL by the proposer drops the pending proposal on its page. -/
  | proposalCancel (m : Master) (page : Fin 256)
  /-- LAPSE (R476): A two-party proposal's 2 s window ends without a countersign and it lapses. -/
  | lapse (page : Fin 256)
  /-- SEC_CRYPTO_KAT (R481): The idle hash and signature engine runs its known-answer test every 1 ms. -/
  | secCryptoKat (ok : Bool)
  /-- PSTORE_SCRUB (R481): The protected store is scrubbed every 65,536 s. -/
  | pstoreScrub (err : ScrubResult)
  /-- TAP_INSTRUCTION (R471): The test port takes an instruction or access, allowed or treated as BYPASS by the debug level. -/
  | tapInstruction (q : TapReq)
  /-- RESET_N (R482): RESET_N is held low long enough to reset the device. -/
  | resetN (low : Bool) (heldNs : Nat)
  /-- RESET_RELEASE (R488): Internal reset is released and start-up runs its steps. -/
  | resetRelease (flashSize : Fin 32)
  /-- IMAGE_ENTRY (R487): The image runner applies its next configuration entry once the previous one has finished. -/
  | imageEntry
  /-- PAIR_WAIT (R491): PAIR_WAIT passes without an applied record and held DEFER entries are applied as SOLO. -/
  | pairWait
  /-- SCLK_RECALIBRATE (R489): While SCLK_LOCK stays 0 the stamp-clock synthesiser recalibrates every 20 ms, and a recalibration may end in lock again. -/
  | sclkRecalibrate (locks : Option Nat)
  /-- CASTLING_LINK_DOWN (R333): A castling lane loses block lock or the partner-clock markers are lost, and PAIR_STATUS.LINK_UP returns to 0. -/
  | castlingLinkDown
  /-- PCIE_CONFIG_REQUEST (R382): A PCIe configuration request reaches the endpoint, is answered with Retry Status until start-up step 2, and a write of MSI Enable changes whether the control host is asleep. -/
  | pcieConfigRequest (q : CfgReq)  deriving DecidableEq, Repr

end Sys2Proof
end

