-- ==== Sys2Proof/Machine/Arith.lean ====
section
/-! DEFINITION. Bit fields, signed fields, exact rounding and the checksums the spec states. -/

namespace Sys2Proof.Machine

/-- Bits [hi:lo] of a register value, as a number. -/
def bits (w : Word) (hi lo : Nat) : Nat := w.toNat / 2 ^ lo % 2 ^ (hi + 1 - lo)

/-- Bit `i` of a register value. -/
def bit (w : Word) (i : Nat) : Bool := w.getLsbD i

/-- Bits [hi:lo] of a natural number. -/
def nbits (n hi lo : Nat) : Nat := n / 2 ^ lo % 2 ^ (hi + 1 - lo)

/-- A flag as a number. -/
def b2n (b : Bool) : Nat := if b then 1 else 0

/-- A register value from a number, wrapped to 32 bits. -/
def word (n : Nat) : Word := BitVec.ofNat 32 n

/-- A register value from a signed number, two's complement, wrapped. -/
def sword (i : Int) : Word := BitVec.ofInt 32 i

/-- The low and high words of a 64-bit value. -/
def lo32 (n : Nat) : Word := word n
def hi32 (n : Nat) : Word := word (n / 2 ^ 32)

/-- A signed value as a 64-bit pattern. -/
def s64 (i : Int) : Nat := (i % 2 ^ 64).toNat

/-- The signed reading of the low `n` bits of a number. -/
def signed (n v : Nat) : Int :=
  if v % 2 ^ n < 2 ^ (n - 1) then (v % 2 ^ n : Nat) else (v % 2 ^ n : Nat) - (2 ^ n : Nat)

/-- A signed register. -/
def sregister (w : Word) : Int := w.toInt

/-- `v` clamped to [lo, hi]. -/
def clamp (v lo hi : Nat) : Nat := if v < lo then lo else if hi < v then hi else v

/-- Signed clamp. -/
def iclamp (v lo hi : Int) : Int := if v < lo then lo else if hi < v then hi else v

/-- Division rounded towards minus infinity (R59). -/
def floorDiv (a b : Int) : Int := a.fdiv b

/-- Division rounded to the nearest, ties away from zero (R81, R83); 0 divisors give 0. -/
def roundDiv (a b : Int) : Int :=
  if b = 0 then 0
  else
    let q : Int := ((2 * a.natAbs + b.natAbs) / (2 * b.natAbs) : Nat)
    if (a < 0) = (b < 0) then q else -q

/-- Shift right by `n` of a signed value, rounded to the nearest, ties away from zero. -/
def roundShr (a : Int) (n : Nat) : Int := roundDiv a (2 ^ n : Nat)

/-- Saturation to a signed field of `n` bits. -/
def saturate (n : Nat) (v : Int) : Int := iclamp v (-(2 ^ (n - 1) : Nat)) ((2 ^ (n - 1) : Nat) - 1)

/-- The integer square root by structural recursion on the bits still to place. -/
def isqrtFrom : Nat → Nat → Nat → Nat
  | 0, _, r => r
  | k + 1, n, r =>
    let c := r + 2 ^ k
    if c * c ≤ n then isqrtFrom k n c else isqrtFrom k n r

/-- The integer square root, rounded down (of a number below 2^256). -/
def isqrt (n : Nat) : Nat := isqrtFrom 128 n 0

/-- The square root of `num / den`, rounded to the nearest. -/
def sqrtRatio (num den : Nat) : Nat :=
  if den = 0 then 0 else (isqrt (4 * num / den) + 1) / 2

/-- The sum of a list of signed numbers. -/
def isum (l : List Int) : Int := l.foldl (· + ·) 0

/-- The largest of a list of numbers, 0 for none. -/
def nmax (l : List Nat) : Nat := l.foldl max 0

/-- One bit step of an unreflected CRC of width `w`. -/
def crcBit (w poly : Nat) (c : Nat) : Nat :=
  let s := c * 2
  if s / 2 ^ w % 2 = 1 then (s % 2 ^ w).xor poly else s % 2 ^ w

/-- Eight bit steps. -/
def crcBits (w poly : Nat) : Nat → Nat → Nat
  | 0, c => c
  | k + 1, c => crcBits w poly k (crcBit w poly c)

/-- An unreflected CRC of width `w` (at least 8) over bytes, first byte first. -/
def crcMsb (w poly init : Nat) (bs : List Nat) : Nat :=
  bs.foldl (fun c b => crcBits w poly 8 (c.xor (b % 256 * 2 ^ (w - 8)))) init

/-- The CRC-8 of SPI frames: polynomial 0x07, initial value 0 (R384). -/
def crc8 (bs : List Nat) : Nat := crcMsb 8 0x07 0 bs

/-- Eight bit steps of the reflected CRC-32 of IEEE 802.3. -/
def crc32Bits : Nat → Nat → Nat
  | 0, c => c
  | k + 1, c => crc32Bits k (if c % 2 = 1 then (c / 2).xor 0xEDB88320 else c / 2)

/-- The CRC-32 of IEEE 802.3 over bytes: polynomial 0x04C11DB7, initial value and final complement of all ones, input
and output reflected (R262). -/
def crc32 (bs : List Nat) : Nat := (bs.foldl (fun c b => crc32Bits 8 (c.xor (b % 256))) 0xFFFFFFFF).xor 0xFFFFFFFF

/-- The bytes of a number, least significant first. -/
def leBytes : Nat → Nat → List Nat
  | 0, _ => []
  | k + 1, n => n % 256 :: leBytes k (n / 256)

/-- The bytes of a number, most significant first. -/
def beBytes (k n : Nat) : List Nat := (leBytes k n).reverse

/-- The number that bytes spell, least significant first. -/
def leNat : List Nat → Nat
  | [] => 0
  | b :: t => b % 256 + 256 * leNat t

/-- The number that bytes spell, most significant first. -/
def beNat (bs : List Nat) : Nat := bs.foldl (fun a b => a * 256 + b % 256) 0

/-- The bytes `[i, i + n)` of a list. -/
def slice (bs : List Nat) (i n : Nat) : List Nat := (bs.drop i).take n

/-- Change the element at an index. -/
def modAt {α : Type} (f : α → α) : List α → Nat → List α
  | [], _ => []
  | a :: t, 0 => f a :: t
  | a :: t, i + 1 => a :: modAt f t i

end Sys2Proof.Machine
end

