-- ==== Sys2Proof/Machine/Sparse.lean ====
section
/-! DEFINITION. Reading and writing sparse tables in their one canonical form. -/

namespace Sys2Proof.Machine

variable {α : Type}

/-- The value at key `k`; an unlisted key reads as its default `d k`. -/
def tget (d : Nat → α) : Table α → Nat → α
  | [], k => d k
  | (j, v) :: t, k => if k = j then v else tget d t k

/-- Insert or replace the entry of `k`, keys rising. -/
def tins : Table α → Nat → α → Table α
  | [], k, v => [(k, v)]
  | (j, w) :: t, k, v =>
    if k = j then (k, v) :: t else if k < j then (k, v) :: (j, w) :: t else (j, w) :: tins t k v

/-- Remove the entry of `k`. -/
def tdel : Table α → Nat → Table α
  | [], _ => []
  | (j, w) :: t, k => if k = j then tdel t k else (j, w) :: tdel t k

/-- Write `v` at `k`: a value equal to the default leaves no entry. -/
def tput [DecidableEq α] (d : Nat → α) (t : Table α) (k : Nat) (v : α) : Table α :=
  if v = d k then tdel t k else tins t k v

/-- Every key of the table is above `k`. -/
def tabove (k : Nat) : Table α → Bool
  | [] => true
  | (j, _) :: t => decide (k < j) && tabove k t

/-- The canonical form: keys strictly rising, no entry equal to its default. -/
def twf [DecidableEq α] (d : Nat → α) : Table α → Bool
  | [] => true
  | (j, v) :: t => decide (v ≠ d j) && tabove j t && twf d t

/-- Replace the value at `k` by `f` of it. -/
def tmod [DecidableEq α] (d : Nat → α) (t : Table α) (k : Nat) (f : α → α) : Table α :=
  tput d t k (f (tget d t k))

end Sys2Proof.Machine
end

