-- ==== Sys2Proof/Machine/BoardOps.lean ====
section
/-! DEFINITION. The board's instruction word and the results of its operations (R275 to R278). The loader
decodes a program when it verifies a book (R287), and the cells run it (Machine/Cells.lean). -/

namespace Sys2Proof.Machine

/-- Fields of a 64-bit instruction word (R275). -/
structure CellIns where
  opc : Nat
  su : Nat
  pen : Bool
  psel : Nat
  pinv : Bool
  dst : Nat
  a : Nat
  b : Nat
  imm : Nat
  deriving DecidableEq, Repr

/-- Take an instruction word apart. -/
def cellIns (w : Nat) : CellIns :=
  { opc := nbits w 63 58, su := nbits w 57 56, pen := w.testBit 55, psel := nbits w 54 53, pinv := w.testBit 52,
    dst := nbits w 51 46, a := nbits w 45 40, b := nbits w 39 34, imm := nbits w 33 0 }

/-- Register codes (R275). -/
def isX (c : Nat) : Bool := decide (c < 0x20)
def isA (c : Nat) : Bool := decide (0x20 ≤ c) && decide (c < 0x24)
def isP (c : Nat) : Bool := decide (0x38 ≤ c) && decide (c < 0x3C)
/-- An 18-bit operand: X, Q or E. -/
def isSrc (c : Nat) : Bool := isX c || (decide (0x28 ≤ c) && decide (c < 0x38))

/-- Bits of IMM that an operation names (R276); the ones above must be 0 (R278). -/
def immBits : Nat → Nat
  | 0x01 | 0x02 => 11
  | 0x03 | 0x04 | 0x14 => 16
  | 0x05 => 18
  | 0x09 => 1
  | 0x0A => 9
  | 0x0B => 7
  | 0x0C | 0x12 => 6
  | 0x0D | 0x0E => 3
  | 0x11 => 9
  | 0x13 => 20
  | 0x16 => 28
  | _ => 0

/-- The register fields that an operation uses hold valid codes (R276). -/
def CellIns.regsOk (i : CellIns) : Bool :=
  match i.opc with
  | 0x01 | 0x03 | 0x05 | 0x13 => isX i.dst
  | 0x02 | 0x04 | 0x11 | 0x14 => isSrc i.a
  | 0x06 | 0x07 | 0x08 => isA i.dst && isSrc i.a && isSrc i.b
  | 0x09 => isA i.dst && isA i.a
  | 0x0A => isA i.dst
  | 0x0B => isX i.dst && isA i.a
  | 0x0C => isA i.dst && isSrc i.a
  | 0x0D | 0x0F => isX i.dst && isSrc i.a && isSrc i.b
  | 0x0E => isP i.dst && isSrc i.a && isSrc i.b
  | 0x10 => isA i.dst && isSrc i.b
  | _ => true

/-- The immediate code is defined (R278). -/
def CellIns.immOk (i : CellIns) : Bool :=
  decide (i.imm < 2 ^ immBits i.opc) &&
  match i.opc with
  | 0x0A => decide ((signed 7 i.imm).natAbs ≤ 47)
  | 0x0B => decide (nbits i.imm 5 0 ≤ 30)
  | 0x0C => decide (nbits i.imm 5 0 ≤ 30)
  | 0x0E => decide (i.imm ≤ 5)
  | 0x11 => decide (nbits i.imm 8 4 < 30)
  | _ => true

/-- Item 4 of R287 for one instruction, apart from addresses and LOOP bodies: opcode, registers, immediates, SEL. -/
def CellIns.ok (i : CellIns) : Bool :=
  decide (i.opc ≤ 0x18) && i.regsOk && i.immOk && (i.opc != 0x0F || i.pen)

/-- The addresses of an instruction lie in range: only a DRN can name a channel that does not exist. -/
def CellIns.addrOk (i : CellIns) : Bool := i.opc != 0x12 || decide (i.imm < 48)

/-! ### Results (R276 to R278) -/

/-- 18-bit and 48-bit readings. -/
def s18 (v : Nat) : Int := signed 18 v
def u18 (v : Int) : Nat := (v % 2 ^ 18).toNat
def u48 (v : Int) : Nat := (v % 2 ^ 48).toNat

/-- An operand of MUL, MAC and MSU under SU: bit 0 makes a unsigned, bit 1 makes b unsigned. -/
def mulOperands (su a b : Nat) : Int × Int :=
  (if su % 2 = 1 then ((a % 2 ^ 18 : Nat) : Int) else s18 a, if su / 2 % 2 = 1 then ((b % 2 ^ 18 : Nat) : Int) else s18 b)

/-- MUL, MAC (`acc` added to) and MSU (subtracted from): wrapped modulo 2^48 (R277). -/
def mulResult (su a b : Nat) : Nat := let (x, y) := mulOperands su a b; u48 (x * y)
def macResult (su acc a b : Nat) : Nat := let (x, y) := mulOperands su a b; u48 (acc + x * y)
def msuResult (su acc a b : Nat) : Nat := let (x, y) := mulOperands su a b; u48 (acc - x * y)

/-- ADDA. -/
def addaResult (acc acc' imm : Nat) : Nat := u48 (if imm % 2 = 0 then (acc : Int) + acc' else (acc : Int) - acc')

/-- SHA: positive shifts go left; right shifts round down, or half away from zero with IMM[8]. -/
def shaResult (acc imm : Nat) : Nat :=
  let v := signed 48 acc
  let k := signed 7 imm
  if 0 ≤ k then u48 (v * (2 ^ k.toNat : Nat))
  else if imm.testBit 8 then u48 (roundDiv v (2 ^ k.natAbs : Nat)) else u48 (floorDiv v (2 ^ k.natAbs : Nat))

/-- EXT: A[k+17:k], or saturated to the signed 18-bit range. -/
def extResult (acc imm : Nat) : Nat :=
  let k := nbits imm 5 0
  if imm.testBit 6 then u18 (saturate 18 (floorDiv (signed 48 acc) (2 ^ k : Nat))) else acc / 2 ^ k % 2 ^ 18

/-- INS. -/
def insResult (acc a imm : Nat) : Nat :=
  let k := nbits imm 5 0
  (acc / 2 ^ (k + 18) * 2 ^ (k + 18) + a % 2 ^ 18 * 2 ^ k + acc % 2 ^ k) % 2 ^ 48

/-- ALU. -/
def aluResult (imm a b : Nat) : Nat :=
  match imm with
  | 0 => (a + b) % 2 ^ 18
  | 1 => u18 ((a : Int) - b)
  | 2 => (a.land b) % 2 ^ 18
  | 3 => (a.lor b) % 2 ^ 18
  | 4 => (a.xor b) % 2 ^ 18
  | 5 => u18 (min (s18 a) (s18 b))
  | 6 => u18 (max (s18 a) (s18 b))
  | _ => if s18 a = -131072 then 131071 else (s18 a).natAbs

/-- SETP. -/
def setpResult (imm a b : Nat) : Bool :=
  let x := a % 2 ^ 18
  let y := b % 2 ^ 18
  match imm with
  | 0 => x == y
  | 1 => x != y
  | 2 => decide (s18 a < s18 b)
  | 3 => decide (s18 a ≤ s18 b)
  | 4 => decide (x < y)
  | _ => decide (x ≤ y)

/-- One DIVS step (R278). -/
def divsResult (acc b : Nat) : Nat :=
  let d : Int := ((b % 2 ^ 18 : Nat) : Int)
  let r : Int := signed 30 (acc / 2 ^ 18)
  let q : Nat := acc % 2 ^ 18
  let t := 2 * r + ((q / 2 ^ 17 : Nat) : Int)
  let t := if 0 ≤ r then t - d else t + d
  (t % 2 ^ 30).toNat * 2 ^ 18 + (q * 2 % 2 ^ 18 + b2n (decide (0 ≤ t)))

/-- Eighteen chained DIVS (R278). -/
def divsChain : Nat → Nat → Nat → Nat
  | 0, acc, _ => acc
  | k + 1, acc, b => divsChain k (divsResult acc b) b

/-! ### The length of a program (R286, R287) -/

/-- Tempos that an instruction issues in: LOOP none, KAT its 64, every other one. -/
def CellIns.tempos (i : CellIns) : Nat := if i.opc = 0x16 then 0 else if i.opc = 0x18 then 64 else 1

/-- Walk a program up to its BAR: the tempos before it; `none` when no BAR is reached or a LOOP body holds one. The
first argument bounds the instructions and LOOPs still to visit. -/
def walk : Nat → List CellIns → Option (Nat × Bool)
  | 0, _ => none
  | _ + 1, [] => some (0, false)
  | k + 1, i :: r =>
    if i.opc = 0x17 then some (0, true)
    else if i.opc = 0x16 then
      let n := nbits i.imm 11 0
      match walk k (r.take n), walk k (r.drop n) with
      | some (b, false), some (t, f) => if r.length < n then none else some (b * (nbits i.imm 27 12 + 1) + t, f)
      | _, _ => none
    else
      match walk k r with
      | some (t, f) => some (i.tempos + t, f)
      | none => none

/-- Depth of LOOP nesting of a program, and whether every body lies inside it and inside its outer body. -/
def nest : Nat → List CellIns → Option Nat
  | 0, _ => none
  | _ + 1, [] => some 0
  | k + 1, i :: r =>
    if i.opc = 0x16 then
      let n := nbits i.imm 11 0
      if r.length < n then none
      else
        match nest k (r.take n), nest k (r.drop n) with
        | some b, some t => some (max (b + 1) t)
        | _, _ => none
    else nest k r

/-- The length of a pair's code from its entry: 4 tempos of start allowance, the code and KAT, BAR, and the 8-tempo
barrier report (R286). -/
def codeLength (prog : List CellIns) : Option Nat :=
  match walk (2 * prog.length + 2) prog with
  | some (t, true) => some (4 + t + 1 + 8)
  | _ => none

end Sys2Proof.Machine
end

