-- ==== Sys2Proof/Config.lean ====
section
/-! DEFINITION. What the spec leaves open: constants with no body, so that no proof can know their value
(each is named in a log entry under notes/assumptions/). -/

namespace Sys2Proof.Config

/-- Offset, in stamp-clock periods, of an instant inside a round that no command fixes (log entry 3). -/
opaque instant : Nat → Nat

/-- SEC-DED check bits of a brine-queue entry, over its bits [127:8] (R49; the code is not given; log entry 4). -/
opaque entryEcc : Nat → Nat

/-- A value the spec states no rule for; the arguments say which one (site, serial number) (log entry 5). -/
opaque freeInt : Nat → Nat → Int

/-- The word of the round's configuration image at a CFG address, from the active set and the direct controls; its layout is
not listed (R277; log entry 68). -/
opaque cfgWord : List (Nat × Nat) → List (Nat × Nat) → Nat → Nat

/-- Whether an ECDSA signature block verifies, from the signed bytes, the block's words and the slot's key
(R292, R473; the curve arithmetic lies outside the model; log entry 6). -/
opaque signatureOk : List Nat → List Nat → List Nat → Bool

/-- Whether 96 bytes are a valid P-384 point (R478; log entry 6). -/
opaque validPoint : List Nat → Bool

/-- AES-SIV opening of an NTS cookie or authenticator: `none` when it does not authenticate (R350; log entry 6). -/
opaque sivOpen : List Nat → List Nat → List Nat → Option (List Nat)

/-- AES-SIV sealing (R350, R351; log entry 6). -/
opaque sivSeal : List Nat → List Nat → List Nat → List Nat

/-- The keyed hash of a client address that picks its rate-limit bucket; the first argument says which draw of the key it
is (R353; log entry 6). -/
opaque bucketHash : Nat → List Nat → Nat

end Sys2Proof.Config
end

