-- ==== Sys2Proof/Machine/State.lean ====
section
/-! DEFINITION. The state of the PX3240 as plain data: every register, queue, counter, mode and unit the spec names.
Registers that only show a unit's state (a STATE field, a queue level) are read from that unit's record. -/

namespace Sys2Proof.Machine

/-- The faults of the model: none is raised (the device keeps running in every state; its own fault sources are
records of the fault collector, not stops). Safe: nothing raises it. -/
inductive Fault where
  /-- Raised by nobody: kept so that the type is inhabited. Safe. -/
  | halted
  deriving DecidableEq, Repr

/-- The refusals of the model. -/
inductive Refusal where
  /-- Raised by `exec` for a command without a meaning. Safe: nothing is claimed of it. -/
  | notModelled (mnemonic : String)
  deriving DecidableEq, Repr

/-! ### Register pages (R388, R389, R400) -/

/-- One master's CMD_STATUS on a page (R400). -/
structure CmdStatus where
  /-- RESULT [7:0] -/
  result : Nat
  /-- CODE [15:8] -/
  code : Nat
  /-- SEQ [30:16] -/
  seq : Nat
  /-- DONE [31] -/
  done : Bool
  deriving DecidableEq, Repr

/-- A command that was accepted and has not yet taken effect (R400, R507). -/
structure CmdPend where
  /-- code of the issuing master (R383) -/
  master : Nat
  /-- command code -/
  code : Nat
  /-- its CMD_ARG -/
  arg : Word
  /-- CMD_STATUS.SEQ it was given -/
  seq : Nat
  /-- data registers captured with it -/
  data : List Word
  deriving DecidableEq, Repr

/-- A two-party proposal pending on a page (R393, R476). -/
structure Proposal where
  /-- proposing master -/
  master : Nat
  /-- command code; 0 for PAGE_LOCK -/
  code : Nat
  /-- CMD_ARG, or the value of a PAGE_LOCK write -/
  arg : Word
  /-- data registers captured at the proposal -/
  data : List Word
  /-- round boundaries passed since it arrived -/
  age : Nat
  deriving DecidableEq, Repr

/-- A holding set of a snapshot group, kept for one master on one page (R403). -/
structure Hold where
  /-- offset of the origin read last -/
  origin : Nat
  /-- held copies by offset -/
  words : List (Nat × Word)
  deriving DecidableEq, Repr

/-- The common registers of one page (R389), its commands and its proposals. -/
structure Page where
  /-- PAGE_CTRL.EVT_IRQ_EN -/
  evtIrqEn : Bool
  /-- PAGE_EVENT -/
  event : Word
  /-- PAGE_EVENT_EN -/
  eventEn : Word
  /-- PAGE_FAULT -/
  fault : Word
  /-- LOCK_CFG, bit 0 of the lock mask in effect (R393) -/
  lockCfg : Bool
  /-- LOCK_CMD, bit 1 of the lock mask in effect -/
  lockCmd : Bool
  /-- PAGE_STATUS.LOCK_RESULT -/
  lockResult : Nat
  /-- the pending lock proposal -/
  lockProp : Option Proposal
  /-- commands issued to the page since reset, modulo 32,768 -/
  seq : Nat
  /-- CMD_ARG of each master -/
  args : Table Word
  /-- CMD_STATUS of each master -/
  status : Table CmdStatus
  /-- the accepted command that has not yet taken effect -/
  pend : Option CmdPend
  /-- the pending two-party command -/
  prop : Option Proposal
  /-- the holding set of each master -/
  holds : Table (Option Hold)
  deriving DecidableEq, Repr

/-- A write staged under the guarded protocol for one master (R392). -/
structure Staged where
  /-- page of the staged write -/
  page : Nat
  /-- offset on the page -/
  off : Nat
  /-- the value -/
  value : Word
  deriving DecidableEq, Repr

/-! ### Stamping array (chapter 02) -/

/-- STAMP states (R64). -/
inductive ChState where
  | off | starting | run | degraded | fenced
  deriving DecidableEq, Repr

/-- One interpolator of a channel (R57, R60, R508). -/
structure Interp where
  /-- accepted one-period mean c1, 6 fractional bits -/
  c1 : Int
  /-- accepted two-period mean c2, 6 fractional bits -/
  c2 : Int
  /-- an accepted pair is held -/
  accepted : Bool
  /-- excluded under R64 -/
  excluded : Bool
  /-- consecutive pairs discarded for a gain jump -/
  jumps : Nat
  /-- STARTING rounds left in which an offence of R508 counts against it -/
  blame : Nat
  /-- linearity table in use, entries 1 to 63 (empty: all zero) -/
  lin : List Int
  /-- a complete table waiting to be adopted -/
  linNew : Option (List Int)
  /-- code-density histogram, 64 bins (empty: all zero) -/
  hist : List Nat
  /-- idle rounds accumulated in the histogram -/
  histRounds : Nat
  deriving DecidableEq, Repr

/-- A brine-queue entry (R49), its coarse count extended to 64 bits (R42). -/
structure Entry where
  /-- COARSE, extended -/
  coarse : Nat
  /-- FINE_RAW -/
  raw : Nat
  /-- EDGE: false rising, true falling -/
  falling : Bool
  /-- MISS -/
  miss : Bool
  /-- OVF -/
  ovf : Bool
  /-- INTERP: false A, true B -/
  interpB : Bool
  /-- SEQ -/
  seq : Nat
  /-- MISS_CNT -/
  missCnt : Nat
  /-- the entry was written while the channel was DEGRADED -/
  degraded : Bool
  /-- the count of the feedback divider at the event, on a feedback channel (R230) -/
  edge : Nat
  deriving DecidableEq, Repr

/-- A calibrated stamp that the board drained (R59). -/
structure Stamp where
  /-- calibrated instant in fine units: periods × 262,144 + fine -/
  t : Int
  /-- the entry carried MISS -/
  miss : Bool
  /-- the entry carried OVF -/
  ovf : Bool
  /-- the entry came from a channel in DEGRADED -/
  degraded : Bool
  /-- the count of the feedback divider at the event (R230) -/
  edge : Nat
  deriving DecidableEq, Repr

/-- A channel test in progress (R66, R67). -/
structure ChTest where
  /-- rounds left -/
  left : Nat
  /-- a comparison of interpolator A failed -/
  failA : Bool
  /-- a comparison of interpolator B failed -/
  failB : Bool
  deriving DecidableEq, Repr

/-- One stamp channel. -/
structure Chan where
  /-- CH_STATUS.STATE -/
  state : ChState
  /-- interpolator A -/
  a : Interp
  /-- interpolator B -/
  b : Interp
  /-- stamping has begun (R44) -/
  stamping : Bool
  /-- stamping begins at the next boundary -/
  arming : Bool
  /-- selected edges still to pass before the next event -/
  prediv : Nat
  /-- coarse count of the last stop edge, for the dead time (R47) -/
  lastStop : Option Nat
  /-- SEQ of the next entry -/
  seq : Nat
  /-- events missed since the previous entry, saturating at 511 -/
  missed : Nat
  /-- a stamp was lost since the last written entry (R54) -/
  lost : Bool
  /-- the brine queue, oldest first -/
  queue : List Entry
  /-- SEQ expected of the next drained entry -/
  drainSeq : Nat
  /-- QUEUE_PEAK -/
  peak : Nat
  /-- LAST_ENTRY -/
  last : Option Entry
  /-- the stamps drained for the present round, and the entries that the drain unit delivered to the board, oldest first -/
  drained : List Stamp
  took : List Entry
  /-- the drained round is marked incomplete (R52, R71) -/
  incomplete : Bool
  /-- a forced fault marks the round that is drained next as incomplete (R71) -/
  spoil : Bool
  /-- rounds completed in STARTING (R508) -/
  startRounds : Nat
  /-- the TEST in progress -/
  test : Option ChTest
  /-- CH_STATUS.TEST_RESULT -/
  testResult : Nat
  /-- SKEW_FACTORY, signed fine units -/
  skew : Int
  /-- its correction for the on-die temperature (R62), of a law that the spec does not state (log entry 22) -/
  warm : Int
  deriving DecidableEq, Repr

/-- Timebase loop states (R40). -/
inductive TbState where
  | crystal | slewing | following | frozen
  deriving DecidableEq, Repr

/-- Oscillator control and the round timer (R21, R37 to R41, R183). -/
structure Osc where
  /-- TB_STATUS.SCLK_LOCK -/
  sclkLock : Bool
  /-- SCLK_LOCK has been 1 since the last reset or WAKE: the coarse count and the round timer run -/
  running : Bool
  /-- extended coarse count at the last boundary (before the first: of the first boundary) -/
  bnd : Nat
  /-- round-timer count of the next boundary -/
  count : Nat
  /-- the next boundary is the first after WAKE, a swap boundary of the whole active set (R506) -/
  wakeSwap : Bool
  /-- TB_STATUS.TB_STATE -/
  tb : TbState
  /-- TB_STATUS.TB_SRC_ACT -/
  tbSrc : Nat
  /-- the timebase term, LSB 2^-64 -/
  tbTerm : Int
  /-- stamps of SC[44] in the last 8,000 rounds, newest first: (round, instant) -/
  histA : List (Nat × Int)
  /-- stamps of SC[45] in the last 8,000 rounds -/
  histB : List (Nat × Int)
  /-- round count at the last entry to SLEWING -/
  tbSince : Nat
  /-- rounds with the measured offset below 0.1 ppb, or with stamps at the expected rate in FROZEN -/
  tbGood : Nat
  /-- rounds since the oscillator channel's last stamp -/
  tbSilent : Nat
  /-- the ageing term in effect AGE_NOW, units of 0.01 ppb × 8,000 (one round's step of R183) -/
  ageNow : Int
  /-- the TEST that ended last failed (R67) -/
  lastTestFail : Bool
  /-- the channel of the TEST that ended last -/
  lastTestChan : Nat
  deriving DecidableEq, Repr

/-! ### Measurement and harvest (chapter 03) -/

/-- Context states (R91). -/
inductive TimState where
  | idle | waiting | running | halted
  deriving DecidableEq, Repr

/-- A gate in progress, or an INTERVAL gate that waits for its last stops (R75, R76). -/
structure Gate where
  /-- gate number -/
  seq : Nat
  /-- rounds of the gate drained so far -/
  rounds : Nat
  /-- every round of the gate has been drained, or it ended early -/
  ended : Bool
  /-- flags of R79, bit 0 for flag bit 16 -/
  flags : Nat
  /-- SRC_A stamps (FREQUENCY) or the starts still to pair (INTERVAL), oldest first -/
  a : List Int
  /-- SRC_B stamps (FREQUENCY) -/
  b : List Int
  /-- intervals or samples of the gate, newest first -/
  vals : List Int
  /-- starts without a stop -/
  unpaired : Nat
  deriving DecidableEq, Repr

/-- A posted result (R76, R102). -/
structure TimResult where
  value : Int
  min : Int
  max : Int
  last : Int
  aux : Nat
  n : Nat
  seq : Nat
  flags : Nat
  dec : Nat
  deriving DecidableEq, Repr

/-- One observation level of a STABILITY context (R87). Block means are kept as block sums. -/
structure Level where
  /-- samples in the block in progress -/
  cnt : Nat
  /-- their sum -/
  sum : Int
  /-- the block holds a missing sample or a dropped round -/
  bad : Bool
  /-- sum of the last complete block -/
  s1 : Option Int
  /-- sum of the block before it -/
  s2 : Option Int
  /-- accumulated squares of second differences of block sums -/
  acc : Nat
  /-- K_m -/
  k : Nat
  /-- samples, least and largest of the span block in progress -/
  span : Option (Nat × Int × Int)
  /-- the span block in progress holds a missing sample -/
  spanBad : Bool
  /-- least and largest of the last complete span block -/
  prev : Option (Int × Int)
  /-- MTIE_LO -/
  mlo : Nat
  /-- MTIE_HI -/
  mhi : Nat
  deriving DecidableEq, Repr

/-- The index state of one source of a time-error series (R85). -/
structure Track where
  anchor : Int
  lastT : Int
  idx : Int
  /-- error of the last event -/
  err : Int
  /-- an event came in the present sample interval -/
  fresh : Bool
  deriving DecidableEq, Repr

/-- One measurement context. -/
structure Tim where
  state : TimState
  /-- CTX_STATUS.DONE -/
  done : Bool
  /-- number of the next gate -/
  nextSeq : Nat
  /-- gates in progress, oldest first; the last one is open -/
  gates : List Gate
  /-- unused stop events of INTERVAL, oldest first -/
  stops : List Int
  trackA : Option Track
  trackB : Option Track
  /-- rounds since the last sample instant -/
  sinceSample : Nat
  /-- newest samples first, at most 64; `none` is a missing sample -/
  ring : List (Option Int)
  /-- estimator levels 0 to 19 (empty: all clear) -/
  levels : List Level
  /-- the anchor of every source exists: the index k of R87 counts -/
  anchored : Bool
  /-- results that are posted at the end of the present round, oldest first (R76) -/
  due : List TimResult
  result : TimResult
  deriving DecidableEq, Repr

/-- The statistics of one context over one period (R96). -/
structure CtxStat where
  count : Nat
  sum : Int
  sumSq : Int
  min : Int
  max : Int
  flags : Nat
  deriving DecidableEq, Repr

/-- A harvest period in progress (R93 to R96). -/
structure Period where
  rounds : Nat
  /-- extended coarse count of the opening boundary -/
  start : Nat
  /-- 1 s periods completed inside it -/
  secs : Nat
  aligned : Bool
  short : Bool
  /-- bit v: a round ran variant v; bit 4: the board ran nothing in a round (R296) -/
  varSeen : Nat
  /-- sums of the latched 1 s counter values -/
  ctr : Table Nat
  /-- context statistics in progress -/
  ctx : Table CtxStat
  deriving DecidableEq, Repr

/-- A latched bank (R95, R104). -/
structure Bank where
  seq : Nat
  rounds : Nat
  flags : Nat
  start : Nat
  ctr : Table Nat
  ctx : Table CtxStat
  /-- values lost to an uncorrectable error, as HV_SEL names them: KIND and its two further fields (R104, R105) -/
  lost : List (Nat × Nat × Nat)
  deriving DecidableEq, Repr

/-- An archive record that is being written (R98, R99). -/
structure ArchJob where
  /-- slot, and the record's sequence number -/
  slot : Nat
  seq : Nat
  /-- words still to write, in ascending address order: (byte address, word) -/
  words : List (Nat × Nat)
  deriving DecidableEq, Repr

/-- The harvest unit. -/
structure Harvest where
  p1 : Period
  p60 : Period
  p900 : Period
  pday : Period
  b1 : Bank
  b60 : Bank
  b900 : Bank
  bday : Bank
  /-- HV_STATUS.ALIGN_ACT -/
  alignAct : Bool
  /-- HV_CFG.ALIGN as the last boundary had it -/
  alignCfg : Bool
  /-- HV_STATUS.TIME_WAIT -/
  timeWait : Bool
  /-- the alignment changed: each period in progress ends SHORT at its first boundary under the new rule -/
  realign : Nat
  /-- round count from which the free-running boundaries are counted (R93, R94) -/
  origin : Nat
  /-- the archive record in progress -/
  arch : Option ArchJob
  /-- next archive slot -/
  archSlot : Nat
  /-- sequence number of the last committed archive record -/
  archSeq : Nat
  /-- the ring has been resumed after reset (R99, R490) -/
  archResumed : Bool
  deriving DecidableEq, Repr

/-! ### Power and budget (chapter 13) -/

/-- Power states (R367); RESET cannot be read. -/
inductive PState where
  | run | reduced | survival | dormant | inReset
  deriving DecidableEq, Repr

/-- One thermal sensor (R373). -/
structure Temp where
  /-- the higher diode, 0.01 degC -/
  value : Int
  /-- the diodes disagree -/
  disagree : Bool
  /-- consecutive rounds with the diodes 3 K apart; with both diodes at 140 degC or above (R380) -/
  apart : Nat
  hot : Nat
  deriving DecidableEq, Repr

/-- One rail monitor (R369, R378). -/
structure Vmon where
  /-- present reading, mV -/
  now : Nat
  /-- lowest since the last 1 s harvest boundary, mV -/
  low : Nat
  deriving DecidableEq, Repr

/-- The budget controller (R374). -/
structure Budget where
  pstate : PState
  /-- L in effect -/
  level : Nat
  /-- L chosen for the next round -/
  next : Nat
  lt : Nat
  ls : Nat
  le : Nat
  cool : Nat
  calm : Nat
  above : Nat
  under : Nat
  /-- VDD_CORE was below SAG_LO since the last latch -/
  sagSeen : Bool
  /-- p_avg, mW -/
  pAvg : Int
  /-- p_est of the last round, mW -/
  pEst : Nat
  /-- TEMP_MAX: th and its sensor -/
  th : Int
  thSensor : Nat
  /-- sensors 0 to 7 -/
  temps : Table Temp
  /-- rails 0 to 9 -/
  vmon : Table Vmon
  /-- cell clock now, MHz × 2^10 -/
  fCell : Nat
  /-- lowest cell clock since the last 1 s harvest boundary, MHz × 2^10 -/
  fLow : Nat
  /-- the cell clock is below its unthrottled value -/
  throttle : Bool
  /-- the V3 floor is in force -/
  floorV3 : Bool
  /-- a floor of R372 was reached in this round -/
  atFloor : Bool
  /-- the cell clock was throttled in this round -/
  throttled : Bool
  /-- lowest cell clock of this round, MHz × 2^10 -/
  roundLow : Nat
  /-- throttled rounds of the last 8,000: (rounds ago, lowest clock) -/
  sagHist : List (Nat × Nat)
  /-- HEADROOM (R376) -/
  headroom : Nat
  deriving DecidableEq, Repr

/-! ### Interrupt delivery (chapter 15) -/

/-- The interrupt controller; target 0 is the control host, 1 the guardian host. -/
structure Irq where
  /-- latched edge sources other than FATAL, ascending -/
  latched : List Nat
  /-- FATAL latched on the control host -/
  fatalC : Bool
  /-- FATAL latched on the guardian host -/
  fatalG : Bool
  /-- numbers in service on the control host -/
  insvcC : List Nat
  /-- numbers in service on the guardian host -/
  insvcG : List Nat
  /-- sources moved to the other target under R417 -/
  moved : List Nat
  /-- rounds for which a source has been eligible on an asleep target -/
  waits : Table Nat
  /-- the control host's request was asserted -/
  reqC : Bool
  /-- the guardian host's request was asserted -/
  reqG : Bool
  /-- IRQ_C_N is driven low -/
  lineC : Bool
  /-- IRQ_G_N is driven low -/
  lineG : Bool
  /-- MSI messages sent, in all -/
  msi : Nat
  deriving DecidableEq, Repr

/-! ### Fault collection and online test (chapter 16) -/

/-- A fault record (R425). -/
structure FaultRec where
  page : Nat
  bit : Nat
  /-- CLASS: 0 C, 1 U, 2 F -/
  cls : Nat
  forced : Bool
  unit : Nat
  master : Nat
  access : Nat
  escalated : Bool
  addr : Nat
  time : Nat
  rseq : Nat
  detail : Nat
  deriving DecidableEq, Repr

/-- A check slot in use (R429). -/
structure Slot where
  page : Nat
  bit : Nat
  unit : Nat
  /-- DETAIL of its records, and the twin pairs it concerns -/
  detail : Nat
  pairs : List Nat
  repeats : Nat
  /-- round boundaries left, 0 once the window has ended -/
  left : Nat
  deriving DecidableEq, Repr

/-- The fault collector and the online test sweep. -/
structure FaultUnit where
  /-- FAULT_STATUS.COMPAT -/
  compat : Bool
  /-- first-error captures by page -/
  captures : Table (Option FaultRec)
  /-- the history queue, oldest first, at most 16 -/
  queue : List FaultRec
  queueOvf : Bool
  /-- next RSEQ -/
  rseq : Nat
  /-- the 16 check slots -/
  slots : Table (Option Slot)
  /-- SAFE_CAUSE of each domain: the identity, once SET -/
  safeCause : Table (Option Nat)
  /-- FORCE_EN -/
  forceEn : Bool
  /-- a BIST runs -/
  bist : Bool
  /-- BIST_RESULT: [1:0] outcome and TYPE of the first failing block -/
  bistResult : Nat
  bistType : Nat
  /-- current sweep step -/
  sweepStep : Nat
  /-- rounds into the slot, and its length; 0 before the first slot begins -/
  sweepRounds : Nat
  sweepLen : Nat
  /-- the command of the step that was accepted last (cells: 1 SPARE_IN, 2 CELL_TEST), 0 for none -/
  sweepCmd : Nat
  /-- rounds until a refused command is tried again -/
  sweepRetry : Nat
  /-- rounds into the cycle -/
  cycleRounds : Nat
  /-- seconds taken by the last completed cycle -/
  cycleSecs : Nat
  /-- the step of this slot is in progress -/
  sweepBusy : Bool
  /-- the step of this slot has completed or has been skipped -/
  sweepDone : Bool
  /-- the step waits under R440 -/
  sweepWait : Bool
  sweepLate : Bool
  /-- the cycle restarts at the next slot (R448) -/
  sweepRestart : Bool
  deriving DecidableEq, Repr

/-! ### Non-volatile store (chapter 17) -/

/-- The NV store and its controller. -/
structure NvUnit where
  /-- the store's bytes; an unlisted byte is 0 (R450) -/
  mem : List Host.Cell
  /-- byte addresses of words known to be uncorrectable: a host reads them as 0 (R466) -/
  bad : List Nat
  /-- a device counter without a valid copy was to be incremented: NV_CTR_INVALID is due -/
  ctrDue : Bool
  /-- block-protect mask in effect (R460) -/
  bp : Nat
  lastUncorr : Nat
  ctrVal : Nat
  /-- CTR_RESULT [3:0] -/
  ctrResult : Nat
  /-- hold-up reserve good -/
  holdupOk : Bool
  /-- the reserve has been checked since reset (HOLDUP_OK reads 0 until then, R465) -/
  holdupSeen : Bool
  /-- read-only until the next reset (R466) -/
  readOnly : Bool
  /-- next log slot -/
  logSlot : Nat
  /-- next log sequence number -/
  logSeq : Nat
  logResumed : Bool
  /-- log entries waiting, oldest first, at most 16 -/
  logWait : List FaultRec
  /-- words that the device has programmed since the last round boundary or command of the page, newest first: the byte
  address and what the word held before; a failing supply may come between any two of them (R454) -/
  flight : List (Nat × Nat)
  deriving DecidableEq, Repr

/-! ### Security and lifecycle (chapter 18) -/

/-- Lifecycle states (R468). -/
inductive Lifecycle where
  | blank | provisioned | deployed | service | retired
  deriving DecidableEq, Repr

/-- Key slot states (R473). -/
inductive KeyState where
  | empty | enabled | revoked
  deriving DecidableEq, Repr

/-- Fuses, protected store and debug level. -/
structure SecUnit where
  lc : Lifecycle
  /-- entries to SERVICE -/
  svcEntries : Nat
  /-- key slots 0 to 3 -/
  keys : Table KeyState
  /-- public keys by slot -/
  pubs : Table (List Word)
  bookMin : Nat
  fwMin : Nat
  /-- DBG_SET: 0 CLOSED, 1 OBSERVE, 2 FULL -/
  dbgSet : Nat
  /-- copies of the protected store that are valid -/
  copyA : Bool
  copyB : Bool
  /-- a fuse mismatch is in force until reset (R481) -/
  fuseBad : Bool
  /-- the known-answer test fails: verifications fail with code 4 -/
  katBad : Bool
  /-- TAP instruction in effect -/
  tap : TapIr
  /-- FW_STATUS.FW_VERIFY -/
  fwVerify : Nat
  /-- slot, version and SEC_VER of the running firmware -/
  fwSlot : Nat
  fwVer : Nat
  fwSecVer : Nat
  /-- fused values: OWN_UID, SKEW_FACTORY by channel, PATH_DLY by output × 8 + format, port latencies -/
  ownUid : Nat
  skews : Table Int
  paths : Table Int
  txLats : Table Nat
  rxLats : Table Nat
  /-- the binding kept in the protected store: the partner's identity and PREF (R308) -/
  binding : Option (Nat × Bool)
  deriving DecidableEq, Repr

/-! ### Start-up (chapter 19) -/

/-- The boot record in use and the progress of start-up (R485 to R493). -/
structure Boot where
  /-- internal reset is released -/
  released : Bool
  /-- what the SFDP table of the flash gives: log2 of its bytes, 0 for none -/
  probe : Nat
  /-- start-up has begun its steps -/
  started : Bool
  /-- start-up resumes after WAKE: no image, no report, no POWER_ONS (R368) -/
  wake : Bool
  /-- RESET_N is high -/
  resetPin : Bool
  /-- cause code of R493 -/
  cause : Nat
  /-- boot record copy in use: 0 none, 1 A, 2 B -/
  copy : Nat
  flags : Nat
  bookA : Nat
  bookB : Nat
  fwA : Nat
  fwB : Nat
  imgAddr : Nat
  reportAddr : Nat
  /-- AGE_PRESET, units of 0.01 ppb -/
  agePreset : Int
  subsys : Nat
  /-- book result of the report: 0 none, 1 A, 2 B, 3 both refused -/
  book : Nat
  bookVerify : Nat
  fw : Nat
  fwVerify : Nat
  /-- image: 0 applied, 1 not enabled, 2 invalid -/
  image : Nat
  applied : Nat
  refused : Nat
  firstRefused : Option Nat
  dropped : Nat
  /-- DEFER entries held, by their index in the image -/
  deferred : List Nat
  /-- the first ENABLE of each domain after reset has been taken (R490) -/
  restored : List Nat
  /-- rounds left in which a partner record is awaited, 0 once the role is settled; none before the wait (R491) -/
  pairWait : Option Nat
  /-- step 5 has begun: the flash has been probed -/
  probed : Bool
  /-- POWER_ONS is still to be incremented (step 6) -/
  powerDue : Bool
  /-- the boot report has been written -/
  reported : Bool
  /-- next entry of the image and their number; rounds waited for the command issued last -/
  imgNext : Nat
  imgCount : Nat
  imgWait : Nat
  /-- the page and SEQ of the command the image runner waits for, and the index of its entry -/
  imgCmd : Option (Nat × Nat × Nat)
  /-- the boot image being tried: 1 the first, 2 the fallback, 0 none; 3: a verified book awaits its activation -/
  bookTry : Nat
  fwTry : Nat
  deriving DecidableEq, Repr

/-! ### Reference qualification (chapter 04) -/

/-- Candidate states (R111). -/
inductive QState where
  | disabled | monitor | soaking | qualified | disqualified | forcedOut
  deriving DecidableEq, Repr

/-- One point of a TDEV mask (R121): its block in progress and its averaged second difference. -/
structure TdevPt where
  cnt : Nat
  sum : Int
  bad : Bool
  s1 : Option Int
  s2 : Option Int
  /-- P_m: squares of units of 2^-8 fine units -/
  p : Nat
  /-- second differences entered -/
  n : Nat
  fail : Bool
  deriving DecidableEq, Repr

/-- One point of an MTIE mask (R121). -/
structure MtiePt where
  span : Option (Nat × Int × Int)
  bad : Bool
  /-- a block has completed -/
  valid : Bool
  fail : Bool
  /-- consecutive completed blocks at 7/8 of the limit or below -/
  good : Nat
  /-- largest block peak-to-peak since the last CLEAR_MASK -/
  peak : Nat
  deriving DecidableEq, Repr

/-- One reference candidate. -/
structure Qual where
  state : QState
  /-- REASON (R116) -/
  reason : Nat
  /-- FAIL_SET as a number, bit r for reason r -/
  failSet : Nat
  suspect : Bool
  frozen : Bool
  /-- fenced in PX1608 compatibility mode (R130) -/
  fenced : Bool
  /-- the decision of this round mismatched: the state stays for the round (R130) -/
  keep : Bool
  /-- rounds left on the soak timer -/
  soak : Nat
  /-- rounds left on the guard timer -/
  guard : Nat
  /-- it entered its state by a command at this boundary: the data of the ending round precede it -/
  fresh : Bool
  /-- the last event noted by the monitors, scaled by NOM_DEN -/
  lastEv : Option Int
  /-- rounds since the last event -/
  sinceEv : Nat
  /-- the activity monitor fails -/
  actFail : Bool
  /-- consecutive events of good spacing while it fails -/
  actRun : Nat
  /-- a round was skipped or frozen since the last judged event (R117) -/
  skipped : Bool
  /-- frozen rounds since the last event, in which its silence is not judged (R114, R118) -/
  quiet : Nat
  /-- packet candidates: the step number of the last sample, and its time error scaled by NOM_DEN (R120) -/
  pktIdx : Int
  pktErr : Int
  /-- a change of configuration at a swap waits until the candidate runs again (R109, R114, R120) -/
  restart : Bool
  /-- stamps of the frequency-window gate in progress, scaled by NOM_DEN, oldest first -/
  fwGate : List Int
  fwRounds : Nat
  fwBad : Bool
  /-- FREQ, LSB 2^-64 -/
  freq : Int
  fwValid : Bool
  fwFail : Bool
  /-- the most recently ended gate posted; the gate before it posted -/
  fwPosted : Bool
  fwPosted1 : Bool
  /-- a result posted since the last vote (R122) -/
  fwNew : Bool
  /-- y before SUSPECT was set (R135) -/
  freqHeld : Int
  phFail : Bool
  /-- PH_LAST, ps -/
  phLast : Int
  maskSince : Nat
  maskK : Nat
  /-- the eight TDEV points -/
  tdev : Table TdevPt
  /-- the eight MTIE points -/
  mtie : Table MtiePt
  majFail : Bool
  majAgree : Nat
  majVoters : Nat
  disagree : Bool
  /-- QL_RANK in effect -/
  rank : Nat
  /-- QL_RX [7:0], [8], [9] -/
  qlRx : Nat
  qlEnh : Bool
  qlTimeout : Bool
  /-- rounds since the last valid ESMC PDU; 40,000 before the first one -/
  esmcAge : Nat
  /-- the receiver relocked or the link came up since the last evaluation (R108) -/
  relock : Bool
  /-- packet candidates: time errors that arrived since the last evaluation, oldest first -/
  samples : List Int
  /-- time errors of the last 1,024 rounds for R133, scaled by NOM_DEN: (rounds ago, event time, time error) -/
  errs : List (Nat × Int × Int)
  /-- anchor and index state of the time error of R133, scaled by NOM_DEN -/
  track : Option Track
  deriving DecidableEq, Repr

/-! ### Timing domains (chapters 05 and 06) -/

/-- Domain states (R174). -/
inductive DState where
  | init | freeRun | acquire | locked | holdover | holdoverLimited
  deriving DecidableEq, Repr

/-- One slot of a domain (R131 to R152). -/
structure DSlot where
  /-- phase estimate p_s of the last round, 2^-8 fine units; `none` without measurements -/
  p : Option Int
  /-- increment dp_s of the round -/
  dp : Int
  bridged : Bool
  /-- the slot is eligible (ENSEMBLE) -/
  eligible : Bool
  /-- weight W_NOW, Q0.17 -/
  w : Nat
  /-- target weight W_TGT -/
  t : Nat
  parked : Bool
  /-- σ estimator (R150) and the rounds since its last sample -/
  sig : TdevPt
  sigSince : Nat
  /-- the q_s of the last W rounds as exact ratios (numerator, denominator), newest first -/
  qs : List (Int × Int)
  /-- rounds since admission -/
  age : Nat
  /-- consecutive rounds with |D_s| within its limit while parked -/
  calm : Nat
  /-- TIME slot of a time domain: (rounds ago, event time, time error on the domain's scale in 2^-8 fine
  units) (R133) -/
  terrs : List (Nat × Int × Int)
  /-- the candidate was SUSPECT in the previous round -/
  sus : Bool
  /-- the candidate was QUALIFIED in the previous round (R152) -/
  fit : Bool
  deriving DecidableEq, Repr

/-- What a slot's configuration says: candidate, TIME, PRIO and the offset o_s. -/
structure SlotCfg where
  cand : Option Nat
  time : Bool
  prio : Nat
  ofs : Int
  deriving DecidableEq, Repr

/-- What selection compares at a change of configuration (R155). -/
structure SelCfg where
  mode : Nat
  pbo : Nat
  revert : Bool
  wtr : Nat
  slots : List SlotCfg
  deriving DecidableEq, Repr

/-- A learned model (R178): the published coefficients and the samples of the fit. -/
structure Model where
  valid : Bool
  restored : Bool
  /-- a, 2^-56 units -/
  a : Int
  /-- b, 1e-22 per second -/
  b : Int
  /-- c, 1e-15 per kelvin -/
  c : Int
  /-- θ0, θ_min, θ_max, 0.01 degC -/
  th0 : Int
  thMin : Int
  thMax : Int
  /-- rounds learned -/
  learned : Nat
  /-- samples of the fit, newest first: (round of the centre × 2, sum of y_out and sum of θ over the interval, weight in
  samples) -/
  samples : List (Nat × Int × Int × Nat)
  /-- learning is fenced until MODEL_RESET (R195) -/
  fenced : Bool
  /-- the interval in progress: rounds, sum of y_out, sum of θ, spoiled -/
  cnt : Nat
  sumY : Int
  sumT : Int
  bad : Bool
  deriving DecidableEq, Repr

/-- Selection of one domain (chapter 05). -/
structure Sel where
  /-- SEL_SLOT -/
  slot : Nat
  /-- SEL_VALID -/
  valid : Bool
  /-- SEL_SRC: 0 automatic, 1 manual, 2 forced, 3 none -/
  src : Nat
  bridging : Bool
  wtrRun : Bool
  wtrLeft : Nat
  /-- the automatic choice that the WTR count belongs to -/
  wtrSlot : Option Nat
  /-- reference rank -/
  rank : Nat
  steering : Bool
  /-- the mode the domain ran in the previous round -/
  mode : Nat
  /-- an ensemble is running -/
  ens : Bool
  /-- x_ref (x_ens), 2^-8 fine units -/
  xref : Int
  /-- its change in this round (R172) -/
  dxref : Int
  /-- a reference was held in the previous round -/
  had : Bool
  /-- x_ref of the last rounds with a reference: (round, x_ref), newest first -/
  hist : List (Nat × Int)
  /-- build-out -/
  bo : Int
  /-- what bridged rounds left between the selected slot's measured phase and its bridged one (R135) -/
  brg : Int
  realign : Bool
  /-- manual and forced requests -/
  manual : Option Nat
  forced : Option Nat
  /-- selection frozen by PX1608 fencing -/
  fenced : Bool
  /-- LAST_SWITCH -/
  lastSwitch : Word
  /-- the next round is treated as an exit from HOLDOVER (1, R157), or follows castling (2) -/
  rejoin : Nat
  /-- DOM_SEL_MISMATCH or DOM_WEIGHT_SUM: selection, weights and build-out stay for a round (R163) -/
  hold : Bool
  /-- DOM_ENS_ECC_UNCORR: the ensemble restarts (R163) -/
  ensRestart : Bool
  /-- a swap changed the mode or the selected slot: handled as a switch (R155) -/
  reconf : Bool
  /-- a selection has been made since reset (R161) -/
  ever : Bool
  /-- the configuration of the last round that ran (R155, R157) -/
  seen : Option SelCfg
  /-- slots 0 to 7 -/
  slots : Table DSlot
  deriving DecidableEq, Repr

/-- One timing domain. -/
structure Dom where
  state : DState
  safe : Bool
  frozen : Bool
  forcedHo : Bool
  /-- the forced holdover was set by PX1608 fencing -/
  fencedHo : Bool
  /-- FORCE_HOLDOVER took effect at this boundary -/
  sel : Sel
  /-- feedback phase x_fb; 0 in a time domain (R231) -/
  xfb : Int
  /-- index state of the feedback events, and what the fitted line lacks to the domain's phase -/
  fbTrack : Option Track
  fbBase : Int
  /-- phase of the feedback against its nominal, its change in the last round, and the slope of its line per round -/
  xraw : Int
  dx : Int
  slope : Int
  /-- consecutive rounds in which x_fb was extrapolated -/
  fbLost : Nat
  /-- consecutive rounds with the feedback frequency off by more than 1 ppm -/
  fbOff : Nat
  /-- the feedback synthesiser followed -/
  fbSyn : Nat
  /-- x_fb is to be re-anchored so that e = 0 -/
  reanchor : Bool
  /-- the loop is open under DOM_FB_LOSS or DOM_FB_RANGE -/
  open_ : Bool
  /-- e, 2^-8 fine units -/
  err : Int
  /-- integrator, 2^-80 units -/
  i : Int
  /-- feed-forward of the follower form -/
  ff : Int
  yloop : Int
  yout : Int
  /-- coefficient words in use -/
  kp : Word
  ki : Word
  clampSign : Int
  sluClamp : Bool
  pullClamp : Bool
  /-- sluice position: segment, rounds left, remainder -/
  seg : Nat
  left : Nat
  acc : Nat
  /-- e of the rounds since the last change of state, newest first, at most 8,001 (R260) -/
  eHist : List Int
  /-- consecutive rounds of the lock and unlock criteria -/
  lockCnt : Nat
  unlockCnt : Nat
  /-- y_out of the rounds since the last entry to ACQUIRE, newest first -/
  yHist : List Int
  /-- holdover value and temperature at entry, rounds since entry -/
  ye : Int
  thE : Int
  hoRounds : Nat
  /-- HOLDOVER has been entered since reset: HO_ELAPSED runs -/
  hoSince : Bool
  model : Model
  qlOut : Nat
  /-- an F reaction waits for the next boundary: the identity of its record -/
  safePend : Option Nat
  /-- y_out of the previous round is staged again (DOM_LOOP_MISMATCH) -/
  restage : Bool
  deriving DecidableEq, Repr

/-! ### Synthesisers and outputs (chapter 07) -/

/-- Synthesiser states (R206). -/
inductive SynState where
  | off | cal | settling | locked | unlocked | failed | fenced
  deriving DecidableEq, Repr

/-- A frequency plan (R196, R202, R203). -/
structure Plan where
  refSrc : Nat
  refFreq : Nat
  /-- N_NOM, 48 fractional bits -/
  nNom : Nat
  fbDiv : Nat
  num : Nat
  den : Nat
  epochDiv : Nat
  deriving DecidableEq, Repr

/-- A spread profile (R208): the triangle's depth in units of 0.01 %, its rate in kHz, and the instant of its zero
crossing, in fine units. -/
structure Spread where
  centre : Bool
  depth : Nat
  rate : Nat
  since : Int
  deriving DecidableEq, Repr

/-- One synthesiser. -/
structure Syn where
  state : SynState
  /-- LOCK_DET -/
  lockDet : Bool
  /-- rounds that it has been LOCKED, at most 8,000 (R341) -/
  lockedFor : Nat
  ssActive : Bool
  ssBlocked : Bool
  assignHeld : Bool
  followAligned : Bool
  planErr : Bool
  /-- MODE_EFF: 0 OFF, 1 FREE, 2 STEERED -/
  mode : Nat
  /-- DOM_EFF -/
  dom : Nat
  band : Nat
  /-- the plan in effect -/
  plan : Plan
  /-- the word in effect -/
  word : Nat
  /-- the word the board staged in the ending round -/
  staged : Option Nat
  /-- y of the last word, 2^-56 units -/
  y : Int
  yComp : Int
  /-- FOLLOW_ERR, ps -/
  followErr : Int
  /-- follower phase difference of the last round, 2^-8 fine units -/
  followPh : Int
  /-- integrator of the follower, 2^-80 units -/
  followI : Int
  /-- consecutive rounds with FOLLOW_ERR above 1 ns -/
  followBad : Nat
  /-- outputs are squelched until FOLLOW_ALIGNED returns (SYN_FOLLOW_RANGE) -/
  followHold : Bool
  /-- rounds left of the 2 ms search or of the 10 ms wait for lock -/
  left : Nat
  /-- groups of a DIV_SYNC whose epoch has not passed -/
  sync : Option Nat
  /-- groups of a DIV_SYNC that a trigger issues at this boundary -/
  syncTrg : Option Nat
  /-- calibrated instants of the last round's feedback stamps, oldest first -/
  fb : List Int
  /-- the 64-bit count of the feedback divider's rising edges, and the coarse count of the last one (R230) -/
  edges : Nat
  edgeAt : Option Nat
  /-- the counts of the first and the last of the last round's feedback stamps -/
  fbEdge : Option (Nat × Nat)
  /-- feedback phase against the nominal, 2^-8 fine units, and its index state -/
  fbX : Int
  fbTrack : Option Track
  /-- stamps of the epochs of the last rounds, newest first, at most 1,280 (R203, R316) -/
  epochs : List Int
  /-- the index of an epoch among the feedback events, modulo EPOCH_DIV (R203, R204) -/
  epochOfs : Int
  /-- the spread profile that runs, and the boundary at which it began (R208) -/
  ss : Option Spread
  deriving DecidableEq, Repr

/-- Output states (R213). -/
inductive OState where
  | off | wait | run | squelched | safe | fenced
  deriving DecidableEq, Repr

/-- The settings an output runs with. -/
structure OutCfg where
  syn : Nat
  src : Nat
  format : Nat
  pre : Nat
  div : Nat
  coarse : Nat
  fine : Nat
  deriving DecidableEq, Repr

/-- One output channel. -/
structure Out where
  state : OState
  /-- held at the levels of R30 -/
  held : Bool
  /-- both balls at high impedance (OFF_STATE) -/
  hiz : Bool
  /-- waits for its start epoch (WAIT under R213, or a restart of R215) -/
  starting : Bool
  epochAligned : Bool
  cfgErr : Nat
  /-- a move to another synthesiser is in progress, with the settings it ends in -/
  move : Option OutCfg
  verifyBusy : Bool
  /-- idle rounds left of the VERIFY -/
  verifyLeft : Nat
  /-- largest difference so far, ps with 8 fractional bits -/
  verifyMax : Nat
  verifyResult : Nat
  driverOk : Bool
  /-- OUT_DRIVER has reported since the output last started -/
  driverBad : Bool
  /-- PATH_DLY, ps with 8 fractional bits -/
  pathDly : Int
  verifyErr : Nat
  /-- the settings in effect -/
  cfg : OutCfg
  /-- it waits for the epoch of a DIV_SYNC (R216) -/
  sync : Bool
  /-- it restarted at the present boundary (R218) -/
  hit : Bool
  /-- the boundary at which its start was ordered, fine units; the next epoch 1 µs after it is the start (R213, R215) -/
  armed : Int
  /-- it started in the ending round: its epoch is the first one from this instant on -/
  startFrom : Option Int
  /-- the epoch time t_e of its last start, fine units (R205) -/
  te : Option Int
  /-- the last PPS edge at the ball, 2^-8 fine units, and its vernier in ps, where the epoch time is known (R243) -/
  ppsAt : Option Int
  vernier : Option Nat
  deriving DecidableEq, Repr

/-! ### Time of day (chapter 08) -/

/-- A labelled or unlabelled pulse of a PPS candidate (R235). -/
structure Pulse where
  /-- T at its calibrated stamp, 2^-8 fine units -/
  t : Int
  /-- TAI seconds -/
  label : Option Nat
  deriving DecidableEq, Repr

/-- One time domain. T is kept in units of 2^-24 ns × 1/5 (2^-8 fine units). -/
structure TimeDom where
  /-- T at the last round boundary, 2^-8 fine units -/
  t : Int
  stepped : Bool
  valid : Bool
  srcOk : Bool
  inLeap : Bool
  fbPlanErr : Bool
  /-- the round-timer count of the boundary of TOD_BND -/
  cnt : Nat
  /-- STEP_LAST, ns -/
  stepLast : Int
  /-- TIME_EPOCH -/
  epoch : Nat
  /-- T at which IN_LEAP ends -/
  leapEnd : Int
  /-- T at the feedback edges, modulo their period: the steps since the last anchor -/
  base : Int
  /-- LEAP.ARM as the board read it last -/
  armed : Bool
  /-- the last pulses of the candidate, newest first, at most 8 -/
  pulses : List Pulse
  /-- a label received for the next pulse -/
  nextLabel : Option Nat
  /-- an AUTO_STEP acts at the next boundary -/
  autoStep : Bool
  /-- VALID stays 0 until DISABLE and ENABLE (PX1608 fencing) -/
  fenced : Bool
  /-- T re-anchors at the first feedback edge after the count `edgeFrom` of the divider -/
  anchor : Bool
  edgeFrom : Nat
  /-- the scale has been anchored since reset and runs -/
  runs : Bool
  /-- the count of the feedback divider and the index of the event at the last stamp that both know (R230) -/
  edges : Option (Nat × Int)
  /-- VALID in the ending round -/
  wasValid : Bool
  /-- T at the end of the pulse in progress -/
  ppsEnd : Int
  /-- T before which no pulse starts (R244) -/
  ppsFrom : Int
  /-- pulses emitted -/
  pps : Nat
  /-- the last whole second of T at which the domain was LOCKED (R348) -/
  lockedSec : Nat
  /-- the line of this round is extrapolated (R252); the slope of the last line; what T lacks to it since -/
  extrap : Bool
  line : Int
  lag : Int
  deriving DecidableEq, Repr

/-- A posted capture (R247). -/
structure Capture where
  /-- T, 2^-16 ns -/
  t : Int
  seq : Nat
  dom : Nat
  overwrite : Bool
  novalid : Bool
  /-- the post has not been read -/
  unread : Bool
  deriving DecidableEq, Repr

/-- The registers of a trigger as the board read them at the start of the round (R24, R246). -/
structure TrgRead where
  /-- TRG_CFG -/
  cfg : Word
  /-- the instant, in units of T -/
  instant : Int
  /-- PERIOD, seconds -/
  period : Nat
  deriving DecidableEq, Repr

/-- The TIME unit: triggers and captures keep their instants in direct controls. -/
structure TimeUnit where
  doms : Table TimeDom
  caps : Table Capture
  /-- UART_RX -/
  uart : Table Word
  /-- the triggers as the board last read them -/
  trgs : Table TrgRead
  /-- triggers that fire at the next boundary: number and LATE (R246) -/
  fire : List (Nat × Bool)
  /-- direct controls that the device itself has written in this round: its update wins (R242, R246) -/
  dev : List Nat
  deriving DecidableEq, Repr

/-! ### Vilcia link (chapter 09) -/

/-- Link states (R263). -/
inductive LState where
  | off | idle | sending | dnu | safeIdle
  deriving DecidableEq, Repr

/-- The content of a frame that the board stages (R257 to R261). -/
structure Content where
  version : Nat
  flags : Nat
  src : Nat
  dstate : Nat
  ql : Nat
  /-- UTC_OFS and LEAP as the board read them, whether the leap was armed then, and IN_LEAP -/
  utc : Word
  leap : Word
  armed : Bool
  inLeap : Bool
  loop : Nat
  freqOfs : Nat
  hoSec : Nat
  tlv : List Nat
  deriving DecidableEq, Repr

/-- The scale that a link's ticks kept until a step, a TIME_REARM or an ENABLE of its domain (R265). -/
structure OldScale where
  /-- T at the boundary of the change, on that scale -/
  t : Int
  grid : Nat
  tick : Int
  valid : Bool
  /-- the tick that still fell on it has been sent -/
  sent : Bool
  deriving DecidableEq, Repr

/-- One link. -/
structure Link where
  state : LState
  cfgErr : Nat
  dnuLeft : Nat
  /-- a valid host area is in effect (HOST_OK) -/
  hostOk : Bool
  /-- at least 1,024 idles were sent since the first character -/
  idled : Bool
  /-- MARK_OFS in effect, 2^-16 ns -/
  markOfs : Nat
  /-- phase of the character grid: T of a character boundary, modulo 8 ns, 2^-16 ns -/
  grid : Nat
  lastSeq : Nat
  lastQl : Nat
  lastState : Nat
  /-- number of the last tick sent: T of the tick / 125 us -/
  tick : Int
  /-- content staged at the last boundary, and the one before it -/
  content : Content
  prevContent : Content
  /-- frames are withheld (R272) -/
  withhold : Bool
  /-- payload and CRC of the last frame sent -/
  frame : List Nat
  /-- the domain whose T the character grid is kept on -/
  dom : Nat
  /-- the scale before a change of T at the last boundary -/
  old : Option OldScale
  /-- the last frame may still be in flight: LAST_TX before it, and its QL was 15 (R272) -/
  flight : Option ((Nat × Nat × Nat) × Bool)
  /-- the code groups of the last frame on the line, the first character first, bit `a` most significant (R254, R255) -/
  line : List Nat
  /-- running disparity before that frame, positive (R254) -/
  rdFrom : Bool
  /-- running disparity after it, and T of the end of it, 2^-16 ns; `none` before the first frame -/
  rd : Bool
  lineEnd : Option Int
  deriving DecidableEq, Repr

/-! ### Board (chapter 10) -/

/-- Board states (R304). -/
inductive BState where
  | noBook | running | activating
  deriving DecidableEq, Repr

/-- Book store states (R293). -/
inductive BookState where
  | empty | loading | loaded | verifying | verified | refused | activating | installed
  deriving DecidableEq, Repr

/-- What a book's header and tables say (R289 to R291). -/
structure Book where
  id : Nat
  ver : Nat
  proto : Nat
  secVer : Nat
  layout : Nat
  varMask : Nat
  v3Max : Nat
  pairMask : Nat
  /-- key slot that its signature block names -/
  slot : Nat
  /-- LEN_V of variants 0 to 3 -/
  lens : List Nat
  /-- spare table, pairs 0 to 14: permitted cells, SERVES, MEAS -/
  spare : List (Nat × Nat × Nat)
  /-- layout table: first and last shared word, page of the owner -/
  owners : List (Nat × Nat × Nat)
  /-- entry addresses of pairs 0 to 14, by variant -/
  entries : List (List Nat)
  deriving DecidableEq, Repr

/-- Cell states (R298). -/
inductive CState where
  | scheduled | spare | copying | testing | fenced
  deriving DecidableEq, Repr

/-- One physical cell (R274, R279, R306). -/
structure Cell where
  state : CState
  /-- logical cell 0 to 29; 31 none -/
  logical : Nat
  katOk : Bool
  testResult : Nat
  lastCause : Nat
  /-- rounds left of a test -/
  testLeft : Nat
  /-- X, A, Q, E and P registers by register code, and the codes of those that hold a poisoned value (R281) -/
  regs : Table Nat
  poison : List Nat
  imem : Table Nat
  dmem : Table Nat
  deriving DecidableEq, Repr

/-- A replacement in progress (R299). -/
structure Repl where
  spare : Nat
  logical : Nat
  /-- the spare is COPYING -/
  copying : Bool
  /-- the cell that leaves, with what follows: 0 SPARE, 1 TESTING -/
  leaving : Option (Nat × Nat)
  deriving DecidableEq, Repr

/-- The board and its loader. -/
structure Board where
  state : BState
  varNow : Nat
  varReq : Nat
  essOver : Bool
  v3Forced : Bool
  overrunLast : Bool
  actLeft : Nat
  actWarm : Bool
  /-- an accepted ACTIVATE begins at the next boundary -/
  actPend : Bool
  bookState : BookState
  verifyCode : Nat
  verifyOfs : Nat
  warmOk : Bool
  /-- the book in effect and the stored book once read -/
  run : Book
  stored : Book
  storedRead : Bool
  /-- the words of the store -/
  store : Table Nat
  expect : Nat
  loadLen : Nat
  fromFlash : Bool
  barLast : Nat
  temposLast : Nat
  temposMin : Nat
  /-- the round in progress will overrun; the tempos that it holds -/
  late : Bool
  tempos : Nat
  cells : Table Cell
  shared : Table Nat
  /-- what the groups closed in the round in progress have written to the staging ports, by port -/
  staging : Table Nat
  /-- replacements in progress, oldest first -/
  repl : List Repl
  /-- a cell under test, and the other twin's logical cell, replaced and tested next when that test passes
  (CELL_TWIN_REPEAT) -/
  twinNext : Option (Nat × Nat)
  faultCell : Nat
  faultBit : Nat
  /-- twin mismatches of the last 64 rounds: (pair, rounds ago) -/
  mism : List (Nat × Nat)
  /-- rounds since the last scrub of the store -/
  scrub : Nat
  deriving DecidableEq, Repr

/-! ### Pair operation (chapter 11) -/

/-- Roles (R33, R323). -/
inductive Role where
  | solo | active | standby | syncing
  deriving DecidableEq, Repr

/-- A DOMAIN item (R316). -/
structure DomItem where
  /-- the eleven words of R316 that carry fields, by offset / 4 (22 words) -/
  words : List Nat
  deriving DecidableEq, Repr

/-- A Relnan mirror record once parsed (R314 to R317). -/
structure Record where
  major : Nat
  minor : Nat
  rseq : Nat
  /-- sender's extended coarse count -/
  coarse : Nat
  /-- byte 16 -/
  flags : Nat
  digest : Nat
  uid : Nat
  doms : List (Nat × DomItem)
  qual : Option Nat
  /-- PCLK item words -/
  pclk : Option (List Nat)
  svc : Option (List Nat)
  /-- GRANT entries, eight words each -/
  grants : List (List Nat)
  deriving DecidableEq, Repr

/-- A block of 64b/66b coding on a lane of the castling link, before the scrambler (R310). -/
inductive LaneBlock where
  /-- block type 0x78 -/
  | start
  | data (bytes : List Nat)
  /-- terminate block, with the bytes that it still carries -/
  | stop (bytes : List Nat)
  | idle
  deriving DecidableEq, Repr


/-- The pair logic. -/
structure PairUnit where
  role : Role
  bound : Bool
  boundUid : Nat
  pref : Bool
  linkUp : Bool
  aligned : Bool
  /-- ALIGNED has been 1 since the last role change -/
  wasAligned : Bool
  cfgMatch : Bool
  verOk : Bool
  lost : Bool
  castleBusy : Bool
  castleReq : Bool
  /-- rounds for which CASTLE_REQ or TAKEN is still sent -/
  reqLeft : Nat
  takenLeft : Nat
  cause : Nat
  lastCause : Nat
  syncStep : Nat
  syncRounds : Nat
  partnerMinor : Nat
  partnerMajor : Nat
  partnerRole : Nat
  partnerRoom : Nat
  partnerFlags : Nat
  recLast : Nat
  recSize : Nat
  rseq : Nat
  /-- rounds since a record arrived; rounds of the QUIET allowance left -/
  silent : Nat
  quietLeft : Nat
  /-- the next record carries QUIET -/
  quiet : Bool
  /-- one-way offset of the two coarse counts by the last ordered set and record, for `offC` -/
  offOne : Int
  /-- a record that has fully arrived and is not yet applied -/
  inbox : Option Record
  /-- the inbox record was discarded only for its version: its role and identity -/
  verOnly : Option (Nat × Nat)
  applied : Option Record
  /-- off in fine units; raw values of the last 1,024 rounds, newest first: (rounds ago, value) -/
  off : Int
  raws : List (Nat × Int)
  offC : Option Int
  /-- extended coarse count of the arrival of the partner's last ordered set, and the count it carried -/
  arrival : Nat
  partnerCount : Nat
  /-- marked partner-clock stamps of the last round: newest, number -/
  pclkLast : Int
  pclkCount : Nat
  pclkSilent : Nat
  alignErr : Int
  /-- |e| of each aligned domain over its last 1,024 aligned rounds, newest first, 2^-8 fine units -/
  errs : Table (List Nat)
  alignGood : Nat
  /-- the longest runs of rounds in which |e| of one aligned domain exceeded 50 ps (at most 8) and 1 ns (at most 64) -/
  alignBad : Nat
  rangeBad : Nat
  /-- a cause that arose while CASTLE_BUSY was 1 (R325), 0 for none -/
  waiting : Nat
  /-- no record is sent for the round (R335) -/
  skip : Bool
  /-- fenced in PX1608 compatibility mode until UNBIND -/
  fenced : Bool
  /-- next context of the grant rotation, and the pass number -/
  grantNext : Nat
  grantPass : Nat
  /-- the last record sent -/
  sent : List Nat
  /-- the blocks that the two lanes carried after the present boundary, between idle blocks (R310) -/
  lanes : List (List LaneBlock)
  /-- the data bytes of the ordered set that lane 0 carried at the present boundary (R312) -/
  ordered : Nat
  deriving DecidableEq, Repr

/-! ### Time service and ports (chapter 12) -/

/-- A unicast grant context (R345, R317). -/
structure Grant where
  port : Nat
  ipv6 : Bool
  addr : List Nat
  /-- granted logInterMessagePeriods, signed: Sync, Announce, Delay_Resp -/
  sync : Int
  announce : Int
  dresp : Int
  /-- granted message types: bit 0 Sync, bit 1 Announce, bit 2 Delay_Resp -/
  mask : Nat
  secs : Nat
  seqSync : Nat
  seqAnn : Nat
  /-- changed since it was last sent to the partner: order of the change -/
  changed : Option Nat
  deriving DecidableEq, Repr

/-- Client states (R363). -/
inductive PtpState where
  | disabled | listening | uncalibrated | slave | faulty
  deriving DecidableEq, Repr

/-- One client instance (R346, R347). -/
structure Client where
  state : PtpState
  cfgErr : Bool
  parent : Option Announce
  /-- Announces heard in the present window, by master entry -/
  heard : List Announce
  exchanges : Nat
  /-- the last Sync received: t1 (when known), t2, correction, sequence number -/
  syncSeq : Nat
  t1 : Option Int
  t2 : Int
  cfSync : Int
  /-- the exchange whose Delay_Req is out: (sequence, t1, t2, cf, t3) -/
  req : Option (Nat × Option Int × Int × Int × Int)
  reqSeq : Nat
  /-- exchanges of the interval, in order of arrival: (ofs, rt) -/
  done : List (Int × Int)
  /-- full_offset, 2^-16 ns -/
  fullOfs : Int
  /-- samples since it became SLAVE -/
  samples : Nat
  deriving DecidableEq, Repr

/-- An NTP response header (R348, R349). -/
structure NtpReply where
  leap : Nat
  version : Nat
  stratum : Nat
  poll : Nat
  precision : Nat
  rootDelay : Nat
  rootDispersion : Nat
  refId : Nat
  reference : Nat
  origin : Nat
  receive : Nat
  transmit : Nat
  deriving DecidableEq, Repr

/-- A frame handed to the line, in the fields the spec gives it. -/
inductive Frame where
  | idle
  /-- a host frame (R340) -/
  | host (bytes : List Nat)
  | ntp (r : NtpReply)
  /-- kiss-o'-death RATE (R353) -/
  | rate (origin : Nat)
  /-- NTS NAK with its Unique Identifier (R350) -/
  | ntsNak (uid : List Nat)
  /-- NTS response: header, Unique Identifier, sealed cookies -/
  | nts (r : NtpReply) (uid : List Nat) (authenticator : List Nat)
  /-- Sync; `none` origin: two-step -/
  | sync (seq : Nat) (origin : Option Int)
  | followUp (seq : Nat) (origin : Int)
  | delayResp (seq : Nat) (receive : Int) (correction : Int)
  | delayReq (seq : Nat)
  | announce (seq : Nat) (a : Announce)
  /-- grant or denial of a unicast request -/
  | grant (kind : Nat) (log : Int) (duration : Nat)
  /-- answer to an ARP request or a Neighbor Solicitation -/
  | arp (target : List Nat)
  /-- gratuitous ARP, or unsolicited Neighbor Advertisement with the override flag -/
  | gratuitous (target : List Nat)
  /-- ESMC PDU: SSM, event flag, enhanced code -/
  | esmc (ssm : Nat) (event : Bool) (enhanced : Option Nat)
  deriving DecidableEq, Repr

/-- A response in the launch queue (R349). -/
structure Response where
  port : Nat
  /-- T of the launch, 2^-16 ns -/
  launch : Int
  frame : Frame
  nts : Bool
  deriving DecidableEq, Repr

/-- One master-key slot. -/
structure KeySlot where
  valid : Bool
  id : Nat
  key : List Nat
  deriving DecidableEq, Repr

/-- One packet port. -/
structure Port where
  linkUp : Bool
  cdrLock : Bool
  fecLock : Bool
  txHeld : Bool
  svcStop : Bool
  cfgErr : Bool
  txLat : Nat
  rxLat : Nat
  /-- SSM carried by the last ESMC PDU -/
  ssm : Nat
  /-- sequence numbers of the multicast master: Sync, Announce -/
  seqSync : Nat
  seqAnn : Nat
  /-- the last frame handed to the line, and the tag control of the 802.1Q tag it carries (R336) -/
  lastTx : Frame
  lastTag : Option Nat
  deriving DecidableEq, Repr

/-- Controller states (R363). -/
inductive CtrlState where
  | boot | run | restart | failed
  deriving DecidableEq, Repr

/-- The time service engine, its controller and the host frame queues. -/
structure Service where
  ctrl : CtrlState
  fwVersion : Nat
  keyCur : Nat
  keys : Table KeySlot
  keyData : Table Word
  keyMismatch : Bool
  /-- the cap in effect, the cap chosen for the next round, and the units used in this round -/
  cap : Nat
  capNext : Nat
  used : Nat
  /-- C was reached in the last round, and in this one -/
  capActive : Bool
  capHit : Bool
  fwBusy : Bool
  fwResult : Nat
  fwAddr : Nat
  /-- rounds left of a controller restart -/
  restartLeft : Nat
  /-- rounds since each of the last watchdog restarts, at most three -/
  restarts : List Nat
  grants : Table (Option Grant)
  /-- order number of the next grant change -/
  change : Nat
  /-- contexts freed since they were last sent, with the order number of that change (R317) -/
  freed : List (Nat × Nat)
  clients : Table Client
  buckets : Table Nat
  /-- rounds since the last decay -/
  decay : Nat
  /-- which draw of the random key of the bucket hash is in use (R353) -/
  hashKey : Nat
  /-- the nonce count of R351 -/
  nonce : Nat
  launch : List Response
  ports : Table Port
  /-- received host frames, oldest first: (port, bytes); words of the head already read -/
  rx : List (Nat × List Nat)
  rxWord : Nat
  /-- the host frame being written: (length, port, bytes, overflowed) -/
  tx : Option (Nat × Nat × List Nat × Bool)
  /-- host frames waiting for the line -/
  txQueue : List (Nat × List Nat)
  /-- rounds until the next gratuitous ARP, with how many remain -/
  garp : Option (Nat × Nat)
  deriving DecidableEq, Repr

/-! ### Host interface and system (chapter 14) -/

/-- A pending SWAP_SETS at an instant (R398). -/
structure TimedSwap where
  dom : Nat
  utc : Bool
  sec : Nat
  ns : Nat
  deriving DecidableEq, Repr

/-- SYS, the host interface and its replies. -/
structure SysUnit where
  /-- SWAP_PEND without timing; the exchange falls at the next boundary -/
  swapPend : Bool
  /-- a swap requested by a trigger for the next boundary -/
  swapTrg : Bool
  timed : Option TimedSwap
  swapLate : Bool
  copyPend : Bool
  /-- low bits of the round count of the last swap -/
  lastSwap : Nat
  flashSize : Nat
  pcieUp : Bool
  pcieSpeed : Nat
  pcieWidth : Nat
  /-- MSI Enable of the configuration space -/
  msiEnable : Bool
  /-- PERST_N holds the endpoint in reset -/
  perst : Bool
  /-- Subsystem Vendor ID and Subsystem ID have been read (step 2 of start-up) -/
  cfgReady : Bool
  /-- the staged write of each master -/
  staged : Table (Option Staged)
  /-- SPI STATUS: applied, CRC failed, length failed, frames applied -/
  spiApplied : Bool
  spiCrc : Bool
  spiLen : Bool
  spiCount : Nat
  /-- what the last read command of each master returned -/
  reply : List Word
  /-- what the SPI target answered to the last frame -/
  miso : List Nat
  /-- what the last configuration request was answered: 0 Retry Status, 1 completed -/
  cfgReply : Nat
  deriving DecidableEq, Repr

/-! ### Reset values of the units -/

def CmdStatus.zero : CmdStatus := ⟨0, 0, 0, false⟩

/-- A page after reset. -/
def Page.zero : Page :=
  { evtIrqEn := false, event := 0, eventEn := 0, fault := 0, lockCfg := false, lockCmd := false, lockResult := 0,
    lockProp := none, seq := 0, args := [], status := [], pend := none, prop := none, holds := [] }

def Interp.zero : Interp :=
  { c1 := 0, c2 := 0, accepted := false, excluded := false, jumps := 0, blame := 0, lin := [], linNew := none,
    hist := [], histRounds := 0 }

def Chan.zero : Chan :=
  { state := .off, a := .zero, b := .zero, stamping := false, arming := false, prediv := 0, lastStop := none, seq := 0,
    missed := 0, lost := false, queue := [], drainSeq := 0, peak := 0, last := none, drained := [], took := [], incomplete := false, spoil := false,
    startRounds := 0, test := none, testResult := 0, skew := 0, warm := 0 }

def Osc.zero : Osc :=
  { sclkLock := false, running := false, bnd := 0, count := 0, wakeSwap := false, tb := .crystal, tbSrc := 0,
    tbTerm := 0, histA := [], histB := [], tbSince := 0, tbGood := 0, tbSilent := 0, ageNow := 0,
    lastTestFail := false, lastTestChan := 0 }

def TimResult.zero : TimResult := ⟨0, 0, 0, 0, 0, 0, 0, 0, 0⟩

def Tim.zero : Tim :=
  { state := .idle, done := false, nextSeq := 0, gates := [], stops := [], trackA := none,
    trackB := none, sinceSample := 0, ring := [], levels := [], anchored := false, due := [],
    result := .zero }

def CtxStat.zero : CtxStat := ⟨0, 0, 0, 0, 0, 0⟩

def Period.zero : Period :=
  { rounds := 0, start := 0, secs := 0, aligned := false, short := false, varSeen := 0, ctr := [], ctx := [] }

def Bank.zero : Bank := { seq := 0, rounds := 0, flags := 0, start := 0, ctr := [], ctx := [], lost := [] }

def Harvest.zero : Harvest :=
  { p1 := .zero, p60 := .zero, p900 := .zero, pday := .zero, b1 := .zero, b60 := .zero, b900 := .zero, bday := .zero,
    alignAct := false, alignCfg := false, timeWait := false, realign := 0, origin := 0, arch := none, archSlot := 0, archSeq := 0, archResumed := false }

def Temp.zero : Temp := { value := 0, disagree := false, apart := 0, hot := 0 }

def Vmon.zero : Vmon := { now := 0, low := 0 }

/-- HEADROOM reads 255 after reset (BUD_STATUS 0x00FF_0000, R378). -/
def Budget.zero : Budget :=
  { pstate := .run, level := 0, next := 0, lt := 0, ls := 0, le := 0, cool := 0, calm := 0, above := 0, under := 0,
    sagSeen := false, pAvg := 0, pEst := 0, th := 0, thSensor := 0, temps := [], vmon := [], fCell := 0, fLow := 0,
    throttle := false, floorV3 := false, atFloor := false, throttled := false, roundLow := 0, sagHist := [],
    headroom := 255 }

def Irq.zero : Irq :=
  { latched := [], fatalC := false, fatalG := false, insvcC := [], insvcG := [], moved := [], waits := [],
    reqC := false, reqG := false, lineC := false, lineG := false, msi := 0 }

def FaultUnit.zero : FaultUnit :=
  { compat := false, captures := [], queue := [], queueOvf := false, rseq := 0, slots := [], safeCause := [],
    forceEn := false, bist := false, bistResult := 0, bistType := 0, sweepStep := 0, sweepRounds := 0, sweepLen := 0, sweepCmd := 0,
    sweepRetry := 0,
    cycleRounds := 0, cycleSecs := 0, sweepBusy := false, sweepDone := false, sweepWait := false, sweepLate := false,
    sweepRestart := false }

def NvUnit.zero : NvUnit :=
  { mem := [], bad := [], ctrDue := false, bp := 0, lastUncorr := 0, ctrVal := 0, ctrResult := 0, holdupOk := true,
    holdupSeen := false, readOnly := false, logSlot := 0, logSeq := 0, logResumed := false, logWait := [],
    flight := [] }

def SecUnit.zero : SecUnit :=
  { lc := .blank, svcEntries := 0, keys := [], pubs := [], bookMin := 0, fwMin := 0, dbgSet := 2, copyA := true,
    copyB := true, fuseBad := false, katBad := false, tap := .bypass, fwVerify := 0, fwSlot := 0, fwVer := 0, fwSecVer := 0,
    ownUid := 0, skews := [], paths := [], txLats := [], rxLats := [], binding := none }

def Boot.zero : Boot :=
  { released := true, probe := 0, started := false, wake := false, resetPin := true, cause := 0, copy := 0, flags := 0, bookA := 0, bookB := 0,
    fwA := 0, fwB := 0, imgAddr := 0, reportAddr := 0, agePreset := 0, subsys := 0, book := 0, bookVerify := 0, fw := 0,
    fwVerify := 0, image := 1, applied := 0, refused := 0, firstRefused := none, dropped := 0, deferred := [],
    restored := [], pairWait := none, probed := false, powerDue := false, reported := false, imgNext := 0, imgCount := 0, imgWait := 0, imgCmd := none,
    bookTry := 0, fwTry := 0 }

def TdevPt.zero : TdevPt := { cnt := 0, sum := 0, bad := false, s1 := none, s2 := none, p := 0, n := 0, fail := false }

def MtiePt.zero : MtiePt := { span := none, bad := false, valid := false, fail := false, good := 0, peak := 0 }

/-- QL_RANK reads 15 from reset (REF_STATUS 0x0000_F000). -/
def Qual.zero : Qual :=
  { state := .disabled, reason := 0, failSet := 0, suspect := false, frozen := false, fenced := false, keep := false, soak := 0,
    guard := 0, fresh := false, lastEv := none, sinceEv := 0, actFail := false, actRun := 0, skipped := false, quiet := 0, pktIdx := 0, pktErr := 0,
    restart := false, fwGate := [],
    fwRounds := 0, fwBad := false, freq := 0, fwValid := false, fwFail := false, fwPosted := false, fwPosted1 := false,
    fwNew := false, freqHeld := 0, phFail := false, phLast := 0, maskSince := 0, maskK := 0, tdev := [], mtie := [],
    majFail := false, majAgree := 0, majVoters := 0, disagree := false, rank := 15, qlRx := 0, qlEnh := false,
    qlTimeout := false, esmcAge := 40000, relock := false, samples := [], errs := [], track := none }

def DSlot.zero : DSlot :=
  { p := none, dp := 0, bridged := false, eligible := false, w := 0, t := 0, parked := false, sig := .zero,
    sigSince := 0, qs := [], age := 0, calm := 0, terrs := [], sus := false, fit := false }

def Model.zero : Model :=
  { valid := false, restored := false, a := 0, b := 0, c := 0, th0 := 0, thMin := 0, thMax := 0, learned := 0,
    samples := [], fenced := false, cnt := 0, sumY := 0, sumT := 0, bad := false }

/-- SEL_STATUS resets to 0x0F00_00B0: SEL_SRC 3 (none) and rank 15 (R161). -/
def Sel.zero : Sel :=
  { slot := 0, valid := false, src := 3, bridging := false, wtrRun := false, wtrLeft := 0, wtrSlot := none,
    rank := 15, steering := false, mode := 0, ens := false, xref := 0, dxref := 0, had := false, hist := [], bo := 0,
    brg := 0, seen := none,
    realign := false, manual := none, forced := none, fenced := false, lastSwitch := 0, rejoin := 0, hold := false,
    ensRestart := false, reconf := false, ever := false, slots := [] }

/-- DOM_STATUS resets to 0x0000_F000: QL_OUT 15 (R192). -/
def Dom.zero : Dom :=
  { state := .init, safe := false, frozen := false, forcedHo := false, fencedHo := false, sel := .zero, xfb := 0, fbTrack := none, fbBase := 0, xraw := 0, dx := 0, slope := 0,
    fbLost := 0, fbOff := 0, fbSyn := 0, reanchor := false, open_ := false, err := 0, i := 0, ff := 0,
    yloop := 0, yout := 0, kp := 0, ki := 0, clampSign := 0, sluClamp := false, pullClamp := false, seg := 0, left := 0,
    acc := 0, eHist := [], lockCnt := 0, unlockCnt := 0, yHist := [], ye := 0, thE := 0, hoRounds := 0, hoSince := false, model := .zero, qlOut := 15,
    safePend := none, restage := false }

/-- The plan of the Reset column of R222. -/
def Plan.zero : Plan :=
  { refSrc := 0, refFreq := 0, nNom := 0xFA * 2 ^ 48, fbDiv := 0x30D4, num := 0x4E2, den := 1, epochDiv := 1 }

def Syn.zero : Syn :=
  { state := .off, lockDet := false, lockedFor := 0, ssActive := false, ssBlocked := false, assignHeld := false, followAligned := false,
    planErr := false, mode := 0, dom := 0, band := 0, plan := .zero, word := 0, staged := none, y := 0, yComp := 0,
    followErr := 0, followPh := 0, followI := 0, followBad := 0, followHold := false, left := 0, sync := none,
    syncTrg := none, fb := [], edges := 0, edgeAt := none, fbEdge := none,
    fbX := 0, fbTrack := none, epochs := [], epochOfs := 0, ss := none }

def OutCfg.zero : OutCfg := { syn := 0, src := 0, format := 0, pre := 2, div := 1, coarse := 0, fine := 0 }

/-- Every output leaves reset held in OFF (R213, R483). -/
def Out.zero : Out :=
  { state := .off, held := true, hiz := false, starting := false, epochAligned := false,
    cfgErr := 0, move := none, verifyBusy := false, verifyLeft := 0,
    verifyMax := 0, verifyResult := 0, driverOk := false, driverBad := false, pathDly := 0, verifyErr := 0, cfg := .zero,
    sync := false, hit := false, armed := 0, startFrom := none, te := none,
    ppsAt := none, vernier := none }

def TimeDom.zero : TimeDom :=
  { t := 0, stepped := false, valid := false, srcOk := false, inLeap := false, fbPlanErr := false, cnt := 0,
    stepLast := 0, epoch := 0, leapEnd := 0, base := 0, armed := false, pulses := [], nextLabel := none, autoStep := false, fenced := false,
    anchor := false, edgeFrom := 0, runs := false, edges := none, wasValid := false, ppsEnd := 0, ppsFrom := 0, pps := 0, lockedSec := 0, extrap := false, line := 0, lag := 0 }

def Capture.zero : Capture := { t := 0, seq := 0, dom := 0, overwrite := false, novalid := false, unread := false }

def TrgRead.zero : TrgRead := { cfg := 0, instant := 0, period := 0 }

def TimeUnit.zero : TimeUnit := { doms := [], caps := [], uart := [], trgs := [], fire := [], dev := [] }

def Content.zero : Content :=
  { version := 0, flags := 0, src := 0, dstate := 0, ql := 0, utc := 0, leap := 0, armed := false, inLeap := false, loop := 0, freqOfs := 0,
    hoSec := 0, tlv := [] }

def Link.zero : Link :=
  { state := .off, cfgErr := 0, dnuLeft := 0, hostOk := false, idled := false, markOfs := 0, grid := 0, lastSeq := 0, lastQl := 0,
    lastState := 0, tick := -1, content := .zero, prevContent := .zero, withhold := false, frame := [],
    dom := 0, old := none, flight := none, line := [], rdFrom := false, rd := false, lineEnd := none }

def Book.zero : Book :=
  { id := 0, ver := 0, proto := 0, secVer := 0, layout := 0, varMask := 0, v3Max := 0, pairMask := 0, slot := 0, lens := [],
    spare := [], owners := [], entries := [] }

/-- Cell c after reset: C[0] to C[29] scheduled as logical c, C[30] and C[31] spares (R273, R306). -/
def Cell.zero (c : Nat) : Cell :=
  { state := if c < 30 then .scheduled else .spare, logical := if c < 30 then c else 31, katOk := true, testResult := 0,
    lastCause := 0, testLeft := 0, regs := [], poison := [], imem := [], dmem := [] }

def Board.zero : Board :=
  { state := .noBook, varNow := 0, varReq := 0, essOver := false, v3Forced := false, overrunLast := false, actLeft := 0,
    actWarm := false, actPend := false, bookState := .empty, verifyCode := 0, verifyOfs := 0, warmOk := false,
    run := .zero, stored := .zero, storedRead := false, store := [], expect := 0, loadLen := 0, fromFlash := false,
    barLast := 0, temposLast := 0, temposMin := 0x1FFFF, late := false, tempos := 0, cells := [], shared := [], staging := [], repl := [], twinNext := none, faultCell := 0,
    faultBit := 0, mism := [], scrub := 0 }

def PairUnit.zero : PairUnit :=
  { role := .solo, bound := false, boundUid := 0, pref := false, linkUp := false, aligned := false, wasAligned := false,
    cfgMatch := false, verOk := false, lost := false, castleBusy := false, castleReq := false, reqLeft := 0,
    takenLeft := 0, cause := 0, lastCause := 0, syncStep := 0, syncRounds := 0, partnerMinor := 0, partnerMajor := 0,
    partnerRole := 0, partnerRoom := 0, partnerFlags := 0, recLast := 0, recSize := 0, rseq := 0, silent := 0,
    quietLeft := 0, quiet := false, offOne := 0, inbox := none, verOnly := none, applied := none, off := 0, raws := [], offC := none,
    arrival := 0, partnerCount := 0, pclkLast := 0, pclkCount := 0, pclkSilent := 0, alignErr := 0, errs := [],
    alignGood := 0, alignBad := 0, rangeBad := 0, waiting := 0, skip := false, fenced := false, grantNext := 0, grantPass := 0, sent := [], lanes := [],
    ordered := 0 }

def Client.zero : Client :=
  { state := .disabled, cfgErr := false, parent := none, heard := [], exchanges := 0, syncSeq := 0, t1 := none, t2 := 0,
    cfSync := 0, req := none, reqSeq := 0, done := [], fullOfs := 0, samples := 0 }

def KeySlot.zero : KeySlot := { valid := false, id := 0, key := [] }

def Port.zero : Port :=
  { linkUp := false, cdrLock := false, fecLock := false, txHeld := false, svcStop := false, cfgErr := false,
    txLat := 0, rxLat := 0, ssm := 0, seqSync := 0, seqAnn := 0, lastTx := .idle, lastTag := none }

def Service.zero : Service :=
  { ctrl := .boot, fwVersion := 0, keyCur := 0, keys := [], keyData := [], keyMismatch := false, cap := 0, capNext := 0,
    used := 0, capActive := false, capHit := false, fwBusy := false, fwResult := 0, fwAddr := 0, restartLeft := 0, restarts := [],
    grants := [], change := 0, freed := [], clients := [], buckets := [], decay := 0, hashKey := 0, nonce := 0, launch := [], ports := [], rx := [],
    rxWord := 0, tx := none, txQueue := [], garp := none }

def SysUnit.zero : SysUnit :=
  { swapPend := false, swapTrg := false, timed := none, swapLate := false, copyPend := false, lastSwap := 0,
    flashSize := 0, pcieUp := false, pcieSpeed := 0, pcieWidth := 0, msiEnable := false, perst := false,
    cfgReady := false, staged := [], spiApplied := false, spiCrc := false, spiLen := false, spiCount := 0,
    reply := [], miso := [], cfgReply := 0 }

/-! ### The machine -/

/-- The PX3240: its queue of waiting commands, its registers and its units. -/
structure State where
  /-- commands that wait, first in, first out -/
  pending : List Instr
  /-- serial number of the next free value (the model's own) -/
  free : Nat
  sys : SysUnit
  /-- active configuration sets: keyed by the register address of the active copy (R388) -/
  active : Table Word
  /-- shadow configuration sets, under the same keys -/
  shadow : Table Word
  /-- direct controls, keyed by register address -/
  direct : Table Word
  /-- counters since their last latch, keyed by register address of the LO word -/
  ctr : Table Nat
  pages : Table Page
  osc : Osc
  chans : Table Chan
  tims : Table Tim
  harvest : Harvest
  quals : Table Qual
  doms : Table Dom
  syns : Table Syn
  outs : Table Out
  time : TimeUnit
  links : Table Link
  board : Board
  pair : PairUnit
  svc : Service
  budget : Budget
  irq : Irq
  fault : FaultUnit
  nv : NvUnit
  sec : SecUnit
  boot : Boot
  deriving DecidableEq, Repr

/-- The machine right after power-on reset: every register at its Reset value, no page, channel or unit listed. -/
def State.reset : State :=
  { pending := [], free := 0, sys := .zero, active := [], shadow := [], direct := [], ctr := [], pages := [],
    osc := .zero, chans := [], tims := [], harvest := .zero, quals := [], doms := [], syns := [], outs := [],
    time := .zero, links := [], board := .zero, pair := .zero, svc := .zero, budget := .zero, irq := .zero,
    fault := .zero, nv := .zero, sec := .zero, boot := .zero }

end Sys2Proof.Machine
end

