-- ==== Sys2Proof/Machine/RegMap.lean ====
section
/-! DEFINITION. The register map: the pages (R390), the configuration registers (RWS) and the direct controls (RW)
with their implemented bits, their lockable bits (LCK) and their Reset values, and the access to both. -/

namespace Sys2Proof.Machine

/-- The blocks of the page map (R390). -/
inductive PageKind where
  | sys | sched | budget | fault | irq | nv | sec | pair | harvest | time | vlink | tsvc | ports | osc
  | stamp | qual | dom | syn | out | tim | cell | none
  deriving DecidableEq, Repr

/-- The block of page `p` (R390). -/
def pageKind (p : Nat) : PageKind :=
  if p = 0x00 then .sys else if p = 0x01 then .sched else if p = 0x02 then .budget else if p = 0x03 then .fault
  else if p = 0x04 then .irq else if p = 0x05 then .nv else if p = 0x06 then .sec else if p = 0x07 then .pair
  else if p = 0x08 then .harvest else if p = 0x09 then .time else if p = 0x0A then .vlink else if p = 0x0B then .tsvc
  else if p = 0x0C then .ports else if p = 0x0D then .osc
  else if 0x10 ≤ p ∧ p ≤ 0x3F then .stamp else if 0x40 ≤ p ∧ p ≤ 0x67 then .qual
  else if 0x70 ≤ p ∧ p ≤ 0x7B then .dom else if 0x80 ≤ p ∧ p ≤ 0x87 then .syn
  else if 0x90 ≤ p ∧ p ≤ 0xB7 then .out else if p = 0xC0 ∨ p = 0xC1 then .tim
  else if p = 0xC8 then .cell else .none

/-- The first page of a block: INSTANCE is the distance from it (R389). -/
def PageKind.base : PageKind → Nat
  | .sys => 0x00 | .sched => 0x01 | .budget => 0x02 | .fault => 0x03 | .irq => 0x04 | .nv => 0x05 | .sec => 0x06
  | .pair => 0x07 | .harvest => 0x08 | .time => 0x09 | .vlink => 0x0A | .tsvc => 0x0B | .ports => 0x0C | .osc => 0x0D
  | .stamp => 0x10 | .qual => 0x40 | .dom => 0x70 | .syn => 0x80 | .out => 0x90 | .tim => 0xC0 | .cell => 0xC8
  | .none => 0xFF

/-- TYPE of PAGE_ID (R390). -/
def PageKind.type : PageKind → Nat
  | .sys => 0x01 | .sched => 0x02 | .budget => 0x03 | .fault => 0x04 | .irq => 0x05 | .nv => 0x06 | .sec => 0x07
  | .pair => 0x08 | .harvest => 0x09 | .time => 0x0A | .vlink => 0x0B | .tsvc => 0x0C | .ports => 0x0D | .osc => 0x0E
  | .stamp => 0x10 | .qual => 0x11 | .dom => 0x12 | .syn => 0x13 | .out => 0x14 | .tim => 0x15 | .cell => 0x16
  | .none => 0

/-- ISLAND of PAGE_STATUS (R389, R390): 0 stamp, 1 synthesiser, 2 board, 3 service, 4 host, 5 always-on. -/
def PageKind.island : PageKind → Nat
  | .osc | .stamp => 0
  | .syn | .out | .vlink => 1
  | .sched | .pair | .harvest | .time | .qual | .dom | .tim | .cell => 2
  | .tsvc | .ports => 3
  | .sys | .irq => 4
  | .budget | .fault | .nv | .sec => 5
  | .none => 0

/-- A register's implemented bits, its LCK bits and its Reset value. -/
structure Reg where
  mask : Nat
  lck : Nat
  reset : Nat
  deriving DecidableEq, Repr

/-- A location that is reserved or unimplemented (R391). -/
def Reg.none : Reg := ⟨0, 0, 0⟩
/-- A register without lockable bits. -/
def Reg.rw (mask reset : Nat) : Reg := ⟨mask, 0, reset⟩
/-- A register coded LCK. -/
def Reg.lk (mask reset : Nat) : Reg := ⟨mask, mask, reset⟩

/-- All 32 bits. -/
def full : Nat := 0xFFFFFFFF

/-- The configuration register of a page at shadow offset 0x500 + `x`; `inst` is the page's instance. -/
def cfgReg (k : PageKind) (inst x : Nat) : Reg :=
  match k with
  | .osc => if x = 0 then .rw 0x33 0x20 else if x = 4 then .rw full 0 else .none
  | .stamp =>
    if x = 0 then .rw 0x103 0x100 else if x = 4 then .rw 0xFFFFFF 0 else if x = 8 then .rw full 0 else .none
  | .tim =>
    if x < 0x300 then
      if x % 16 = 0 then .rw 0x0F3F3F1F 0 else if x % 16 = 4 then .rw 0x3FFFFFFF 0 else .rw full 0
    else .none
  | .harvest => if x = 0 then .rw 3 0 else if x = 4 then .rw 0x7FFFF 0 else if x = 8 then .rw 0xFFFF 0 else .none
  | .qual =>
    if x = 0 then .rw 0x00F0037F 0x00F00000 else if x = 4 then .rw (if inst < 32 then 0x1D7 else 0) 0
    else if x = 8 then .rw full 0 else if x = 0xC then .rw 0xFFFF 1 else if x = 0x10 then .rw 0xFFFF00FF 2 else if x = 0x14 then .rw 0xFFFF 0x50
    else if x = 0x18 then .rw full 0 else if x = 0x1C then .rw 0xFFFFF 0x1F3F else if x = 0x20 then .rw 0xFFFF 0xFFFF
    else if x = 0x24 then .rw full 0 else if x = 0x28 then .rw 0x0F0FFFFF 0x03001F3F
    else if 0x30 ≤ x ∧ x < 0x70 then .rw 0xFFFFFF1F 0 else .none
  | .dom =>
    if x = 0 then .rw 0x8000177F 0x4F else if x = 4 ∨ x = 8 then .rw 0x7F03FFFF 0
    else if x = 0xC then .rw 0xFFFF 0x3E8 else if x = 0x10 then .rw full 0x00500064
    else if x = 0x14 then .rw full 0 else if x = 0x18 then .rw 0x00FFFF1F 0x001F4017
    else if x = 0x1C then .rw full 0x15180 else if x = 0x20 then .rw 0xFFF31F1F 0x5A00120D
    else if x = 0x24 then .rw 0xFF 2 else if x = 0x28 then .rw 0xFFF 0xFFF else if x = 0x2C then .rw 0x8007FFFF 0
    else if 0x80 ≤ x ∧ x < 0x100 then
      if x % 8 = 0 then .rw 0xFFFFFF (if x = 0x80 then 0x989680 else 0) else .rw full 0
    else if x = 0x100 then .rw 0x1F37 0x310 else if x = 0x104 then .rw 0xFFFF 0x960
    else if x = 0x108 then .rw 0xFFFF 0x3E8 else if x = 0x10C then .rw 0x03F1FF1F 0xA400
    else if x = 0x110 then .rw 0xFFFFF 0x1F3F else if x = 0x114 then .rw 0x3FFFF 0x20000
    else if x = 0x118 then .rw 0xFFFFFF 0x64 else if x = 0x11C then .rw 0xFFFFFF 0x3E8
    else if x = 0x120 then .rw full 0x60000
    else if 0x140 ≤ x ∧ x < 0x180 then (if x % 8 = 0 then .rw 0xF33F 0 else .rw full 0) else .none
  | .syn =>
    if x = 0 then .lk 0x3F3 0 else if x = 4 then .lk full 0 else if x = 8 then .lk 0x7FF 0xFA
    else if x = 0xC then .lk full 0 else if x = 0x10 then .lk 0xFFFF 0 else if x = 0x14 then .lk 0xFFFFFF 0x30D4
    else if x = 0x18 then .lk full 0x4E2 else if x = 0x1C then .lk 0xFFFF 1 else if x = 0x20 then .lk 0xFFFF 1
    else if x = 0x24 then .rw full 0 else if x = 0x28 then .rw 0x0FF0FFF3 0 else .none
  | .out =>
    if x = 0 then .lk 0x07FF1777 0 else if x = 4 then .lk full 0 else if x = 8 then .lk 0x7FFFFF 0
    else if x = 0xC then (if inst % 8 = 0 then .lk 3 0 else .none) else .none
  | .time =>
    if x < 0x40 then
      if x % 16 = 0 then .lk 0x33DF 0x2000 else if x % 16 = 4 then .lk full 0
      else if x % 16 = 8 then .rw 0xFFFFFF 0xF4240 else .rw 0xFFFF 0x3E8
    else if x < 0x50 then .rw 0x737 0x405 else .none
  | .vlink =>
    if x < 0x20 then .lk 0x73F7 0x3000 else if x = 0x20 then .lk 0xFF 0
    else if 0x80 ≤ x ∧ x < 0x100 then .lk full 0 else .none
  | .cell => if x = 0 then .rw 0xF1 0x41 else .none
  | .pair => if x = 0 then .lk 0x7FFFF 0x7084F else if x = 4 then .lk 0xFFFF 0 else .none
  | .tsvc =>
    if x = 0 then .lk 0xFFFF0F1F 0x012C0000 else if x = 4 then .rw 0xFFFF0F0F 0xE2040201 else if x = 8 then .rw full 0
    else if x = 0xC then .rw full 0x3A98000F else if x = 0x10 then .rw 0xFF1F03 0x200B03
    else if x = 0x14 then .rw 0x7F 0x10 else if x = 0x18 then .rw full 0x07070606
    else if x = 0x1C then .rw full 0xF8A0968C else if x = 0x20 then .rw full 0xF8F8F8F8
    else if x = 0x24 then .rw full 0xFFF8F8F8 else if 0x30 ≤ x ∧ x < 0x50 then .lk full 0
    else if 0x50 ≤ x ∧ x < 0x60 then .lk 0xFFFFFF3F 0x80002C00
    else if 0x60 ≤ x ∧ x < 0xA0 then
      if x % 16 = 0 then .lk 0x3FFFFF7F 0x38102C00 else if x % 16 = 4 then .rw full 0
      else if x % 16 = 8 then .rw 0x3FFFF 0x8080 else .none
    else if 0xA0 ≤ x ∧ x < 0x120 then .lk full 0 else .none
  | .ports =>
    if x < 0x200 then
      if x % 0x80 = 0 then .lk 0x1FF 0x82 else if x % 0x80 = 4 then .lk full 0 else if x % 0x80 = 8 then .lk 0xFFFF 0
      else if x % 0x80 = 0xC then .lk 0xEFFF 0 else if x % 0x80 = 0x10 ∨ x % 0x80 = 0x14 then .rw 0xFFFFFF 0
      else if x % 0x80 = 0x18 then .rw 0x7F 0 else if x % 0x80 = 0x1C then .lk 0xF0F 0
      else if x % 0x80 = 0x20 ∨ x % 0x80 = 0x24 then .lk full 0
      else if 0x30 ≤ x % 0x80 ∧ x % 0x80 < 0x50 then .lk full 0 else .none
    else .none
  | .budget =>
    if x = 0 then .lk 0x0FFFFFFF 0x03827A73 else if x = 4 then .lk 0x03FF03FF 0x02C102D7
    else if x = 8 then .rw 0x1FFFFF 0xD0000 else if x = 0xC then .lk 0xFF03 0x800
    else if x = 0x10 ∨ x = 0x14 then .rw 0xFFFF 0x5DC else if x = 0x18 then .rw 0xFFFF 0x2EE
    else if x = 0x1C then .rw 0xFFFF 0xC8 else .none
  | .irq =>
    if 4 ≤ x ∧ x < 0x400 then .lk 0x1F (if x = 4 then 0xF else if x = 8 then 0xC else 0) else .none
  | .fault => if x = 0 then .lk 0x103FF 0x10032 else if x = 4 then .lk 0x3FF 0x258 else .none
  | .nv =>
    if x = 0 then .lk 7 0 else if x = 4 then .lk 0x7FFFF 0 else if x = 8 then .lk 0xFFFF 0
    else if x = 0xC then .lk 0x7FFFF 0 else .none
  | .sys | .sched | .sec | .none => .none

/-- The direct control of a page at offset `o` (0x914 to 0x9FF), where it is a plain register. -/
def dirReg (k : PageKind) (o : Nat) : Reg :=
  match k with
  | .sys =>
    if o = 0x914 then .rw full 0 else if o = 0x918 then .rw 0xFFFF 0 else if o = 0x91C then .rw 0x3FFFFFFF 0
    else if o = 0x920 then .rw full 0 else .none
  | .stamp => if o = 0x914 then .rw 0x7F 0 else .none
  | .osc => if o = 0x914 then .lk 0xFFFFFF 0 else .none
  | .tim => if o = 0x914 then .rw 0xFF3F 0 else .none
  | .harvest => if o = 0x914 then .rw 0xFFFFFF 0 else .none
  | .qual => if o = 0x914 then .rw 0xF 0xF else if o = 0x918 then .rw 0xF 0 else .none
  | .dom => if o = 0x914 then .rw 0xFFFF 0 else .none
  | .time =>
    if o = 0x914 then .rw full 0 else if o = 0x918 then .rw 0xFFFF 0 else if o = 0x91C then .rw 0x3FFFFFFF 0
    else if 0x920 ≤ o ∧ o < 0x9A0 then
      if o % 16 = 0 then .rw full 0 else if o % 16 = 4 then .rw full 0 else if o % 16 = 8 then .rw 0x3FFFFFFF 0
      else .rw 0x01FF077F 0
    else if 0x9A0 ≤ o ∧ o < 0x9B0 then .rw 0x333F 0
    else if 0x9B0 ≤ o ∧ o < 0x9C0 then .lk 0x1FFFF 0 else if 0x9C0 ≤ o ∧ o < 0x9D0 then .lk 0x3FFFFFF 0 else .none
  | .pair => if o = 0x914 ∨ o = 0x918 then .lk full 0 else .none
  | .tsvc => if o = 0x914 then .rw full 0 else .none
  | .irq =>
    if o = 0x91C ∨ o = 0x920 then .rw 0xF 0 else if o = 0x924 then .rw 0x113 0
    else if o = 0x928 then .rw 0xFFFF 0x1F4 else .none
  | .fault => if o = 0x918 then .rw 0x1FF 0 else .none
  | .nv =>
    if o = 0x914 then .rw 0xFFF 0 else if o = 0x918 then .rw 0x7FFFF 0 else if o = 0x91C ∨ o = 0x920 then .rw full 0
    else .none
  | .sec => if 0x920 ≤ o ∧ o < 0x980 then .rw full 0 else .none
  | _ => .none

/-- The configuration register whose active copy lies at register address `a`. -/
def cfgAt (a : Nat) : Reg :=
  let p := a / 0x1000
  let o := a % 0x1000
  if 0x100 ≤ o ∧ o < 0x500 ∧ o % 4 = 0 then cfgReg (pageKind p) (p - (pageKind p).base) (o - 0x100) else .none

/-- The Reset value of the configuration register at `a`. -/
def cfgReset (a : Nat) : Word := word (cfgAt a).reset

/-- The direct control at register address `a`. -/
def dirAt (a : Nat) : Reg := dirReg (pageKind (a / 0x1000)) (a % 0x1000)

/-- The Reset value of the direct control at `a`. -/
def dirReset (a : Nat) : Word := word (dirAt a).reset

/-- The value in effect of the configuration register of page `p` at shadow offset 0x500 + `x` (R388). -/
def State.cfg (s : State) (p x : Nat) : Word := tget cfgReset s.active (p * 0x1000 + 0x100 + x)

/-- Its shadow copy. -/
def State.shadowCfg (s : State) (p x : Nat) : Word := tget cfgReset s.shadow (p * 0x1000 + 0x100 + x)

/-- A direct control by page and offset. -/
def State.dir (s : State) (p o : Nat) : Word := tget dirReset s.direct (p * 0x1000 + o)

/-- Write a direct control; bits without a field stay 0 (R13). -/
def State.setDir (s : State) (p o : Nat) (v : Word) : State :=
  { s with direct := tput dirReset s.direct (p * 0x1000 + o) (v &&& word (dirAt (p * 0x1000 + o)).mask) }

/-- A write to a shadow copy: only implemented bits are written (R13, R397). -/
def State.setShadow (s : State) (a : Nat) (v : Word) : State :=
  { s with shadow := tput cfgReset s.shadow a (v &&& word (cfgAt a).mask) }

/-! ### Pages and units by index -/

def State.page (s : State) (p : Nat) : Page := tget (fun _ => Page.zero) s.pages p
def State.setPage (s : State) (p : Nat) (f : Page → Page) : State :=
  { s with pages := tmod (fun _ => Page.zero) s.pages p f }

def State.chan (s : State) (i : Nat) : Chan := tget (fun _ => Chan.zero) s.chans i
def State.setChan (s : State) (i : Nat) (f : Chan → Chan) : State :=
  { s with chans := tmod (fun _ => Chan.zero) s.chans i f }

def State.tim (s : State) (i : Nat) : Tim := tget (fun _ => Tim.zero) s.tims i
def State.setTim (s : State) (i : Nat) (f : Tim → Tim) : State :=
  { s with tims := tmod (fun _ => Tim.zero) s.tims i f }

def State.qual (s : State) (i : Nat) : Qual := tget (fun _ => Qual.zero) s.quals i
def State.setQual (s : State) (i : Nat) (f : Qual → Qual) : State :=
  { s with quals := tmod (fun _ => Qual.zero) s.quals i f }

def State.dom (s : State) (d : Nat) : Dom := tget (fun _ => Dom.zero) s.doms d
def State.setDom (s : State) (d : Nat) (f : Dom → Dom) : State :=
  { s with doms := tmod (fun _ => Dom.zero) s.doms d f }

def State.syn (s : State) (k : Nat) : Syn := tget (fun _ => Syn.zero) s.syns k
def State.setSyn (s : State) (k : Nat) (f : Syn → Syn) : State :=
  { s with syns := tmod (fun _ => Syn.zero) s.syns k f }

def State.out (s : State) (j : Nat) : Out := tget (fun _ => Out.zero) s.outs j
def State.setOut (s : State) (j : Nat) (f : Out → Out) : State :=
  { s with outs := tmod (fun _ => Out.zero) s.outs j f }

def State.link (s : State) (v : Nat) : Link := tget (fun _ => Link.zero) s.links v
def State.setLink (s : State) (v : Nat) (f : Link → Link) : State :=
  { s with links := tmod (fun _ => Link.zero) s.links v f }

def State.tdom (s : State) (t : Nat) : TimeDom := tget (fun _ => TimeDom.zero) s.time.doms t
def State.setTdom (s : State) (t : Nat) (f : TimeDom → TimeDom) : State :=
  { s with time := { s.time with doms := tmod (fun _ => TimeDom.zero) s.time.doms t f } }

def State.cell (s : State) (c : Nat) : Cell := tget Cell.zero s.board.cells c
def State.setCell (s : State) (c : Nat) (f : Cell → Cell) : State :=
  { s with board := { s.board with cells := tmod Cell.zero s.board.cells c f } }

def State.client (s : State) (i : Nat) : Client := tget (fun _ => Client.zero) s.svc.clients i
def State.setClient (s : State) (i : Nat) (f : Client → Client) : State :=
  { s with svc := { s.svc with clients := tmod (fun _ => Client.zero) s.svc.clients i f } }

def State.port (s : State) (p : Nat) : Port := tget (fun _ => Port.zero) s.svc.ports p
def State.setPort (s : State) (p : Nat) (f : Port → Port) : State :=
  { s with svc := { s.svc with ports := tmod (fun _ => Port.zero) s.svc.ports p f } }

def State.grant (s : State) (c : Nat) : Option Grant := tget (fun _ => none) s.svc.grants c
def State.setGrant (s : State) (c : Nat) (g : Option Grant) : State :=
  { s with svc := { s.svc with grants := tput (fun _ => none) s.svc.grants c g } }

/-! ### One unit as a whole -/

def State.setOsc (s : State) (f : Osc → Osc) : State := { s with osc := f s.osc }
def State.setHarvest (s : State) (f : Harvest → Harvest) : State := { s with harvest := f s.harvest }
def State.setBoard (s : State) (f : Board → Board) : State := { s with board := f s.board }
def State.setPair (s : State) (f : PairUnit → PairUnit) : State := { s with pair := f s.pair }
def State.setSvc (s : State) (f : Service → Service) : State := { s with svc := f s.svc }
def State.setBudget (s : State) (f : Budget → Budget) : State := { s with budget := f s.budget }
def State.setIrq (s : State) (f : Irq → Irq) : State := { s with irq := f s.irq }
def State.setNv (s : State) (f : NvUnit → NvUnit) : State := { s with nv := f s.nv }
def State.setSec (s : State) (f : SecUnit → SecUnit) : State := { s with sec := f s.sec }
def State.setBoot (s : State) (f : Boot → Boot) : State := { s with boot := f s.boot }
def State.setSys (s : State) (f : SysUnit → SysUnit) : State := { s with sys := f s.sys }
def State.setFault (s : State) (f : FaultUnit → FaultUnit) : State := { s with fault := f s.fault }

/-- The counter whose LO word lies at page `p`, offset `o`: its value since its last latch (R95). -/
def State.counter (s : State) (p o : Nat) : Nat := tget (fun _ => 0) s.ctr (p * 0x1000 + o)

/-- Add to a counter, modulo 2^64. -/
def State.addCtr (s : State) (p o n : Nat) : State :=
  { s with ctr := tput (fun _ => 0) s.ctr (p * 0x1000 + o) ((s.counter p o + n) % 2 ^ 64) }

/-- Count one event. -/
def State.bump (s : State) (p o : Nat) : State := s.addCtr p o 1

/-- Offset of CMD_REFUSALS on a page. -/
def PageKind.refusals : PageKind → Nat
  | .osc => 0 | .stamp => 0xA38 | .tim => 0xD00 | .harvest => 0xA10 | .qual => 0xA28 | .dom => 0xA30 | .syn => 0xA18
  | .out => 0xA20 | .time => 0xA58 | .vlink => 0xAC0 | .sched => 0xA38 | .cell => 0xA28 | .pair => 0xA28
  | .tsvc => 0xA80 | .ports => 0xB00 | .budget => 0xA20 | .sys => 0xA28 | .irq => 0xA30 | .fault => 0xA60
  | .nv => 0xA28 | .sec => 0xA18 | .none => 0

end Sys2Proof.Machine
end

