-- ==== Sys2Proof/Machine/BookCheck.lean ====
section
/-! DEFINITION. The opening-book container and the checks of the loader (R287, R289 to R294), and the check of a
signature block (R292, R473). -/

namespace Sys2Proof.Machine

/-- The word at byte offset `o` of a stored image. -/
def imgWord (st : Table Nat) (o : Nat) : Nat := tget (fun _ => 0) st (o / 4)

/-- The bytes `[0, n)` of a stored image. -/
def imgBytes (st : Table Nat) (n : Nat) : List Nat := (List.range n).map fun i => imgWord st i / 2 ^ (8 * (i % 4)) % 256

/-- Store words in a table from index `i` up. -/
def tableFrom (i : Nat) (ws : List Nat) : Table Nat := (ws.zipIdx i).filterMap fun p => if p.1 = 0 then none else some (p.2, p.1)

/-- Words at byte offset `o`, `n` of them. -/
def imgWords (st : Table Nat) (o n : Nat) : List Nat := (List.range n).map fun i => imgWord st (o + 4 * i)

/-- TOTAL_LEN, BOOK_ID and the rest of a header (R289 to R291), as a book in effect or stored shows them. -/
def headerBook (st : Table Nat) : Book :=
  { id := imgWord st 0x10, ver := imgWord st 0x14, proto := imgWord st 0x18, secVer := imgWord st 0x1C,
    layout := imgWord st 0x20, varMask := imgWord st 0x24 % 16, v3Max := nbits (imgWord st 0x24) 19 16,
    pairMask := imgWord st 0x28 % 2 ^ 15, slot := imgWord st (imgWord st 8 - 124) % 4, lens := (List.range 4).map fun v => imgWord st (0x40 + 0x30 * v) % 2 ^ 17,
    spare := [], owners := [], entries := [] }

/-! ### Signature block -/

/-- The state of a key slot when nothing has changed it: slot 0 is programmed at manufacture (R467). -/
def keyDefault (k : Nat) : KeyState := if k = 0 then .enabled else .empty

/-- The state of key slot `k`. -/
def State.keyState (s : State) (k : Nat) : KeyState := tget keyDefault s.sec.keys k

/-- The slot is ENABLED and accepted in the lifecycle state (R469, R473). -/
def State.slotOk (s : State) (k : Nat) : Bool := s.keyState k == .enabled && (s.sec.lc != .retired || k == 0)

/-- The public key of a slot. -/
def State.pubKey (s : State) (k : Nat) : List Word := tget (fun _ => []) s.sec.pubs k

/-- The signature block at byte offset `o` over the bytes before it: 0, or code 4 or 5 of R294. -/
def State.checkSignature (s : State) (st : Table Nat) (o : Nat) : Nat :=
  let blk := imgWords st o 32
  let slot := (blk[1]?).getD 0 % 4
  if (blk[0]?).getD 0 ≠ 0x53494742 ∨ (blk[1]?).getD 0 / 4 ≠ 0 ∨ (blk[2]?).getD 0 ≠ 0 ∨ (blk[3]?).getD 0 ≠ 0
      ∨ (blk.drop 28).any (· != 0) then 4
  else if s.slotOk slot = false then 5
  else if s.sec.katBad ∨ Config.signatureOk (imgBytes st o) ((blk.drop 4).take 24) ((s.pubKey slot).map BitVec.toNat) = false then 4
  else 0

/-- TARGET names this device: part 0x3240 and a stepping range that holds B1 (R6, R289). -/
def targetOk (w : Nat) : Bool := w / 65536 == 0x3240 && decide (nbits w 15 8 ≤ 0xB1) && decide (0xB1 ≤ w % 256)

/-! ### Sections -/

/-- One entry of the section table (R291). -/
structure Section where
  /-- byte offset of the entry -/
  at_ : Nat
  type : Nat
  pair : Nat
  keepEn : Bool
  res : Nat
  off : Nat
  len : Nat
  first : Nat
  last : Nat
  deriving DecidableEq, Repr

/-- Read the section table. -/
def sections (st : Table Nat) : List Section :=
  (List.range (imgWord st 0x2C % 65)).map fun i =>
    let o := imgWord st 0x30 + 16 * i
    { at_ := o, type := imgWord st o % 256, pair := nbits (imgWord st o) 15 8, keepEn := (imgWord st o).testBit 16,
      res := imgWord st o / 2 ^ 17, off := imgWord st (o + 4), len := imgWord st (o + 8),
      first := imgWord st (o + 12) % 65536, last := imgWord st (o + 12) / 65536 }

/-- Size limit and granule of a section type; none for an unknown type. -/
def Section.limit (x : Section) : Option (Nat × Nat) :=
  match x.type with
  | 1 => some (32768, 8)
  | 2 => some (8192, 4)
  | 3 => some (262144, 4)
  | 4 => some (120, 8)
  | 5 => some (2048, 8)
  | _ => none

/-- Bounds, type, target, size and KEEP range of one section; the image ends its sections at `stop`. -/
def Section.ok (x : Section) (stop : Nat) : Bool :=
  (match x.limit with
   | some (n, g) => decide (x.len ≤ n) && x.len % g == 0
   | none => false)
    && x.res == 0 && x.off % 16 == 0 && decide (0x100 ≤ x.off) && decide (x.off + x.len ≤ stop)
    && (if x.type = 1 ∨ x.type = 2 then decide (x.pair < 15) else x.pair == 0)
    && (!x.keepEn || ((x.type == 2 || x.type == 3) && decide (x.first ≤ x.last)
          && decide (x.last < if x.type = 2 then 2048 else 65536)))

/-- Two ranges of bytes overlap. -/
def overlap (a n b m : Nat) : Bool := decide (a < b + m) && decide (b < a + n) && n != 0 && m != 0

/-- The first section that overlaps the table or an earlier section, or repeats one that may stand only once. -/
def sectionClash (tab n : Nat) : List Section → List Section → Option Section
  | _, [] => none
  | seen, x :: r =>
    if overlap x.off x.len tab n || seen.any (fun y =>
        overlap x.off x.len y.off y.len || (x.type == y.type && x.pair == y.pair)) then some x
    else sectionClash tab n (x :: seen) r

/-- The section of a type and pair. -/
def findSection (l : List Section) (type pair : Nat) : Option Section := l.find? fun x => x.type == type && x.pair == pair

/-- The program of a pair. -/
def Section.program (st : Table Nat) (x : Section) : List CellIns :=
  (List.range (x.len / 8)).map fun k => cellIns (imgWord st (x.off + 8 * k) + imgWord st (x.off + 8 * k + 4) * 2 ^ 32)

/-! ### The checks of R287, in order -/

/-- A failed check: its code and the byte offset of the first defect. -/
abbrev Defect := Nat × Nat

/-- The first defect of a list of checks. -/
def firstDefect (l : List (Option Defect)) : Option Defect := l.findSome? id

/-- Fail with a code at an offset unless a condition holds. -/
def need (c : Bool) (code o : Nat) : Option Defect := if c then none else some (code, o)

/-- Item 1: header fields, length, target. -/
def checkHeader (st : Table Nat) (len : Nat) : Option Defect :=
  let w := imgWord st
  firstDefect
    [need (w 0 == 0x4F504E42) 1 0, need (w 4 == 0x01000001) 1 4,
     need (w 0x18 / 2 ^ 24 == 0) 1 0x18, need (w 0x28 / 2 ^ 15 == 0) 1 0x28,
     need (w 0x24 % 65536 / 16 == 0 && w 0x24 / 2 ^ 20 == 0) 1 0x24,
     need (w 0x34 == 0 && w 0x38 == 0 && w 0x3C == 0) 1 0x34,
     firstDefect ((List.range 4).map fun v =>
       let o := 0x40 + 0x30 * v
       if (w 0x24).testBit v then need (w (o + 0x24) / 65536 == 0 && w (o + 0x28) == 0 && w (o + 0x2C) == 0) 1 (o + 0x26)
       else need ((List.range 12).all fun i => w (o + 4 * i) == 0) 1 o),
     need (w 8 % 16 == 0 && decide (512 ≤ w 8) && decide (w 8 ≤ 1572864) && w 8 == len) 2 8,
     need (targetOk (w 0xC)) 3 0xC]

/-- Item 2: signature, slot and anti-rollback version. -/
def State.checkSigned (s : State) (st : Table Nat) : Option Defect :=
  let o := imgWord st 8 - 128
  let c := s.checkSignature st o
  firstDefect [if c = 0 then none else some (c, o), need (decide (s.sec.bookMin ≤ imgWord st 0x1C)) 6 0x1C]

/-- Item 3: the section table. -/
def checkSections (st : Table Nat) : Option Defect :=
  let n := imgWord st 0x2C
  let tab := imgWord st 0x30
  let stop := imgWord st 8 - 128
  firstDefect
    [need (decide (1 ≤ n) && decide (n ≤ 64)) 7 0x2C,
     need (tab % 16 == 0 && decide (0x100 ≤ tab) && decide (tab + 16 * n ≤ stop)) 7 0x30,
     firstDefect ((sections st).map fun x => need (x.ok stop) 7 x.at_),
     (sectionClash tab (16 * n) [] (sections st)).map fun x => (7, x.at_)]

/-- Item 4: every instruction of a program, at byte offset `o` of the image. -/
def checkProgram (prog : List CellIns) (o : Nat) : Option Defect :=
  firstDefect
    ((prog.zipIdx).map (fun p => firstDefect [need p.1.ok 8 (o + 8 * p.2), need p.1.addrOk 9 (o + 8 * p.2)])
      ++ [match nest (2 * prog.length + 2) prog with
          | some d => need (decide (d ≤ 4)) 8 o
          | none => some (9, o)])

/-- The pairs that a book uses. -/
def usedPairs (st : Table Nat) : List Nat := (List.range 15).filter fun p => (imgWord st 0x28).testBit p

/-- Entry address of pair `p` in variant `v` (R290). -/
def entryOf (st : Table Nat) (v p : Nat) : Nat :=
  let b := 0x40 + 0x30 * v + 8 + 2 * p
  imgWord st b / 2 ^ (8 * (b % 4)) % 65536

/-- Item 5: the length of every variant on every pair. -/
def checkLengths (st : Table Nat) : Option Defect :=
  firstDefect ((List.range 4).flatMap fun v =>
    if (imgWord st 0x24).testBit v then
      (usedPairs st).map fun p =>
        match findSection (sections st) 1 p with
        | none => none
        | some x =>
          let len := imgWord st (0x40 + 0x30 * v)
          need (codeLength ((x.program st).drop (entryOf st v p % 4096)) == some len && decide (len ≤ 87500)) 10 (0x40 + 0x30 * v)
    else [])

/-- Item 6: variants, DROP masks, entries, PAIR_MASK against the sections. -/
def checkVariants (st : Table Nat) : Option Defect :=
  let mask := imgWord st 0x24
  firstDefect
    ([need (mask.testBit 0 && mask.testBit 3) 11 0x24, need (decide (1 ≤ nbits mask 19 16) && decide (nbits mask 19 16 ≤ 12)) 11 0x24]
      ++ ((List.range 4).map fun v =>
        need (!mask.testBit v || imgWord st (0x44 + 0x30 * v) == ([0, 1, 3, 0xF][v]?).getD 0) 11 (0x44 + 0x30 * v))
      ++ ((List.range 4).flatMap fun v =>
        (usedPairs st).map fun p => need (!mask.testBit v || decide (entryOf st v p < 4096)) 11 (0x48 + 0x30 * v + 2 * p))
      ++ ((usedPairs st).map fun p => need (findSection (sections st) 1 p).isSome 12 0x28)
      ++ (sections st).map fun x => need (decide (2 < x.type) || (imgWord st 0x28).testBit x.pair) 12 x.at_)

/-- The spare table of a book (R291): permitted cells, SERVES, MEAS. -/
def spareTable (st : Table Nat) : List (Nat × Nat × Nat) :=
  match findSection (sections st) 4 0 with
  | none => []
  | some x => (List.range 15).map fun p =>
      let hi := imgWord st (x.off + 8 * p + 4)
      (imgWord st (x.off + 8 * p), hi % 4096, hi / 4096 % 2)

/-- The layout table of a book (R291): first and last shared word, page of the owner. -/
def layoutTable (st : Table Nat) : List (Nat × Nat × Nat) :=
  match findSection (sections st) 5 0 with
  | none => []
  | some x => (List.range (x.len / 8)).map fun k =>
      let r := imgWord st (x.off + 8 * k)
      (r % 65536, r / 65536, imgWord st (x.off + 8 * k + 4) % 256)

/-- The book that runs once it is activated: its header, spare table, layout table and entry addresses. -/
def runBook (st : Table Nat) : Book :=
  { headerBook st with
    spare := spareTable st, owners := layoutTable st
    entries := (List.range 4).map fun v => (List.range 15).map fun p => entryOf st v p % 4096 }

/-- The page that owns shared word `w` of the book. -/
def Book.owner (b : Book) (w : Nat) : Option Nat :=
  (b.owners.find? fun r => decide (r.1 ≤ w) && decide (w ≤ r.2.1)).map (·.2.2)

/-- Item 7: the spare table and the layout table. -/
def checkTables (st : Table Nat) : Option Defect :=
  firstDefect
    [match findSection (sections st) 4 0 with
     | none => some (13, imgWord st 0x30)
     | some x => firstDefect
         (need (x.len == 120) 13 x.at_ :: (List.range 15).map fun p => need (imgWord st (x.off + 8 * p + 4) / 2 ^ 13 == 0) 13 (x.off + 8 * p)),
     match findSection (sections st) 5 0 with
     | none => some (14, imgWord st 0x30)
     | some x => firstDefect ((List.range (x.len / 8)).map fun k =>
         let a := imgWord st (x.off + 8 * k)
         let b := imgWord st (x.off + 8 * k + 4)
         need (decide (a % 65536 ≤ a / 65536) && b / 256 == 0 && pageKind b != .none) 14 (x.off + 8 * k))]

/-- The verification of a stored book of `len` bytes (R287): the first defect, or none. -/
def State.verifyBook (s : State) (st : Table Nat) (len : Nat) : Option Defect :=
  firstDefect
    [checkHeader st len, s.checkSigned st, checkSections st,
     firstDefect ((sections st).map fun x => if x.type = 1 then checkProgram (x.program st) x.off else none),
     checkLengths st, checkVariants st, checkTables st]

end Sys2Proof.Machine
end

