-- ==== Sys2Proof/Machine/Flags.lean ====
section
/-! DEFINITION. The flags of a page (PAGE_EVENT, PAGE_FAULT), the instant of an event inside a round, the role, and the
bytes of the NV store: the smallest operations that every unit shares. -/

namespace Sys2Proof.Machine

/-- The code of a master (R383). -/
def masterCode : Master → Nat
  | .control => 0
  | .guardian => 1
  | .testPort => 2
  | .device => 3

/-- Set bit `b` of a page's PAGE_EVENT: an event latches whatever PAGE_EVENT_EN holds (R389). -/
def State.event (s : State) (p b : Nat) : State :=
  s.setPage p fun g => { g with event := g.event ||| word (2 ^ b) }

/-- Set an event when a condition holds. -/
def State.eventIf (c : Bool) (p b : Nat) (s : State) : State := if c then s.event p b else s

/-- Set bit `b` of a page's PAGE_FAULT (R389). -/
def State.faultBit (s : State) (p b : Nat) : State :=
  s.setPage p fun g => { g with fault := g.fault ||| word (2 ^ b) }

/-- EVENT_PEND of a page (R389). -/
def Page.eventPend (g : Page) : Bool := (g.event &&& g.eventEn) != 0

/-- Periods of one round (R21). -/
def roundLen : Nat := 156250

/-- The extended coarse count of an event inside the present round: no command fixes it, so it is the free value of
log entry 3; before the coarse count starts it is 0 (R41). -/
def State.instant (s : State) : Nat :=
  if s.osc.running then
    if s.osc.count = 0 then Config.instant s.free % (s.osc.bnd + 1) else s.osc.bnd + Config.instant s.free % roundLen
  else 0

/-- The next free value. -/
def State.nextFree (s : State) : State := { s with free := s.free + 1 }

/-- The role is STANDBY or SYNCING (R327). -/
def State.standby (s : State) : Bool := s.pair.role == .standby || s.pair.role == .syncing

/-- The device is in DORMANT (R368). -/
def State.dormant (s : State) : Bool := s.budget.pstate == .dormant

/-- Rounds run: the stamp clock has locked and no DORMANT, reset or BIST stops them. -/
def State.roundsRun (s : State) : Bool := s.boot.released && s.osc.running && !s.dormant && !s.fault.bist

/-- The board runs a book. -/
def State.boardRuns (s : State) : Bool := s.board.state == .running

/-- Domain `d` runs in variant `v` (R189, R285): in V3 only essential domains, the lowest-numbered V3_ESS_MAX of them. -/
def State.essential (s : State) (d : Nat) : Bool :=
  bit (s.cfg (0x70 + d) 0) 31 &&
    ((List.range d).filter fun e => bit (s.cfg (0x70 + e) 0) 31).length < s.board.run.v3Max

/-- The board runs, and the variant in effect does not freeze domain `d` (R157, R189, R296). -/
def State.domRuns (s : State) (d : Nat) : Bool := s.boardRuns && (s.board.varNow != 3 || s.essential d)

/-- The byte of the NV store at `a`; an unlisted byte reads 0 (R450). -/
def nvByte (m : List Host.Cell) (a : Nat) : BitVec 8 := tget (fun _ => (0 : BitVec 8)) m a

/-- Write one byte. -/
def setNvByte (m : List Host.Cell) (a : Nat) (v : BitVec 8) : List Host.Cell := tput (fun _ => (0 : BitVec 8)) m a v

/-- Rounds of 1 s. -/
def secondRounds : Nat := 8000

/-- The little-endian word at byte address `a` (R450). -/
def nvWord (m : List Host.Cell) (a : Nat) : Nat :=
  (nvByte m a).toNat + 256 * (nvByte m (a + 1)).toNat + 65536 * (nvByte m (a + 2)).toNat
    + 16777216 * (nvByte m (a + 3)).toNat

/-- Write one whole word (R454). -/
def setNvWord (m : List Host.Cell) (a v : Nat) : List Host.Cell :=
  setNvByte (setNvByte (setNvByte (setNvByte m a (BitVec.ofNat 8 v)) (a + 1) (BitVec.ofNat 8 (v / 256))) (a + 2)
    (BitVec.ofNat 8 (v / 65536))) (a + 3) (BitVec.ofNat 8 (v / 16777216))

/-- Write words in ascending order (R454). -/
def setNvWords (m : List Host.Cell) (a : Nat) : List Nat → List Host.Cell
  | [] => m
  | v :: t => setNvWords (setNvWord m a v) (a + 4) t

/-- Bytes of the NV store (R450): 512 KiB. -/
def nvBytes : Nat := 0x80000

end Sys2Proof.Machine
end

