-- ==== Sys2Proof/Machine/Use.lean ====
section
/-! DEFINITION. Who uses what: members of a domain, the domains that use a channel or a candidate, the cells of a pair. -/

namespace Sys2Proof.Machine

/-- The state of a domain is INIT. -/
def State.isInit (s : State) (d : Nat) : Bool := (s.dom d).state == .init

/-- Domains not in INIT: "every domain" of an F reaction (R433). -/
def State.liveDoms (s : State) : List Nat := (List.range 12).filter fun d => !s.isInit d

/-- Synthesiser `k` is assigned to domain `d` (R197). -/
def State.member (s : State) (d k : Nat) : Bool :=
  (s.syn k).mode == 2 && (s.syn k).dom == d && (!(s.syn k).planErr || (s.syn k).assignHeld)

/-- The domain that steers synthesiser `k`. -/
def State.steeredBy (s : State) (k : Nat) : Option Nat := if (s.syn k).mode = 2 then some (s.syn k).dom else none

/-- The candidate that the word of slot `sl` names; values above 39 disable the slot. -/
def State.slotName (s : State) (d sl : Nat) : Option Nat :=
  let w := s.cfg (0x70 + d) (0x140 + 8 * sl)
  if bit w 8 && bits w 5 0 < 40 then some (bits w 5 0) else none

/-- The candidate of slot `sl` of domain `d`, when the slot is enabled: of two slots with one candidate the higher
numbered one counts as disabled (R131). -/
def State.slotCand (s : State) (d sl : Nat) : Option Nat :=
  match s.slotName d sl with
  | some i => if (List.range sl).any fun k => s.slotName d k == some i then none else some i
  | none => none

def Sel.slotAt (l : Sel) (i : Nat) : DSlot := tget (fun _ => DSlot.zero) l.slots i

/-- Candidate `i` is the selected reference of domain `d`, or an ensemble member of it with non-zero weight (R126). -/
def State.domUses (s : State) (d i : Nat) : Bool :=
  let l := (s.dom d).sel
  (List.range 8).any fun sl =>
    s.slotCand d sl == some i && ((l.valid && l.slot == sl) || (l.ens && (l.slotAt sl).w != 0))

/-- Candidate `i` is the selected reference of domain `d` or an ensemble member of it, whatever its weight (R114). -/
def State.domFollows (s : State) (d i : Nat) : Bool :=
  let l := (s.dom d).sel
  (List.range 8).any fun sl =>
    s.slotCand d sl == some i && ((l.valid && l.slot == sl) || (l.ens && (l.slotAt sl).eligible))

/-- The domains that use candidate `i`. -/
def State.candUsers (s : State) (i : Nat) : List Nat := (List.range 12).filter fun d => s.domUses d i

/-- The candidate is in use (R126). -/
def State.candInUse (s : State) (i : Nat) : Bool := (s.candUsers i).length != 0

/-- The domains that use channel `c` (R64, R71): through its candidate, or through its feedback channel. -/
def State.chanUsers (s : State) (c : Nat) : List Nat :=
  if c < 36 then s.candUsers c
  else if c < 44 then (match s.steeredBy (c - 36) with | some d => [d] | none => [])
  else []

/-- TB_SRC as used: 0 with the reserved value or a ratio of 0 (R39). -/
def State.tbSrc (s : State) : Nat :=
  let v := bits (s.cfg 0x0D 0) 1 0
  if v = 3 ∨ s.cfg 0x0D 4 = 0 then 0 else v

/-- The channel is in use (R64, R311). -/
def State.chanInUse (s : State) (c : Nat) : Bool :=
  (s.chanUsers c).length != 0
    || (c == 44 && s.tbSrc == 1) || (c == 45 && s.tbSrc == 2)
    || (c == 46 && s.pair.role != .solo) || c == 47

/-- The source synthesiser of output `j` in effect. -/
def State.outSyn (s : State) (j : Nat) : Nat := (s.out j).cfg.syn

/-- The domain that drives output `j`. -/
def State.outDom (s : State) (j : Nat) : Option Nat := s.steeredBy (s.outSyn j)

/-- Outputs driven by domain `d`. -/
def State.domOuts (s : State) (d : Nat) : List Nat := (List.range 40).filter fun j => s.outDom j == some d

/-- The pair's entry of the spare table: permitted cells, SERVES, MEAS (R291). -/
def Book.pairEntry (b : Book) (p : Nat) : Nat × Nat × Nat := (b.spare[p]?).getD (0, 0, 0)

/-- The domains whose work the pairs carry: their SERVES sets (R291, R307). -/
def State.served (s : State) (pairs : List Nat) : List Nat :=
  (List.range 12).filter fun d => pairs.any fun p => (s.board.run.pairEntry p).2.1.testBit d

/-- The physical cell that holds logical cell `n`. -/
def State.holder (s : State) (n : Nat) : Option Nat :=
  (List.range 32).find? fun c => (s.cell c).state == .scheduled && (s.cell c).logical == n

/-- A pair runs simplex: a logical cell of it has no scheduled cell (R281, R305). -/
def State.simplex (s : State) (p : Nat) : Bool := (s.holder (2 * p)).isNone || (s.holder (2 * p + 1)).isNone

/-- A replacement has chosen spare `c`. -/
def State.chosen (s : State) (c : Nat) : Bool := s.board.repl.any fun r => r.spare == c

/-- The spare that a replacement of logical cell `n` takes: the lowest permitted SPARE (R299). -/
def State.spareFor (s : State) (n : Nat) : Option Nat :=
  (List.range 32).find? fun c =>
    (s.cell c).state == .spare && !s.chosen c && (s.board.run.pairEntry (n / 2)).1.testBit c

/-- Start the replacement of logical cell `n`, when a spare is free and none of `n` is in progress (R299). -/
def State.replace (s : State) (n : Nat) (leaving : Option (Nat × Nat)) : State :=
  if s.board.repl.any (fun r => r.logical == n) then s
  else
    match s.spareFor n with
    | some c => s.setBoard fun x => { x with
        repl := x.repl ++ [{ spare := c, logical := n, copying := false, leaving }] }
    | none => s

/-- A cell that an order of its own removes leaves a replacement: one that waits for it to leave goes on without it, and
one that has chosen it starts again with another spare (R298). -/
def State.leaveRepl (s : State) (c : Nat) : State :=
  let s := s.setBoard fun x => { x with
    twinNext := if x.twinNext.map (·.1) = some c then none else x.twinNext
    repl := x.repl.map fun r => if r.leaving.map (·.1) = some c then { r with leaving := none } else r }
  match s.board.repl.find? fun r => r.spare == c with
  | some r => (s.setBoard fun x => { x with repl := x.repl.filter fun q => q.spare != c }).replace r.logical r.leaving
  | none => s

/-- While the loader writes the cells, a permitted spare takes logical cell `n` directly (R295). -/
def State.placeSpare (s : State) (n : Nat) : State :=
  match s.spareFor n with
  | some c => (s.setCell c fun x => { x with state := .scheduled, logical := n }).event 0xC8 0
  | none => s

/-- A cell fault names cell `c`: it leaves its pair at once and is FENCED; a copying spare restarts its replacement
with another one (R298, R300). -/
def State.excludeCell (s : State) (c cause : Nat) (auto : Bool) : State :=
  let n := (s.cell c).logical
  let was := (s.cell c).state
  let s := s.setBoard fun x => { x with faultCell := c, faultBit := cause }
  let s := s.setCell c fun x => { x with state := .fenced, logical := 31, lastCause := cause }
  let s := (s.event 0xC8 0).leaveRepl c
  if was = .scheduled then
    (if s.board.state = .activating then s.placeSpare n else if auto then s.replace n none else s).event 0xC8 3
  else s

/-! ### States of a context (R91) -/

/-- Page and offset of a context's words. -/
def timPage (i : Nat) : Nat := 0xC0 + i / 48
def timOfs (i : Nat) : Nat := 16 * (i % 48)

/-- Change the state of a context. -/
def State.timTo (s : State) (i : Nat) (st : TimState) : State :=
  if (s.tim i).state = st then s else (s.setTim i fun t => { t with state := st }).event (timPage i) 1

/-! ### States of a channel (R64, R67) -/

/-- Register page of channel `k`. -/
def stampPage (k : Nat) : Nat := 0x10 + k

/-- A TEST ends: its result and TEST_DONE. -/
def State.closeTest (s : State) (k r : Nat) : State :=
  (s.setChan k fun c => { c with test := none, testResult := r }).event (stampPage k) 4

/-- A test ends aborted when its channel leaves its state or an interpolator fails calibration (R67). -/
def State.abortTest (s : State) (k : Nat) : State :=
  if (s.chan k).test.isSome then
    let s := s.closeTest k 3
    s.setOsc fun x => { x with lastTestFail := false }
  else s

/-- Change the state of a channel: STATE_CHANGE; a stopped channel writes nothing. -/
def State.chTo (s : State) (k : Nat) (st : ChState) : State :=
  if (s.chan k).state = st then s
  else
    let s := s.abortTest k
    let s := s.event (stampPage k) 0
    s.setChan k fun c => { c with
      state := st
      stamping := c.stamping && (st == .run || st == .degraded)
      arming := c.arming && (st == .run || st == .degraded) }

end Sys2Proof.Machine
end

