-- ==== Sys2Proof/Machine/Link.lean ====
section
/-! DEFINITION. The states of synthesisers, outputs and Vilcia links as they move one another (R206, R213, R254, R263):
every change of an output's state goes through `State.setOutState`, and of its hold through `State.linkOf`; every change of
a synthesiser's state goes through `State.synTo`. -/

namespace Sys2Proof.Machine

/-- Register page of output `j`. -/
def outPage (j : Nat) : Nat := 0x90 + j

/-- Register page of synthesiser `k`. -/
def synPage (k : Nat) : Nat := 0x80 + k

/-- The output of link `v` runs a bit clock: RUN or SAFE, and not held for a restart. -/
def State.bitClock (s : State) (v : Nat) : Bool :=
  let o := s.out (32 + v)
  o.cfg.src == 2 && ((o.state == .run && !o.held) || o.state == .safe)

/-- Enter a link state; LSTATE_CHANGE on a change (R271). -/
def State.linkTo (s : State) (v : Nat) (st : LState) : State :=
  let s := s.eventIf ((s.link v).state != st) 0x0A v
  s.setLink v fun l => { l with state := st, dnuLeft := if st = .dnu then 8 else 0 }

/-- The character grid of an output that starts on an epoch: T at its first bit, modulo 8 ns, in 2^-16 ns. The epoch
lies a whole number of feedback periods after the anchor; which one, no command says (log entry 3). -/
def State.charGrid (s : State) (v : Nat) : Nat :=
  let d := bits (s.cfg 0x0A (4 * v)) 2 1
  let p := (s.syn (s.out (32 + v)).cfg.syn).plan
  let period := roundDiv (p.num * 524288) (p.den * 10)
  ((roundDiv (s.tdom d).base 1280 + (Config.instant s.free : Int) * period) % 524288).toNat

/-- What the state of the output makes of link `v` (R263). -/
def State.linkSync (s : State) (v : Nat) : State :=
  let l := s.link v
  if s.bitClock v = false then (if l.state = .off then s else s.linkTo v .off)
  else if l.state = .off then
    if (s.out (32 + v)).state = .run then
      let g := s.charGrid v
      let d := bits (s.cfg 0x0A (4 * v)) 2 1
      ((s.linkTo v .idle).setLink v fun l => { l with
        idled := false, grid := g, dom := d, old := none, tick := -1, lineEnd := none, flight := none }).nextFree
    else s
  else if l.state = .sending ∧ (s.out (32 + v)).state = .safe then s.linkTo v .dnu
  else s

/-- Keep the link of output `j` with it. -/
def State.linkOf (s : State) (j : Nat) : State := if 32 ≤ j then s.linkSync (j - 32) else s

/-! ### Outputs that lose their source -/

/-- Move an output to a state; leaving RUN aborts a VERIFY, a restart and a move (R213, R217, R220). -/
def State.setOutState (s : State) (j : Nat) (st : OState) (held : Bool) : State :=
  let o := s.out j
  let s := s.eventIf (o.state != st) (outPage j) 0
  if o.state = .run ∧ st ≠ .run then
    let s := s.eventIf o.verifyBusy (outPage j) 2
    (s.setOut j fun o => { o with
      state := st, held, starting := false, sync := false, cfg := o.move.getD o.cfg, move := none, verifyBusy := false,
      verifyLeft := 0, verifyResult := if o.verifyBusy then 3 else o.verifyResult }).linkOf j
  else (s.setOut j fun o => { o with state := st, held }).linkOf j

/-- RUN → SQUELCHED: held, SQUELCHES counted (R213). -/
def State.squelch (s : State) (j : Nat) : State :=
  if (s.out j).state = .run then (s.setOutState j .squelched true).bump (outPage j) 0xA00 else s

/-- WAIT, RUN and SQUELCHED → FENCED (R213). -/
def State.fenceOut (s : State) (j : Nat) : State :=
  match (s.out j).state with
  | .wait | .run | .squelched => s.setOutState j .fenced true
  | _ => s

/-- Squelch every running output of synthesiser `k`; one that moves to it goes with it (R206, R217). -/
def State.squelchSyn (s : State) (k : Nat) : State :=
  ((List.range 40).filter fun j =>
    (s.out j).cfg.syn == k || (match (s.out j).move with | some m => m.syn == k | none => false)).foldl State.squelch s

/-- SQUELCHED → WAIT for the outputs of a synthesiser that is LOCKED again (R213); a member that lost its follower
keeps them SQUELCHED until FOLLOW_ALIGNED returns (R228). -/
def State.unsquelchSyn (s : State) (k : Nat) : State :=
  if (s.syn k).state = .locked ∧ (s.syn k).followHold = false then
    ((List.range 40).filter fun j => (s.out j).cfg.syn == k && (s.out j).state == .squelched).foldl
      (fun s j => s.setOutState j .wait true) s
  else s

/-! ### Synthesiser states (R206) -/

/-- Rounds of the 2 ms band search and of the 10 ms wait for lock. -/
def calRounds : Nat := 16
def relockRounds : Nat := 80

/-- Ports that transmit from synthesiser `k` change to the crystal reference: TX_HELD (R341). -/
def State.holdPort (k : Nat) (s : State) (p : Nat) : State :=
  let t := bits (s.cfg 0x0C (0x80 * p)) 7 4
  if t = k then
    let s := s.eventIf (!(s.port p).txHeld) 0x0C (4 + p)
    s.setPort p fun x => { x with txHeld := true }
  else s

/-- Enter a state: STATE_CHANGE, the timer of the new state, and what leaving LOCKED takes with it. -/
def State.synTo (s : State) (k : Nat) (st : SynState) : State :=
  let y := s.syn k
  if y.state = st then s
  else
    let s := s.event (synPage k) 0
    let s := s.setSyn k fun y => { y with
      state := st, lockedFor := 0, lockDet := st == .locked, followAligned := y.followAligned && st == .locked,
      followHold := y.followHold && st == .locked, followBad := 0
      left := match st with | .cal => calRounds | .unlocked => relockRounds | _ => 0 }
    if st = .locked then s.unsquelchSyn k
    else if y.state = .locked then (List.range 4).foldl (State.holdPort k) (s.squelchSyn k)
    else s

end Sys2Proof.Machine
end

