-- ==== Sys2Proof/Machine/Fault.lean ====
section
/-! DEFINITION. The fault collector (chapter 16): classes, records, check slots, the F reaction, escalation and PX1608
fencing; with the NV counters and log entries that records feed (R458, R459). A block's own first reaction is in
Machine/React.lean and in the block's chapter. -/

namespace Sys2Proof.Machine

/-- CLASS of a source: 0 C, 1 U, 2 F; `none` where the page has no such source (R438 and the chapters' tables). -/
def faultClass (k : PageKind) (page bit : Nat) : Option Nat :=
  let t : List (Option Nat) := match k with
    | .stamp => [some 1, some 0, some 1, some 0, some 1, some 1, some 1]
    | .osc => [some 2, some 2, some 0]
    | .tim => [some 0, some 1]
    | .harvest => [some 0, some 1, some 0]
    | .qual => [some 0, some 1, some 1, some 1]
    | .dom => [some 1, some 0, some 1, some 1, some 1, some 1, some 0, none, some 1, some 1, some 0, some 1]
    | .syn => [some 1, some 1, some 1, some 1]
    | .out => [some 1, some 1, some 1, if (page - 0x90) % 8 = 0 then some 1 else none]
    | .time => (List.range 16).map fun b => if b % 4 = 2 then some 0 else some 1
    | .vlink => (List.range 32).map fun b => if b % 4 = 3 then some 0 else some 1
    | .sched => [some 1, some 1, some 1, some 0, some 1, some 0]
    | .cell => [some 1, some 1, some 0, some 1, some 0, some 1, some 0, some 1, some 1]
    | .pair => [some 0, some 1, some 1, some 1, some 1, some 0, some 1]
    | .ports => (List.range 16).map fun b => if b % 4 < 2 then some 1 else none
    | .tsvc => [some 1, some 1, some 0, some 1, some 0]
    | .budget => [some 1, some 2, some 2, some 2, some 2, some 1, some 2, some 1, some 1]
    | .sys => [some 0, some 0, some 0, some 0, some 1, some 1]
    | .irq => [some 1, some 1]
    | .nv => [some 0, some 1, some 0, some 1, some 1, some 1]
    | .sec => [some 0, some 1, some 2, some 1, some 1]
    | .fault => [some 2, some 2, some 0, some 1, some 0]
    | .none => []
  (t[bit]?).getD none

/-- A fault event as it reaches the collector (R425). -/
structure Event where
  page : Nat
  bit : Nat
  unit : Nat := 0
  detail : Nat := 0
  master : Nat := 3
  access : Nat := 7
  addr : Nat := 0
  forced : Bool := false
  /-- the twin pairs concerned (CELL and SCHED sources) -/
  pairs : List Nat := []
  /-- the context concerned (TIM sources) -/
  ctx : Nat := 0
  /-- detected at a round boundary itself, not inside a round -/
  atBoundary : Bool := false
  deriving DecidableEq, Repr

/-- The identity of a fault: PAGE, BIT and UNIT at their bits of W0 (R425). -/
def identity (page bit unit : Nat) : Nat := page % 256 + bit % 32 * 0x100 + unit % 256 * 0x10000

def FaultRec.identity (r : FaultRec) : Nat := Machine.identity r.page r.bit r.unit
def Slot.identity (r : Slot) : Nat := Machine.identity r.page r.bit r.unit

/-- W0 of a record (R425). -/
def FaultRec.w0 (r : FaultRec) : Nat :=
  r.identity + r.cls * 0x2000 + b2n r.forced * 0x8000 + r.master * 0x1000000 + r.access * 0x4000000
    + b2n r.escalated * 0x20000000 + 0x80000000

/-- W0 to W4. -/
def FaultRec.words (r : FaultRec) : List Nat :=
  [r.w0, r.addr, r.time % 2 ^ 32, r.time / 2 ^ 32 % 2 ^ 32, r.rseq + r.detail % 65536 * 65536]

def FaultUnit.capture (f : FaultUnit) (p : Nat) : Option FaultRec := tget (fun _ => none) f.captures p
def FaultUnit.slot (f : FaultUnit) (i : Nat) : Option Slot := tget (fun _ => none) f.slots i
def FaultUnit.setSlot (f : FaultUnit) (i : Nat) (v : Option Slot) : FaultUnit :=
  { f with slots := tput (fun _ => none) f.slots i v }
def FaultUnit.setCapture (f : FaultUnit) (p : Nat) (v : Option FaultRec) : FaultUnit :=
  { f with captures := tput (fun _ => none) f.captures p v }

/-- Slots in use. -/
def FaultUnit.used (f : FaultUnit) : List Nat := (List.range 16).filter fun i => (f.slot i).isSome

/-- Remove the first record of a class from the queue; `none` when it holds none (R428). -/
def displace (cls : Nat) : List FaultRec → Option (List FaultRec)
  | [] => none
  | r :: t => if r.cls = cls then some t else (displace cls t).map (r :: ·)

/-- Put a record into the full or free queue: the new queue, and whether a record was lost (R428). -/
def pushRec (q : List FaultRec) (r : FaultRec) : List FaultRec × Bool :=
  if q.length < 16 then (q ++ [r], false)
  else if r.cls = 2 then
    match displace 0 q with
    | some t => (t ++ [r], true)
    | none => match displace 1 q with
      | some t => (t ++ [r], true)
      | none => (q, true)
  else (q, true)

/-- Store a record: in the page's capture when it is free, else in the queue (R424, R427, R428). -/
def State.storeRec (s : State) (r : FaultRec) : State :=
  let f := { s.fault with rseq := (s.fault.rseq + 1) % 65536 }
  let s := ({ s with fault := f }).bump 0x03 (0xA00 + 8 * r.cls)
  let s := s.event 0x03 0
  match f.capture r.page with
  | none => { s with fault := f.setCapture r.page (some r) }
  | some _ =>
    let (q, lost) := pushRec f.queue r
    let s := { s with fault := { f with queue := q, queueOvf := f.queueOvf || lost } }
    if lost then (s.bump 0x03 0xA30).event 0x03 1 else s

/-- A C event that repeats the page's capture or a queued record (R426). -/
def FaultUnit.isRepeat (f : FaultUnit) (page id : Nat) : Bool :=
  (match f.capture page with | some r => r.identity == id | none => false) || f.queue.any fun r => r.identity == id

/-- The record of an event. -/
def State.mkRec (s : State) (e : Event) (cls : Nat) (escalated : Bool) : FaultRec :=
  { page := e.page, bit := e.bit, cls, forced := e.forced, unit := e.unit, master := e.master, access := e.access,
    escalated, addr := e.addr, time := s.instant, rseq := s.fault.rseq, detail := e.detail }

/-- An edge interrupt source fires (R411). -/
def State.latchIrq (s : State) (n : Nat) : State :=
  { s with irq := { s.irq with
      latched := if s.irq.latched.contains n then s.irq.latched
        else (s.irq.latched.filter (· < n)) ++ [n] ++ s.irq.latched.filter (n < ·) } }

/-- FATAL latches on both targets (R418). -/
def State.latchFatal (s : State) : State := { s with irq := { s.irq with fatalC := true, fatalG := true } }

/-- Class C: the record and CORRECTED, but for a repeat, which only counts (R422, R426). -/
def State.collectC (s : State) (e : Event) : State :=
  let s := s.faultBit e.page e.bit
  if s.fault.isRepeat e.page (identity e.page e.bit e.unit) then s.bump 0x03 0xA38
  else (((s.storeRec (s.mkRec e 0 false)).nextFree).latchIrq 3)

/-! ### The NV counters and log that records feed -/

/-- A word of the byte range [a, a + n) is known to be uncorrectable (R466). -/
def NvUnit.badIn (v : NvUnit) (a n : Nat) : Bool := v.bad.any fun w => decide (a ≤ w + 3) && decide (w < a + n)

/-- A copy of an NV counter is valid: CHK is the complement of LO xor HI (R456). -/
def NvUnit.copyValid (v : NvUnit) (a : Nat) : Bool :=
  nvWord v.mem (a + 8) == 0xFFFFFFFF - (nvWord v.mem a).xor (nvWord v.mem (a + 4)) && !v.badIn a 12

def NvUnit.copyValue (v : NvUnit) (a : Nat) : Nat := nvWord v.mem (a + 4) * 2 ^ 32 + nvWord v.mem a

/-- The copy that holds the value: 1 A, 2 B, 3 none (R457). -/
def NvUnit.ctrCopy (v : NvUnit) (a : Nat) : Nat :=
  let va := v.copyValid a
  let vb := v.copyValid (a + 12)
  if va && (!vb || decide (v.copyValue (a + 12) ≤ v.copyValue a)) then 1 else if vb then 2 else 3

/-- The value of the counter at `a`, when a copy is valid. -/
def NvUnit.ctrValue (v : NvUnit) (a : Nat) : Nat :=
  match v.ctrCopy a with
  | 1 => v.copyValue a
  | 2 => v.copyValue (a + 12)
  | _ => 0

/-- The three words of a copy. -/
def nvCopyWords (v : Nat) : List Nat :=
  [v % 2 ^ 32, v / 2 ^ 32 % 2 ^ 32, 0xFFFFFFFF - (v % 2 ^ 32).xor (v / 2 ^ 32 % 2 ^ 32)]

/-- The protect block of a byte address is protected (R460). -/
def State.nvProtected (s : State) (a : Nat) : Bool := s.nv.bp.testBit (a / 8192)

/-- The store takes writes (R466). -/
def State.nvWritable (s : State) : Bool := s.nv.holdupOk && !s.nv.readOnly

/-- Program words in ascending order, counting each (R453, R454); a word written anew is readable again. -/
def State.nvWrite (s : State) (a : Nat) (ws : List Nat) : State :=
  if s.nvWritable then
    ({ s with nv := { s.nv with
        mem := setNvWords s.nv.mem a ws
        flight := ((List.range ws.length).map fun i => (a + 4 * i, nvWord s.nv.mem (a + 4 * i))).reverse ++ s.nv.flight
        bad := s.nv.bad.filter fun w => decide (w < a) || decide (a + 4 * ws.length ≤ w) } }).addCtr 0x05 0xA00 ws.length
  else s

/-- No word is being programmed: what was written stands. -/
def State.nvSettled (s : State) : State := { s with nv := { s.nv with flight := [] } }

/-- The store without the `n` words programmed last (R454). -/
def NvUnit.undone (v : NvUnit) (n : Nat) : List Host.Cell := (v.flight.take n).foldl (fun m p => setNvWord m p.1 p.2) v.mem

/-- The supply fails: of the words that were being written, in their order, some were reached and the rest hold their old
values (R453, R454; how many the spec leaves open). -/
def State.nvCut (s : State) : State :=
  { s.nextFree with nv := { s.nv with
      mem := s.nv.undone (Config.freeInt 0x7E0 s.free % (s.nv.flight.length + 1)).toNat, flight := [] } }

/-- NV_PROTECT_WRITE raised by a device writer, MASTER 3 (R458, R460). -/
def State.protectWrite (s : State) (master access addr : Nat) : State :=
  ((s.bump 0x05 0xA10).collectC { page := 0x05, bit := 2, master, access, addr })

/-- Increment the counter at `a`: value plus one into the other copy; without a valid copy NV_CTR_INVALID is due, and
`finish` reports it (R457, R466). -/
def State.nvIncrement (s : State) (a : Nat) : State :=
  match s.nv.ctrCopy a with
  | 1 => s.nvWrite (a + 12) (nvCopyWords ((s.nv.ctrValue a + 1) % 2 ^ 64))
  | 2 => s.nvWrite a (nvCopyWords ((s.nv.ctrValue a + 1) % 2 ^ 64))
  | _ => { s with nv := { s.nv with ctrResult := 3, ctrDue := true } }

/-- Increment device counter `k`, when CTR_EN is 1 (R458). -/
def State.deviceCounter (s : State) (k : Nat) : State :=
  if bit (s.cfg 0x05 0) 2 then
    let a := bits (s.cfg 0x05 0xC) 18 0 + 32 * k
    if s.nvProtected a then s.protectWrite 3 7 0 else s.nvIncrement a
  else s

/-- Queue a log entry for an F record, or a U record with LOG_U (R459). -/
def State.logRecord (s : State) (r : FaultRec) : State :=
  let w := s.cfg 0x05 0
  if bit w 0 && (r.cls == 2 || (r.cls == 1 && bit w 1)) then
    if s.nv.logWait.length < 16 then { s with nv := { s.nv with logWait := s.nv.logWait ++ [r] } }
    else s.bump 0x05 0xA20
  else s

/-! ### Reactions -/

/-- AUTO_EN of a castling cause (R324, R333). -/
def State.autoEn (s : State) (cause : Nat) : Bool :=
  if 2 ≤ cause ∧ cause ≤ 4 then bit (s.cfg 0x07 0) (14 + cause) else true

/-- An ACTIVE requests castling, unless the partner's version differs; a cause that arises while a castling runs waits
(R324, R325, R330). -/
def State.castleRequest (s : State) (cause : Nat) : State :=
  if s.pair.role ≠ .active ∨ s.pair.verOk = false ∨ s.autoEn cause = false then s
  else if s.pair.castleBusy then { s with pair := { s.pair with waiting := cause } }
  else
    { s with pair := { s.pair with castleReq := true, castleBusy := true, reqLeft := 64, cause, lastCause := cause } }

/-- Hold one CLOCK or PPS output of a domain at the levels of R30; a Vilcia output keeps its bit clock (R214, R433). -/
def holdForSafe (o : Out) : Out :=
  if o.cfg.src ≠ 2 ∧ (o.state = .wait ∨ o.state = .run ∨ o.state = .squelched) then { o with held := true } else o

/-- The F reaction of domain `d` for the record with identity `id` (R433): outputs held at once, INIT with SAFE at the
next boundary, castling requested; a domain in INIT is untouched. -/
def State.fReaction (s : State) (id d : Nat) : State :=
  if s.isInit d then s
  else
    let s := (s.domOuts d).foldl (fun s j => s.setOut j holdForSafe) s
    let s := s.setDom d fun x => { x with safePend := some (x.safePend.getD id) }
    s.castleRequest 2

/-- The F reaction of several domains. -/
def State.fReactions (s : State) (id : Nat) (ds : List Nat) : State := ds.foldl (fun s d => s.fReaction id d) s

/-- Stop a port (R366). -/
def State.stopPort (s : State) (p : Nat) : State := s.setPort p fun x => { x with svcStop := true }

/-- The domains that take the F reaction when source `bit` of `page` escalates, or at once for a source of class F. -/
def State.reactDoms (s : State) (page bit : Nat) (pairs : List Nat) : List Nat :=
  match pageKind page with
  | .stamp => s.chanUsers (page - 0x10)
  | .osc => if bit < 2 then s.liveDoms else []
  | .qual => s.candUsers (page - 0x40)
  | .dom => [page - 0x70]
  | .syn => (match s.steeredBy (page - 0x80) with | some d => [d] | none => [])
  | .out =>
    if bit = 3 then
      (List.range 12).filter fun d => (List.range 8).any fun i =>
        s.outDom (page - 0x90 + i) == some d && (s.out (page - 0x90 + i)).state != .off
    else (match s.outDom (page - 0x90) with | some d => [d] | none => [])
  | .time => [bit / 4]
  | .vlink => [bits (s.cfg 0x0A (4 * (bit / 4))) 2 1]
  | .sched =>
    if bit = 0 then s.liveDoms.filter fun d => s.domRuns d
    else if bit = 1 ∨ bit = 2 then s.served pairs else []
  | .cell => if bit = 8 then [] else s.served pairs
  | .pair =>
    if (bit = 2 ∨ bit = 3 ∨ bit = 4) ∧ s.standby = true then
      (match s.pair.applied with | some r => (r.doms.filter fun i => !((i.2.words[0]?).getD 0).testBit 7).map (·.1) | none => [])
    else []
  | .budget => if bit ≤ 4 ∨ bit = 6 then s.liveDoms else []
  | .fault => if bit = 0 then s.liveDoms else []
  | .sec => if bit = 2 then s.liveDoms else []
  | _ => []

/-- Make the F record of an event, with FATAL, F_TOTAL, the log and the F reaction of its domains (R422, R423). -/
def State.fatal (s : State) (e : Event) (escalated : Bool) : State :=
  let r := s.mkRec e 2 escalated
  let s := ((s.storeRec r).nextFree).latchFatal
  let s := (s.logRecord r).deviceCounter 2
  let ds := s.reactDoms e.page e.bit e.pairs
  s.fReactions (identity e.page e.bit e.unit) ds

/-- What an escalated U source does beside the F reaction on domains (R335, R366). -/
def State.escalateExtra (s : State) (page bit : Nat) : State :=
  match pageKind page with
  | .ports => s.stopPort (bit / 4)
  | .pair => if bit = 1 ∨ bit = 6 then s.castleRequest 2 else s
  | _ => s

/-- Escalation (R423, R431): the F record with ESCALATED, then what the source's table names. -/
def State.escalate (s : State) (e : Event) : State :=
  let s := (s.bump 0x03 0xA18).event 0x03 3
  (s.fatal e true).escalateExtra e.page e.bit

/-- PX1608 fencing of the unit that a U source names (R436 and the chapters' tables). A source without a PX1608 action
takes none. -/
def State.fence (s : State) (page bit ctx pair : Nat) : State :=
  match pageKind page with
  | .stamp =>
    let c := s.chan (page - 0x10)
    if (bit = 0 ∨ bit = 2 ∨ 4 ≤ bit) ∧ page ≠ stampPage 47 ∧ (c.state = .run ∨ c.state = .degraded) then
      s.chTo (page - 0x10) .fenced
    else s
  | .tim =>
    let i := (page - 0xC0) * 48 + ctx
    if bit = 1 then (s.setTim i fun t => { t with gates := [], stops := [] }).timTo i .halted else s
  | .qual =>
    s.setQual (page - 0x40) fun q => { q with fenced := q.fenced || q.state != .disabled }
  | .dom =>
    if bit = 0 ∨ bit = 2 ∨ bit = 4 ∨ bit = 5 then
      s.setDom (page - 0x70) fun d => { d with forcedHo := true, fencedHo := true }
    else if bit = 3 then s.setDom (page - 0x70) fun d => { d with model := { d.model with fenced := true } }
    else if 8 ≤ bit then s.setDom (page - 0x70) fun d => { d with sel := { d.sel with fenced := true } }
    else s
  | .syn =>
    if bit = 1 then s
    else if (s.syn (page - 0x80)).state = .off then s
    else (s.synTo (page - 0x80) .fenced).squelchSyn (page - 0x80)
  | .out => if bit = 3 then s else s.fenceOut (page - 0x90)
  | .time =>
    if bit % 4 = 2 then s
    else (s.setTdom (bit / 4) fun t => { t with valid := false, fenced := true }).event page (bit / 4 * 4 + 1)
  | .vlink =>
    if bit % 4 = 3 then s
    else s.fenceOut (32 + bit / 4)
  | .sched => if bit = 0 ∨ bit = 2 then { s with board := { s.board with v3Forced := true } } else s
  | .cell =>
    if bit = 7 then
      match s.holder (2 * pair) with
      | some c =>
        let s := s.replace (2 * pair) (some (c, 1))
        { s with board := { s.board with twinNext := some (c, 2 * pair + 1) } }
      | none => s
    else s
  | .pair => if bit = 0 ∨ bit = 5 then s else { s with pair := { s.pair with fenced := true } }
  | .ports => s.stopPort (bit / 4)
  | _ => s

/-- CHECK_MS as used (R429, R445). -/
def State.checkMs (s : State) : Nat := clamp (bits (s.cfg 0x03 0) 9 0) 1 1000

/-- Round boundaries of a check window: those of CHECK_MS, and one more when detection lies inside a round (R429). -/
def State.windowRounds (s : State) (atBoundary : Bool) : Nat := 8 * s.checkMs + (if atBoundary then 0 else 1)

/-- A U event in native mode: its slot, the lowest free one, or escalation at once (R429, R432). -/
def State.check (s : State) (e : Event) : State :=
  let id := identity e.page e.bit e.unit
  match (List.range 16).find? (fun i => match s.fault.slot i with | some x => x.identity == id | none => false) with
  | some i =>
    let v := (s.fault.slot i).map fun x => { x with repeats := if x.repeats < 15 then x.repeats + 1 else 15 }
    { s with fault := s.fault.setSlot i v }
  | none =>
    match (List.range 16).find? fun i => (s.fault.slot i).isNone with
    | some i =>
      let v : Slot := { page := e.page, bit := e.bit, unit := e.unit, detail := e.detail, pairs := e.pairs, repeats := 0,
                        left := s.windowRounds e.atBoundary }
      { s with fault := s.fault.setSlot i (some v) }
    | none =>
      (((s.bump 0x03 0xA40).event 0x03 6).escalate { page := e.page, bit := e.bit, unit := e.unit, detail := e.detail, pairs := e.pairs })

/-- Sources of class U that have an escalation: NV sources have none in PX1608 mode, CELL_TEST_FAIL has none at all
(R307, R466). -/
def noEscalation (page bit : Nat) : Bool := pageKind page == .cell && bit == 8

/-- A U event: record, then the check window, or fencing in PX1608 compatibility mode (R422, R436). -/
def State.collectU (s : State) (e : Event) : State :=
  let s := s.faultBit e.page e.bit
  let r := s.mkRec e 1 false
  let s := ((s.storeRec r).nextFree).logRecord r
  if s.fault.compat then s.fence e.page e.bit e.ctx (e.pairs.headD 0)
  else if noEscalation e.page e.bit then s
  else s.check e

/-- The event that a slot holds, for its escalation. -/
def Slot.event (x : Slot) : Event :=
  { page := x.page, bit := x.bit, unit := x.unit, detail := x.detail, pairs := x.pairs }

/-- Place slot number `i` by its key. -/
def insertSlot (key : Nat → Nat) (i : Nat) : List Nat → List Nat
  | [] => [i]
  | j :: t => if key i < key j then i :: j :: t else j :: insertSlot key i t

/-- Slots in ascending order of page, then bit (R426). -/
def FaultUnit.inOrder (f : FaultUnit) (l : List Nat) : List Nat :=
  let key (i : Nat) : Nat := match f.slot i with | some x => 32 * x.page + x.bit | none => 0
  l.foldl (fun (l : List Nat) (i : Nat) => insertSlot key i l) []

/-- An F event: record, FATAL, the F reaction (R422); FAULT_TIMER_MISMATCH escalates every fault in check (R432). -/
def State.collectF (s : State) (e : Event) : State :=
  let s := s.faultBit e.page e.bit
  let s := s.fatal e false
  if e.page = 0x03 ∧ e.bit = 1 then
    (s.fault.inOrder s.fault.used).foldl (fun s i =>
      match s.fault.slot i with
      | some x =>
        ({ s with fault := s.fault.setSlot i none }).escalate x.event
      | none => s) s
  else s

/-- A fault event reaches the collector (R422). -/
def State.report (s : State) (e : Event) : State :=
  match faultClass (pageKind e.page) e.page e.bit with
  | some 0 => s.collectC e
  | some 1 => s.collectU e
  | some _ => s.collectF e
  | none => s

/-- A fault event that no access caused. -/
def State.raise (s : State) (page bit : Nat) : State := s.report { page, bit }

end Sys2Proof.Machine
end

