-- ==== Sys2Proof/Machine/Irq.lean ====
section
/-! DEFINITION. Interrupt delivery (chapter 15): sources, targets, eligibility, requests and MSI. Every meaning ends in
`finish`, which re-evaluates the requests from the sources as the command leaves them. -/

namespace Sys2Proof.Machine

/-- The page-event source of page `p` (R409). -/
def irqOfPage (p : Nat) : Option Nat :=
  match pageKind p with
  | .stamp => some (32 + (p - 0x10))
  | .qual => some (80 + (p - 0x40))
  | .dom => some (120 + (p - 0x70))
  | .syn => some (132 + (p - 0x80))
  | .out => some (140 + (p - 0x90))
  | .tim => some (180 + (p - 0xC0))
  | .cell => some 182
  | .none => none
  | _ => some (16 + p)

/-- Level sources that are asserted: CHECK while a slot is in use, and the page events (R409). -/
def State.levels (s : State) : List Nat :=
  (if s.fault.used.length != 0 then [2] else []) ++
    s.pages.filterMap fun (p, g) => if g.evtIrqEn && g.eventPend then irqOfPage p else none

/-- SRC_CFG of source `n`; that of FATAL is fixed (R410). -/
def State.srcCfg (s : State) (n : Nat) : Word := if n = 1 then 0xF else s.cfg 0x04 (4 * n)

/-- PRIO of a source (R410). -/
def State.prio (s : State) (n : Nat) : Nat :=
  if n = 1 then 15 else if bits (s.srcCfg n) 3 0 = 15 then 14 else bits (s.srcCfg n) 3 0

/-- The source's own target is the guardian host. -/
def State.ownG (s : State) (n : Nat) : Bool := bit (s.srcCfg n) 4

/-- The target a source is judged on now: its own one, or the other while it is moved under R417. -/
def State.onG (s : State) (n : Nat) : Bool := if s.irq.moved.contains n then !s.ownG n else s.ownG n

/-- Numbers pending on a target (R411, R418); `g` is the guardian host. -/
def State.pendingOn (s : State) (g : Bool) : List Nat :=
  let svc := s.irq.insvcC ++ s.irq.insvcG
  let fatal := if g then s.irq.fatalG && !s.irq.insvcG.contains 1 else s.irq.fatalC && !s.irq.insvcC.contains 1
  (if fatal then [1] else []) ++
    (s.levels ++ s.irq.latched).filter fun n => n != 1 && s.onG n == g && !svc.contains n

/-- The in-service level of a target (R411). -/
def State.isl (s : State) (g : Bool) : Nat := nmax ((if g then s.irq.insvcG else s.irq.insvcC).map s.prio)

/-- THRESH of a target (R411). -/
def State.thresh (s : State) (g : Bool) : Nat := min (bits (s.dir 0x04 (if g then 0x920 else 0x91C)) 3 0) 14

/-- Eligible sources of a target (R411). -/
def State.eligible (s : State) (g : Bool) : List Nat :=
  (s.pendingOn g).filter fun n => s.thresh g < s.prio n && s.isl g < s.prio n

/-- The eligible source that a claim takes: highest PRIO, then highest number; 0 for none (R412). -/
def State.nextIrq (s : State) (g : Bool) : Nat :=
  (s.eligible g).foldl (fun b n =>
    if b = 0 then n else if s.prio b < s.prio n then n else if s.prio n = s.prio b ∧ b < n then n else b) 0

/-- C_MSI (R414). -/
def State.msiMode (s : State) : Bool := bit (s.dir 0x04 0x924) 8

/-- A target is asleep (R417). -/
def State.asleep (s : State) (g : Bool) : Bool :=
  if g then bit (s.dir 0x04 0x924) 1
  else bit (s.dir 0x04 0x924) 0 || !s.sys.pcieUp || (s.msiMode && !s.sys.msiEnable)

/-- Re-evaluate both requests, the lines and the MSI (R413 to R415); `send` marks a cause of R415 other than a rise.
A moved source whose own target is awake again and that the other target has not claimed returns, and the wait of a source
that is not eligible on an asleep target starts anew (R417). -/
def State.settle (s : State) (send : Bool) : State :=
  let svc := s.irq.insvcC ++ s.irq.insvcG
  let s := { s with irq := { s.irq with
    moved := s.irq.moved.filter fun n => svc.contains n || s.asleep (s.ownG n) } }
  let s := { s with irq := { s.irq with
    waits := s.irq.waits.filter fun e => s.asleep (s.ownG e.1) && (s.eligible (s.ownG e.1)).contains e.1 } }
  let rc := (s.eligible false).length != 0
  let rg := (s.eligible true).length != 0
  let msi := s.msiMode && !s.asleep false && rc && (send || !s.irq.reqC)
  let s := if msi then s.bump 0x04 0xA20 else s
  { s with irq := { s.irq with
      reqC := rc, reqG := rg, lineG := rg, lineC := rc && !(s.msiMode && !s.asleep false),
      msi := if msi then s.irq.msi + 1 else s.irq.msi } }

/-- NV_CTR_INVALID, when an increment of the command met a counter without a valid copy (R457). -/
def State.nvDue (s : State) : State :=
  if s.nv.ctrDue then ({ s with nv := { s.nv with ctrDue := false } }).raise 0x05 3 else s

/-- The outcome of every command: a next state with the requests re-evaluated. -/
def finish (s : State) : Host.Outcome State Fault Refusal := .next (s.nvDue.settle false)

end Sys2Proof.Machine
end

