-- ==== Sys2Proof/Machine/Ops.lean ====
section
/-! DEFINITION. What every register command shares: an access by a master (R392), the answer in CMD_STATUS, refusals in
their order (R400, R401), waiting for the boundary and the check there (R507), and the two-party protocol (R476). -/

namespace Sys2Proof.Machine

/-- The staged write of a master (R392). -/
def State.stagedOf (s : State) (m : Nat) : Option Staged := tget (fun _ => none) s.sys.staged m

def State.setStaged (s : State) (m : Nat) (v : Option Staged) : State :=
  { s with sys := { s.sys with staged := tput (fun _ => none) s.sys.staged m v } }

/-- GUARD_FAIL: counted and raised, class C (R392, R408). -/
def State.guardFail (s : State) (m access addr : Nat) : State :=
  (s.bump 0x00 0xA18).collectC { page := 0x00, bit := 1, master := m, access, addr }

/-- LOCK_WRITE (R394, R395). -/
def State.lockWrite (s : State) (m access addr : Nat) : State :=
  (s.bump 0x00 0xA10).collectC { page := 0x00, bit := 0, master := m, access, addr }

/-- A new access of master `m`: a value it had staged is discarded (R392). -/
def State.access (s : State) (m : Nat) : State :=
  match s.stagedOf m with
  | none => s
  | some g => (s.setStaged m none).guardFail m 3 (g.page * 0x1000 + g.off)

/-- The debug cap of a lifecycle state (R469): 0 CLOSED, 1 OBSERVE, 2 FULL. -/
def debugCap (l : Lifecycle) : Nat := if l = .deployed then 1 else 2

/-- The debug level in effect: the lower of DBG_SET and the cap; CLOSED under a fuse mismatch (R470, R481). -/
def State.dbgNow (s : State) : Nat := if s.sec.fuseBad then 0 else min s.sec.dbgSet (debugCap s.sec.lc)

/-- A test-port access or instruction that the level does not allow: counted and shown (R471). -/
def State.tpDenied (s : State) : State := (s.bump 0x06 0xA10).event 0x06 4

/-- Master `m` may access registers now; `wr` for a write. No register answers in RESET (R471). -/
def State.mayAccess (s : State) (m : Nat) (wr : Bool) : Bool :=
  m != 2 || decide ((if wr then 2 else 1) ≤ s.dbgNow)

/-- Page `p` answers: in DORMANT the pages of the stopped islands read 0 and ignore writes (R368). -/
def State.reaches (s : State) (p : Nat) : Bool := !(s.dormant && decide ((pageKind p).island < 4))

/-- A write by master `m` that page `p` takes as `f`: nothing answers in RESET, the test port needs FULL, and a value
the master had staged is discarded (R368, R392, R471). -/
def State.onWrite (s : State) (p m : Nat) (f : State → State) : State :=
  if s.boot.released = false then s
  else if s.mayAccess m true = false then s.tpDenied
  else if s.reaches p then f (s.access m) else s.access m

/-- A read by master `m` of page `p`: `f` gives the words and the state after it. -/
def State.onRead (s : State) (p m : Nat) (f : State → List Word × State) : State :=
  let reply (s : State) (l : List Word) : State := { s with sys := { s.sys with reply := l } }
  if s.boot.released = false then s
  else if s.mayAccess m false = false then s.tpDenied
  else
    let s := s.access m
    if s.reaches p then
      let (l, s) := f s
      reply s l
    else reply s [0]

/-- CMD_ARG of a master on a page (R400). -/
def State.arg (s : State) (p m : Nat) : Word := tget (fun _ => 0) (s.page p).args m

/-- CMD_STATUS of a master on a page. -/
def State.cmdStatus (s : State) (p m : Nat) : CmdStatus := tget (fun _ => CmdStatus.zero) (s.page p).status m

def Page.setStatus (g : Page) (m : Nat) (v : CmdStatus) : Page :=
  { g with status := tput (fun _ => CmdStatus.zero) g.status m v }

/-- What a command may be refused for. -/
structure Checks where
  arg : Bool := false
  busy : Bool := false
  lock : Bool := false
  role : Bool := false
  party : Bool := false
  state : Bool := false
  deriving DecidableEq, Repr

/-- RESULT: the first refusal that applies, in the order of R401; 0 ACCEPTED. -/
def Checks.result (c : Checks) : Nat :=
  if c.arg then 2 else if c.busy then 5 else if c.lock then 3 else if c.role then 4 else if c.party then 6
  else if c.state then 1 else 0

/-- The conditions checked again at the boundary: lock, role and state (R507). -/
def Checks.again (c : Checks) : Nat := if c.lock then 3 else if c.role then 4 else if c.state then 1 else 0

/-- PAGE_EVENT bit of CMD_REFUSED on a page. -/
def PageKind.refusedBit : PageKind → Nat
  | .sys => 4 | .sched => 6 | .budget => 5 | .fault => 8 | .irq => 2 | .nv => 3 | .sec => 6 | .pair => 8
  | .harvest => 7 | .time => 31 | .vlink => 16 | .tsvc => 6 | .ports => 9 | .osc => 0 | .stamp => 5 | .qual => 5
  | .dom => 7 | .syn => 6 | .out => 4 | .tim => 2 | .cell => 4 | .none => 0

/-- An accepted command of the page has not yet taken effect (R389, R401). -/
def State.busy (s : State) (p : Nat) : Bool := (s.page p).pend.isSome

/-- Answer a command: SEQ rises by one and the master's CMD_STATUS shows result, code and SEQ (R400). -/
def State.answer (s : State) (p m code result : Nat) (fin : Bool) : State :=
  s.setPage p fun g =>
    { g.setStatus m { result, code := code % 256, seq := (g.seq + 1) % 32768, done := fin } with
      seq := (g.seq + 1) % 32768 }

/-- What a refusal does beside its answer: CMD_REFUSALS and CMD_REFUSED (R401); selection commands of a domain raise
CMD_REFUSED_SEL as well (R162). -/
def State.noteRefusal (s : State) (p code : Nat) : State :=
  let k := pageKind p
  let s := (s.bump p k.refusals).event p k.refusedBit
  if k = .dom ∧ 0x10 ≤ code ∧ code < 0x20 then s.event p 13 else s

/-- Refuse a command: it changes nothing else and is never queued (R401). -/
def State.refuse (s : State) (p m code result : Nat) : State := (s.answer p m code result false).noteRefusal p code

/-- Accept a command that takes effect at a later boundary. -/
def State.accept (s : State) (p m code : Nat) (arg : Word) (data : List Word := []) : State :=
  let s := s.answer p m code 0 false
  s.setPage p fun g => { g with pend := some { master := m, code, arg, seq := g.seq, data } }

/-- Issue a command that waits for the next round boundary. -/
def State.submit (s : State) (p m code : Nat) (arg : Word) (c : Checks) : State :=
  if c.result = 0 then s.accept p m code arg else s.refuse p m code c.result

/-- Issue a command whose effect `f` comes at once. -/
def State.immediate (s : State) (p m code : Nat) (c : Checks) (f : State → State) : State :=
  if c.result = 0 then f (s.answer p m code 0 true) else s.refuse p m code c.result

/-- The pending command of a page at its boundary: dropped when a state condition fails (R507), else it takes effect
and sets DONE. -/
def State.settleCmd (s : State) (p : Nat) (again : Nat) (f : CmdPend → State → State) : State :=
  match (s.page p).pend with
  | none => s
  | some q =>
    let s := s.setPage p fun g => { g with pend := none }
    if again = 0 then
      let s := s.setPage p fun g =>
        if (tget (fun _ => CmdStatus.zero) g.status q.master).seq = q.seq then
          g.setStatus q.master { result := 0, code := q.code % 256, seq := q.seq, done := true }
        else g
      f q s
    else
      let s := s.setPage p fun g =>
        if (tget (fun _ => CmdStatus.zero) g.status q.master).seq = q.seq then
          g.setStatus q.master { result := again, code := q.code % 256, seq := q.seq, done := false }
        else g
      s.noteRefusal p q.code

/-! ### Two-party control -/

/-- The test port may stand in for a host: BLANK with FULL in effect (R476). -/
def State.standIn (s : State) : Bool := s.sec.lc == .blank && s.sec.dbgSet == 2 && !s.sec.fuseBad

/-- Master `m` is no party: the device, or the test port where it may not stand in (R476). -/
def State.noParty (s : State) (m : Nat) : Bool := m == 3 || (m == 2 && !s.standIn)

/-- A nonce of 0 (R476). -/
def noNonce (arg : Word) : Bool := bits arg 31 16 == 0

/-- The lifecycle state or a fuse mismatch refuses every two-party command but, in RETIRED, DBG_SET (R469, R481). -/
def State.partyBarred (s : State) (p code : Nat) : Bool :=
  s.sec.fuseBad || (s.sec.lc == .retired && !(p == 0x06 && code == 2))

/-- The refusals that the protocol adds to a command's own (R241, R476). A page holds one pending proposal: one of its
PAGE_LOCK stands in a command's way as another command's would. -/
def State.partyChecks (s : State) (p m code : Nat) (arg : Word) (c : Checks) : Checks :=
  match (s.page p).prop, (s.page p).lockProp with
  | none, none =>
    { c with arg := c.arg || noNonce arg, party := s.noParty m, state := c.state || s.partyBarred p code }
  | none, some q =>
    { c with arg := c.arg || noNonce arg || q.master != m, party := s.noParty m || q.master == m }
  | some q, _ =>
    { c with
      arg := c.arg || noNonce arg || (q.master != m && (q.code != code || q.arg != arg))
      party := s.noParty m || q.master == m
      state := c.state || s.partyBarred p code }

/-- Propose or countersign a two-party command (R476). `data` is what the proposal captures; `later` says that a
countersigned change waits for the next boundary; `f` is the change, given the captured words. -/
def State.twoParty (s : State) (p m code : Nat) (arg : Word) (c : Checks) (data : List Word) (later : Bool)
    (f : List Word → State → State) : State :=
  let c := s.partyChecks p m code arg c
  match (s.page p).prop with
  | none =>
    if c.result = 0 then
      let s := s.answer p m code 0 true
      let s := s.setPage p fun g => { g with prop := some { master := m, code, arg, data, age := 0 } }
      s.event 0x06 2
    else s.refuse p m code c.result
  | some q =>
    if c.result = 0 then
      let s := s.setPage p fun g => { g with prop := none }
      let s := s.bump 0x06 0xA00
      if later then s.accept p m code arg q.data
      else f q.data (s.answer p m code 0 true)
    else if c.result = 1 then (s.setPage p fun g => { g with prop := none }).refuse p m code 1
    else s.refuse p m code c.result

/-- Drop the proposals of a page that lapse (R393, R476): TWO_LAPSED and LAPSE. -/
def State.lapseProp (s : State) (p : Nat) : State :=
  match (s.page p).prop with
  | some _ => (((s.setPage p fun g => { g with prop := none }).bump 0x06 0xA08).event 0x06 3)
  | none => s

/-- The lock proposal of a page lapses: LOCK_PEND is cleared (R393). -/
def State.lapseLock (s : State) (p : Nat) : State :=
  match (s.page p).lockProp with
  | some _ => (((s.setPage p fun g => { g with lockProp := none }).bump 0x06 0xA08).event 0x06 3)
  | none => s

/-- A guarded write of PAGE_LOCK whose complement has arrived (R393). -/
def State.writeLock (s : State) (p m : Nat) (v : Word) : State :=
  let mask := bits v 1 0
  let setRes (s : State) (r : Nat) : State := s.setPage p fun g => { g with lockResult := r }
  if noNonce v then setRes s 2
  else if s.noParty m then setRes s 6
  else
    match (s.page p).lockProp with
    | none =>
      match (s.page p).prop with
      | some q => setRes s (if q.master = m then 6 else 2)
      | none =>
      if s.sec.fuseBad then setRes s 1
      else
        (setRes (s.setPage p fun g =>
          { g with lockProp := some { master := m, code := 0, arg := v, data := [], age := 0 } }) 0).event 0x06 2
    | some q =>
      if q.master = m then setRes s 6
      else if q.arg ≠ v then setRes s 2
      else
        (setRes (s.setPage p fun g =>
          { g with lockProp := none, lockCfg := mask % 2 = 1, lockCmd := 2 ≤ mask }) 0).bump 0x06 0xA00

end Sys2Proof.Machine
end

