-- ==== Sys2Proof/Machine/Board.lean ====
section
/-! DEFINITION. The board and its loader (R273, R279, R284, R285, R293 to R307): the book store, activation, variants,
cells, spares and tests. -/

namespace Sys2Proof.Machine

/-! ### The book store (R293) -/

/-- Refuse the stored book with a code and an offset. -/
def State.bookRefuse (s : State) (code ofs : Nat) : State :=
  (s.setBoard fun b => { b with bookState := .refused, verifyCode := code, verifyOfs := ofs, warmOk := false }).event 0x01 1

/-- Start LOADING. -/
def State.startLoad (s : State) (expect : Nat) (flash : Bool) : State :=
  s.setBoard fun b => { b with
    bookState := .loading, expect, loadLen := 0, fromFlash := flash, store := [], verifyCode := 0, verifyOfs := 0,
    warmOk := false, storedRead := false, stored := .zero }

/-- The book has been received whole. -/
def State.loaded (s : State) : State :=
  s.setBoard fun b => { b with bookState := .loaded, storedRead := true, stored := headerBook b.store }

/-- A host word reaches BOOK_DATA. -/
def State.bookWord (s : State) (v : Word) : State :=
  let b := s.board
  if b.bookState = .loading ∧ b.fromFlash = false then
    let s := s.setBoard fun b => { b with
      store := tput (fun _ => 0) b.store (b.loadLen / 4) v.toNat, loadLen := b.loadLen + 4 }
    if b.expect ≤ b.loadLen + 4 then s.loaded else s
  else s.event 0x01 3

/-- A read from flash ends: the words of the book, or an error (R293). -/
def State.flashLoaded (s : State) (words : List Word) (ok : Bool) : State :=
  if s.board.bookState = .loading ∧ s.board.fromFlash then
    let ws := words.map BitVec.toNat
    let total := (ws[2]?).getD 0
    if ok = false then s.bookRefuse 15 0
    else if 1572864 < total then s.bookRefuse 2 8
    else if 4 * ws.length < total then s.bookRefuse 15 0
    else (s.setBoard fun b => { b with store := tableFrom 0 (ws.take (total / 4)), loadLen := total, expect := total }).loaded
  else s

/-- Verification ends (R287, R293). -/
def State.verified (s : State) : State :=
  if s.board.bookState = .verifying then
    let s := s.event 0x01 0
    match s.verifyBook s.board.store s.board.loadLen with
    | some (c, o) => s.bookRefuse c o
    | none =>
      s.setBoard fun b => { b with
        bookState := .verified, verifyCode := 0, verifyOfs := 0
        warmOk := b.state == .running && imgWord b.store 0x20 == b.run.layout }
  else s

/-! ### Activation (R295) -/

/-- Keep the entries of `old` inside [first, last], and take those of `new` outside. -/
def keepRange (first last : Nat) (old new : Table Nat) : Table Nat :=
  (new.filter fun p => decide (p.1 < first)) ++ (old.filter fun p => decide (first ≤ p.1) && decide (p.1 ≤ last))
    ++ new.filter fun p => decide (last < p.1)

/-- The image that a section leaves in a memory: `warm` keeps its KEEP range. -/
def sectionImage (st : Table Nat) (warm : Bool) (x : Option Section) (old : Table Nat) (mask : Nat) : Table Nat :=
  match x with
  | none => []
  | some x =>
    let new := tableFrom 0 ((imgWords st x.off (x.len / 4)).map (· % mask))
    if warm ∧ x.keepEn then keepRange x.first x.last old new else new

/-- The instruction image of a pair: words of 64 bits. -/
def imemImage (st : Table Nat) (x : Option Section) : Table Nat :=
  match x with
  | none => []
  | some x => tableFrom 0 ((List.range (x.len / 8)).map fun k =>
      imgWord st (x.off + 8 * k) + imgWord st (x.off + 8 * k + 4) * 2 ^ 32)

/-- Write the images of the stored book into the cells of the used pairs and into shared memory. -/
def State.writeImages (s : State) (warm : Bool) : State :=
  let st := s.board.store
  let secs := sections st
  let s := (List.range 32).foldl (fun (s : State) (c : Nat) =>
    let x := s.cell c
    if x.state = .scheduled ∧ (imgWord st 0x28).testBit (x.logical / 2) then
      s.setCell c fun x => { x with
        imem := imemImage st (findSection secs 1 (x.logical / 2))
        dmem := sectionImage st warm (findSection secs 2 (x.logical / 2)) x.dmem (2 ^ 18) }
    else s) s
  s.setBoard fun b => { b with shared := sectionImage st warm (findSection secs 3 0) b.shared (2 ^ 18) }

/-- ACTIVATE takes effect at a boundary: 16 rounds without the board; pending replacements are abandoned, and their spares
take the logical cells directly. -/
def State.beginActivation (s : State) (warm : Bool) : State :=
  let s := s.board.repl.foldl (fun (s : State) (r : Repl) =>
    let s := match s.holder r.logical with
      | some c => s.setCell c fun x => { x with state := .spare, logical := 31 }
      | none => s
    (s.setCell r.spare fun x => { x with state := .scheduled, logical := r.logical }).event 0xC8 0) s
  s.setBoard fun b => { b with
    state := .activating, actLeft := 16, actWarm := warm, actPend := false, repl := [], varNow := 0 }

/-- The 16 rounds are over: the store holds the book in effect, and the board runs it. -/
def State.activated (s : State) : State :=
  if s.board.state = .activating then
    let s := s.writeImages s.board.actWarm
    let s := s.setBoard fun b => { b with
      state := .running, actLeft := 0, bookState := .installed
      run := runBook b.store }
    (s.bump 0x01 0xA30).event 0x01 2
  else s

/-! ### Variants (R285) -/

/-- The variant that runs when `v` is asked for: the next higher one present. -/
def Book.variant (b : Book) (v : Nat) : Nat := ((List.range 4).find? fun u => decide (v ≤ u) && b.varMask.testBit u).getD 3

/-- Step 3 of R23: the variant chosen for the round takes effect. -/
def State.takeVariant (s : State) (v : Nat) : State :=
  let v := if s.board.v3Forced then 3 else v
  let now := s.board.run.variant v
  let s := s.eventIf (s.boardRuns && now != s.board.varNow) 0x01 4
  s.setBoard fun b => { b with varReq := v, varNow := if b.state = .running then now else b.varNow }

/-- ESS_OVER: more essential domains than V3_ESS_MAX (R285). -/
def State.essCheck (s : State) : State :=
  let n := ((List.range 12).filter fun d => bit (s.cfg (0x70 + d) 0) 31).length
  let above := decide (s.board.run.v3Max < n) && s.board.state == .running
  (s.eventIf (above && !s.board.essOver) 0x01 5).setBoard fun b => { b with essOver := above }

/-- LEN_V of the variant in effect. -/
def State.lenRun (s : State) : Nat := (s.board.run.lens[s.board.varNow]?).getD 0

/-- The tempos of a round whose measured count is `n`, 0 standing for the count at the cell clock in effect (R283): from
87,500 to 101,000, and in V3 from 9/8 of LEN_V, but never below 43,750. -/
def State.roundTempos (s : State) (n : Nat) : Nat :=
  let clock := if s.budget.fCell = 0 then 800 * 1024 else s.budget.fCell
  let low := if s.board.varNow = 3 then max 43750 ((9 * s.lenRun + 7) / 8) else 87500
  min (max (if n = 0 then 125 * clock / 1024 else n) low) 101000

/-- The board begins a round: what it will hold, and whether it will reach its barrier (R26, R283). -/
def State.beginBoardRound (s : State) (late : Bool) (tempos : Nat) : State :=
  let n := s.roundTempos tempos
  s.setBoard fun b => { b with late := late || decide (n < s.lenRun), tempos := n, staging := [] }

/-- The end of a round of the board: its tempos, the barrier, an overrun (R26, R284). -/
def State.endBoardRound (s : State) : State :=
  if s.board.state = .running then
    let n := if s.board.tempos = 0 then s.roundTempos 0 else s.board.tempos
    let above := s.board.late
    let len := s.lenRun
    let s := s.setBoard fun b => { b with
      temposLast := n, temposMin := min b.temposMin n, barLast := if above then b.barLast else len, overrunLast := above }
    let s := (s.bump 0x01 0xA00).bump 0x01 (0xA08 + 8 * s.board.varNow)
    if above then (s.bump 0x01 0xA28).report { page := 0x01, bit := 0, atBoundary := true } else s
  else s

/-! ### Cells (R298 to R301) -/

/-- A cell enters a state. -/
def State.cellTo (s : State) (c : Nat) (st : CState) : State := (s.setCell c fun x => { x with state := st }).event 0xC8 0

/-- Start the 64 rounds of a test. -/
def State.startCellTest (s : State) (c : Nat) : State :=
  (s.cellTo c .testing).setCell c fun x => { x with logical := 31, testLeft := 64, testResult := 0, imem := [], dmem := [] }

/-- What becomes of the cell that a replacement releases: SPARE, or TESTING. -/
def State.releaseCell (s : State) (c how : Nat) : State :=
  if how = 0 then (s.cellTo c .spare).setCell c fun x => { x with logical := 31 } else s.startCellTest c

/-- The cell whose memories a spare copies (R299). -/
def State.copySource (s : State) (n : Nat) : Option Nat :=
  let twin := if n % 2 = 0 then n + 1 else n - 1
  match s.holder twin with
  | some c => some c
  | none => s.holder n

/-- One boundary of a replacement: the spare becomes COPYING, then takes its logical cell. -/
def State.replStep (s : State) (r : Repl) : State :=
  if r.copying = false then
    (s.cellTo r.spare .copying).setBoard fun b => { b with repl := b.repl ++ [{ r with copying := true }] }
  else
    let src := s.copySource r.logical
    let mem := match src with | some c => ((s.cell c).imem, (s.cell c).dmem) | none => ([], [])
    let s := match r.leaving with | some (c, how) => s.releaseCell c how | none => s
    let s := (s.cellTo r.spare .scheduled).setCell r.spare fun x => { x with
      logical := r.logical, imem := mem.1, dmem := mem.2 }
    (s.bump 0xC8 0xA08).event 0xC8 1

/-- One boundary of the replacements in progress. -/
def State.replRound (s : State) : State :=
  s.board.repl.foldl State.replStep (s.setBoard fun b => { b with repl := [] })

/-- A test ends (R298): a good cell becomes SPARE with its memories cleared, and the second twin of a pair in question
follows it; a bad one stays FENCED. -/
def State.cellTestDone (s : State) (c : Nat) (pass : Bool) : State :=
  if (s.cell c).state = .testing then
    let s := ((s.bump 0xC8 0xA10).event 0xC8 2).setCell c fun x => { x with
      testLeft := 0, testResult := if pass then 1 else 2, imem := [], dmem := [] }
    if pass then
      let s := s.cellTo c .spare
      match s.board.twinNext with
      | some (k, n) =>
        if k = c then
          let s := s.setBoard fun b => { b with twinNext := none }
          (match s.holder n with
           | some h => s.replace n (some (h, 1))
           | none => s)
        else s
      | none => s
    else
      let s := (s.cellTo c .fenced).setCell c fun x => { x with lastCause := 8 }
      let s := s.setBoard fun b => { b with
        twinNext := if b.twinNext.map (·.1) = some c then none else b.twinNext, faultCell := c, faultBit := 8 }
      (s.bump 0xC8 0xA18).report { page := 0xC8, bit := 8, unit := c, detail := 31 }
  else s

/-- Tests count down; one that no command ended has found no defect. -/
def State.cellTests (s : State) : State :=
  (List.range 32).foldl (fun (s : State) (c : Nat) =>
    if (s.cell c).state = .testing then
      let s := s.setCell c fun x => { x with testLeft := x.testLeft - 1 }
      if (s.cell c).testLeft = 0 then s.cellTestDone c true else s
    else s) s

/-- Scheduled cells and spares run KAT in every round of the board; a cell that fails it is FENCED (R284, R300). -/
def State.katRound (s : State) : State :=
  (List.range 32).foldl (fun (s : State) (c : Nat) =>
    if ((s.cell c).state = .scheduled ∨ (s.cell c).state = .spare) ∧ (s.cell c).katOk = false then
      s.setCell c fun x => { x with katOk := true }
    else s) s

/-- The cells at a boundary: KAT, replacements, tests, mismatch history, simplex rounds. -/
def State.cellRound (s : State) : State :=
  let s := if s.boardRuns then s.katRound else s
  let s := if (List.range 15).any s.simplex then s.bump 0xC8 0xA20 else s
  let s := s.setBoard fun b => { b with mism := (b.mism.map fun p => (p.1, p.2 + 1)).filter fun p => decide (p.2 < 64) }
  s.replRound.cellTests

/-- REPEAT_N (R305). -/
def State.repeatN (s : State) : Nat := let n := bits (s.cfg 0xC8 0) 7 4; if n = 0 then 1 else n

/-- A twin mismatch of a pair is noted (R307): the number within 64 rounds. -/
def State.noteMismatch (s : State) (p : Nat) : State × Nat :=
  let s := (s.bump 0xC8 0xA00).setBoard fun b => { b with mism := (p, 0) :: b.mism }
  (s, (s.board.mism.filter fun q => q.1 == p).length)

/-- AUTO_SPARE. -/
def State.autoSpare (s : State) : Bool := bit (s.cfg 0xC8 0) 0

/-! ### Commands -/

/-- Every domain is INIT. -/
def State.allInit (s : State) : Bool := s.liveDoms == []

/-- Refusals of ACTIVATE that concern the state of the device (R297). -/
def State.activateState (s : State) (cold : Bool) : Bool :=
  if cold then !(s.board.state == .noBook || s.allInit) else !(s.board.state == .running && s.board.warmOk)

/-- An ACTIVE device of a bound pair may not activate, unless its partner is lost or differs in version (R297). -/
def State.activateRole (s : State) : Bool :=
  s.pair.role == .active && s.pair.bound && s.pair.verOk && !s.pair.lost

/-- Bytes of the flash found at start-up. -/
def State.flashBytes (s : State) : Nat := if s.sys.flashSize = 0 then 0 else 2 ^ s.sys.flashSize

/-- Refusals of a SCHED command. -/
def State.schedChecks (s : State) (code : Nat) (arg : Word) : Checks :=
  let b := s.board
  let busy := b.bookState == .verifying || b.bookState == .activating || s.busy 0x01
  let lock := (s.page 0x01).lockCmd
  let loadable := b.bookState == .empty || b.bookState == .loaded || b.bookState == .verified || b.bookState == .refused
    || b.bookState == .installed
  match code with
  | 1 => { arg := arg.toNat % 16 != 0 || decide (arg.toNat < 512) || decide (1572864 < arg.toNat), busy, lock,
           state := !loadable }
  | 2 => { arg := arg.toNat % 4096 != 0 || decide (s.flashBytes ≤ arg.toNat), busy, lock, state := !loadable }
  | 3 => { busy, lock, state := b.bookState != .loaded }
  | 4 => { busy, lock, role := s.activateRole, state := b.bookState != .verified || s.activateState (bit arg 0) }
  | 5 => { busy }
  | 6 => { busy, lock, state := !b.v3Forced }
  | _ => { arg := true }

/-- Issue a SCHED command with an immediate effect. -/
def State.schedCommand (s : State) (m : Master) (code : Nat) (f : Word → State → State) : State :=
  let m := masterCode m
  s.onWrite 0x01 m fun (s : State) =>
    let arg := s.arg 0x01 m
    s.immediate 0x01 m code (s.schedChecks code arg) (f arg)

/-- ACTIVATE: accepted, it waits for the boundary with the store ACTIVATING; the record of the round carries QUIET
(R313). -/
def State.activate (s : State) (m : Master) (cold : Bool) : State :=
  let m := masterCode m
  s.onWrite 0x01 m fun (s : State) =>
    let arg := if cold then (s.arg 0x01 m) ||| 1 else (s.arg 0x01 m) &&& ~~~(1 : Word)
    let c := s.schedChecks 4 arg
    let s := s.submit 0x01 m 4 arg c
    if c.result = 0 then
      let s := s.setPair fun x => { x with quiet := s.pair.bound }
      s.setBoard fun b => { b with bookState := .activating, actPend := true }
    else s

/-- The effect of a SCHED command that comes at once. -/
def State.schedEffect (code : Nat) (arg : Word) (s : State) : State :=
  match code with
  | 1 => s.startLoad arg.toNat false
  | 2 => s.startLoad 0 true
  | 3 => s.setBoard fun b => { b with bookState := .verifying }
  | 5 =>
    s.setBoard fun b => { b with
      bookState := .empty, store := [], loadLen := 0, storedRead := false, stored := .zero, warmOk := false
      verifyCode := 0, verifyOfs := 0 }
  | _ => s.setBoard fun b => { b with v3Forced := false }

/-- Issue a SCHED command; ACTIVATE is cold or warm by CMD_ARG [0]. -/
def State.schedIssue (s : State) (m : Master) (code : Nat) : State :=
  if code = 4 then s.activate m (bit (s.arg 0x01 (masterCode m)) 0) else s.schedCommand m code (State.schedEffect code)

/-- The pending ACTIVATE at its boundary, checked again (R507). -/
def State.schedApply (s : State) : State :=
  match (s.page 0x01).pend with
  | none => s
  | some q =>
    let again := ({ lock := (s.page 0x01).lockCmd, role := s.activateRole, state := s.activateState (bit q.arg 0) } : Checks).again
    let s := if again = 0 then s else s.setBoard fun b => { b with bookState := .verified, actPend := false }
    s.settleCmd 0x01 again fun q s => s.beginActivation (!bit q.arg 0)

/-- Refusals of a CELL command (R301). -/
def State.cellChecks (s : State) (code : Nat) (arg : Word) : Checks :=
  let c := bits arg 4 0
  let x := s.cell c
  let noSpare := (s.spareFor x.logical).isNone || s.board.repl != []
  match code with
  | 1 => { busy := s.busy 0xC8, lock := (s.page 0xC8).lockCmd, state := x.state != .scheduled || noSpare }
  | 2 => { busy := s.busy 0xC8
           state := s.board.state == .activating ||
             (match x.state with
              | .spare | .fenced => false
              | .scheduled => noSpare
              | _ => true) }
  | _ => { arg := true }

/-- Issue a CELL command. -/
def State.cellCommand (s : State) (m : Master) (code : Nat) : State :=
  let m := masterCode m
  s.onWrite 0xC8 m fun (s : State) =>
    let arg := s.arg 0xC8 m
    s.submit 0xC8 m code arg (s.cellChecks code arg)

/-- The pending CELL command takes effect. One of the sweep, marked by its data, is never lock-refused (R441). -/
def State.cellApply (s : State) : State :=
  match (s.page 0xC8).pend with
  | none => s
  | some q =>
    let c := s.cellChecks q.code q.arg
    s.settleCmd 0xC8 { c with lock := c.lock && q.data == [] }.again fun q s =>
      let c := bits q.arg 4 0
      if (s.cell c).state = .scheduled then s.replace (s.cell c).logical (some (c, q.code - 1))
      else (s.startCellTest c).leaveRepl c

/-! ### The rows -/

/-- LOAD_HOST. -/
def execLoadHost (m : Master) (s : State) : Host.Outcome State Fault Refusal := finish (s.schedIssue m 1)

/-- LOAD_FLASH. -/
def execLoadFlash (m : Master) (s : State) : Host.Outcome State Fault Refusal := finish (s.schedIssue m 2)

/-- BOOK_DATA. -/
def execBookData (m : Master) (value : Word) (s : State) : Host.Outcome State Fault Refusal :=
  finish (s.onWrite 0x01 (masterCode m) fun s => s.bookWord value)

/-- VERIFY of the stored book. -/
def execSchedVerify (m : Master) (s : State) : Host.Outcome State Fault Refusal := finish (s.schedIssue m 3)

/-- ACTIVATE, warm. -/
def execActivateWarm (m : Master) (s : State) : Host.Outcome State Fault Refusal := finish (s.activate m false)

/-- ACTIVATE, cold. -/
def execActivateCold (m : Master) (s : State) : Host.Outcome State Fault Refusal := finish (s.activate m true)

/-- ACTIVATION_COMPLETE. -/
def execActivationComplete (s : State) : Host.Outcome State Fault Refusal := finish s.activated

/-- CLEAR of the book store. -/
def execSchedClear (m : Master) (s : State) : Host.Outcome State Fault Refusal := finish (s.schedIssue m 5)

/-- RESUME. -/
def execResume (m : Master) (s : State) : Host.Outcome State Fault Refusal := finish (s.schedIssue m 6)

/-- SPARE_IN. -/
def execSpareIn (m : Master) (s : State) : Host.Outcome State Fault Refusal := finish (s.cellCommand m 1)

/-- CELL_TEST. -/
def execCellTest (m : Master) (s : State) : Host.Outcome State Fault Refusal := finish (s.cellCommand m 2)

/-- CELL_TEST_DONE. -/
def execCellTestDone (c : Fin 32) (pass : Bool) (s : State) : Host.Outcome State Fault Refusal :=
  finish (s.cellTestDone c pass)

/-- STORE_SCRUB (R307): an uncorrectable word refuses a pending book and empties an installed copy. -/
def execStoreScrub (err : ScrubResult) (s : State) : Host.Outcome State Fault Refusal :=
  let s := s.setBoard fun b => { b with scrub := 0 }
  match err with
  | .clean => finish s
  | .corrected => finish (s.raise 0x01 5)
  | .uncorrectable =>
    let s := match s.board.bookState with
      | .loading | .loaded | .verifying | .verified => s.bookRefuse 15 0
      | .installed => s.setBoard fun b => { b with bookState := .empty, store := [], storedRead := false, stored := .zero }
      | _ => s
    finish (s.raise 0x01 5)

end Sys2Proof.Machine
end

