-- ==== Sys2Proof/Machine/Coef.lean ====
section
/-! DEFINITION. The loop coefficients: the words of R170 for bandwidth codes 0 to 23 and the four damping codes, worked
out once from its formulas, and the follower's alpha of R172 for codes 24 to 26. -/

namespace Sys2Proof.Machine

/-- A coefficient word: mantissa M and shift X; the coefficient is M × 2^-X (R170). -/
structure Coef where
  m : Nat
  x : Nat
  deriving DecidableEq, Repr

/-- As `KP_ACT` and `KI_ACT` show it: [17:0] M, [30:24] X. -/
def Coef.word (c : Coef) : Word := BitVec.ofNat 32 (c.m + c.x * 2 ^ 24)

/-- A coefficient from its register. -/
def coefOf (w : Word) : Coef := ⟨bits w 17 0, bits w 30 24⟩

/-- DAMP 0, codes 0 to 11: (KP, KI) by bandwidth code. -/
def coefRows0a : List (Coef × Coef) :=
  [(⟨159267, 32⟩, ⟨230773, 61⟩),
   (⟨159267, 31⟩, ⟨230773, 59⟩),
   (⟨199084, 30⟩, ⟨180291, 56⟩),
   (⟨199084, 29⟩, ⟨180291, 54⟩),
   (⟨199084, 28⟩, ⟨180291, 52⟩),
   (⟨248855, 27⟩, ⟨140853, 49⟩),
   (⟨248855, 26⟩, ⟨140853, 47⟩),
   (⟨248855, 25⟩, ⟨140853, 45⟩),
   (⟨155535, 23⟩, ⟨220082, 43⟩),
   (⟨155535, 22⟩, ⟨220082, 41⟩),
   (⟨155535, 21⟩, ⟨220082, 39⟩),
   (⟨194418, 20⟩, ⟨171939, 36⟩)]

/-- DAMP 0, codes 12 to 23: (KP, KI) by bandwidth code. -/
def coefRows0b : List (Coef × Coef) :=
  [(⟨194418, 19⟩, ⟨171939, 34⟩),
   (⟨194418, 18⟩, ⟨171939, 32⟩),
   (⟨243023, 17⟩, ⟨134328, 29⟩),
   (⟨243023, 16⟩, ⟨134328, 27⟩),
   (⟨243023, 15⟩, ⟨134328, 25⟩),
   (⟨151889, 13⟩, ⟨209887, 23⟩),
   (⟨151889, 12⟩, ⟨209887, 21⟩),
   (⟨151889, 11⟩, ⟨209887, 19⟩),
   (⟨189862, 10⟩, ⟨163974, 16⟩),
   (⟨189862, 9⟩, ⟨163974, 14⟩),
   (⟨189862, 8⟩, ⟨163974, 12⟩),
   (⟨237327, 7⟩, ⟨256210, 10⟩)]

/-- DAMP 1, codes 0 to 11: (KP, KI) by bandwidth code. -/
def coefRows1a : List (Coef × Coef) :=
  [(⟨198103, 32⟩, ⟨247867, 62⟩),
   (⟨198103, 31⟩, ⟨247867, 60⟩),
   (⟨247628, 30⟩, ⟨193646, 57⟩),
   (⟨247628, 29⟩, ⟨193646, 55⟩),
   (⟨247628, 28⟩, ⟨193646, 53⟩),
   (⟨154768, 26⟩, ⟨151286, 50⟩),
   (⟨154768, 25⟩, ⟨151286, 48⟩),
   (⟨154768, 24⟩, ⟨151286, 46⟩),
   (⟨193460, 23⟩, ⟨236384, 44⟩),
   (⟨193460, 22⟩, ⟨236384, 42⟩),
   (⟨193460, 21⟩, ⟨236384, 40⟩),
   (⟨241825, 20⟩, ⟨184675, 37⟩)]

/-- DAMP 1, codes 12 to 23: (KP, KI) by bandwidth code. -/
def coefRows1b : List (Coef × Coef) :=
  [(⟨241825, 19⟩, ⟨184675, 35⟩),
   (⟨241825, 18⟩, ⟨184675, 33⟩),
   (⟨151140, 16⟩, ⟨144278, 30⟩),
   (⟨151140, 15⟩, ⟨144278, 28⟩),
   (⟨151140, 14⟩, ⟨144278, 26⟩),
   (⟨188926, 13⟩, ⟨225434, 24⟩),
   (⟨188926, 12⟩, ⟨225434, 22⟩),
   (⟨188926, 11⟩, ⟨225434, 20⟩),
   (⟨236157, 10⟩, ⟨176120, 17⟩),
   (⟨236157, 9⟩, ⟨176120, 15⟩),
   (⟨236157, 8⟩, ⟨176120, 13⟩),
   (⟨147598, 6⟩, ⟨137594, 10⟩)]

/-- DAMP 2, codes 0 to 11: (KP, KI) by bandwidth code. -/
def coefRows2a : List (Coef × Coef) :=
  [(⟨228243, 32⟩, ⟨236900, 65⟩),
   (⟨228243, 31⟩, ⟨236900, 63⟩),
   (⟨142652, 29⟩, ⟨185078, 60⟩),
   (⟨142652, 28⟩, ⟨185078, 58⟩),
   (⟨142652, 27⟩, ⟨185078, 56⟩),
   (⟨178315, 26⟩, ⟨144593, 53⟩),
   (⟨178315, 25⟩, ⟨144593, 51⟩),
   (⟨178315, 24⟩, ⟨144593, 49⟩),
   (⟨222894, 23⟩, ⟨225926, 47⟩),
   (⟨222894, 22⟩, ⟨225926, 45⟩),
   (⟨222894, 21⟩, ⟨225926, 43⟩),
   (⟨139309, 19⟩, ⟨176505, 40⟩)]

/-- DAMP 2, codes 12 to 23: (KP, KI) by bandwidth code. -/
def coefRows2b : List (Coef × Coef) :=
  [(⟨139309, 18⟩, ⟨176505, 38⟩),
   (⟨139309, 17⟩, ⟨176505, 36⟩),
   (⟨174136, 16⟩, ⟨137894, 33⟩),
   (⟨174136, 15⟩, ⟨137894, 31⟩),
   (⟨174136, 14⟩, ⟨137894, 29⟩),
   (⟨217670, 13⟩, ⟨215460, 27⟩),
   (⟨217670, 12⟩, ⟨215460, 25⟩),
   (⟨217670, 11⟩, ⟨215460, 23⟩),
   (⟨136044, 9⟩, ⟨168328, 20⟩),
   (⟨136044, 8⟩, ⟨168328, 18⟩),
   (⟨136044, 7⟩, ⟨168328, 16⟩),
   (⟨170054, 6⟩, ⟨131506, 13⟩)]

/-- DAMP 3, codes 0 to 11: (KP, KI) by bandwidth code. -/
def coefRows3a : List (Coef × Coef) :=
  [(⟨230907, 32⟩, ⟨242462, 67⟩),
   (⟨230907, 31⟩, ⟨242462, 65⟩),
   (⟨144317, 29⟩, ⟨189423, 62⟩),
   (⟨144317, 28⟩, ⟨189423, 60⟩),
   (⟨144317, 27⟩, ⟨189423, 58⟩),
   (⟨180396, 26⟩, ⟨147987, 55⟩),
   (⟨180396, 25⟩, ⟨147987, 53⟩),
   (⟨180396, 24⟩, ⟨147987, 51⟩),
   (⟨225495, 23⟩, ⟨231229, 49⟩),
   (⟨225495, 22⟩, ⟨231229, 47⟩),
   (⟨225495, 21⟩, ⟨231229, 45⟩),
   (⟨140934, 19⟩, ⟨180648, 42⟩)]

/-- DAMP 3, codes 12 to 23: (KP, KI) by bandwidth code. -/
def coefRows3b : List (Coef × Coef) :=
  [(⟨140934, 18⟩, ⟨180648, 40⟩),
   (⟨140934, 17⟩, ⟨180648, 38⟩),
   (⟨176168, 16⟩, ⟨141131, 35⟩),
   (⟨176168, 15⟩, ⟨141131, 33⟩),
   (⟨176168, 14⟩, ⟨141131, 31⟩),
   (⟨220210, 13⟩, ⟨220518, 29⟩),
   (⟨220210, 12⟩, ⟨220518, 27⟩),
   (⟨220210, 11⟩, ⟨220518, 25⟩),
   (⟨137631, 9⟩, ⟨172279, 22⟩),
   (⟨137631, 8⟩, ⟨172279, 20⟩),
   (⟨137631, 7⟩, ⟨172279, 18⟩),
   (⟨172039, 6⟩, ⟨134593, 15⟩)]

/-- The coefficients of a bandwidth code up to 23 (R170). -/
def coefs (bw damp : Nat) : Coef × Coef :=
  let rows := match damp with
    | 0 => coefRows0a ++ coefRows0b
    | 1 => coefRows1a ++ coefRows1b
    | 2 => coefRows2a ++ coefRows2b
    | _ => coefRows3a ++ coefRows3b
  (rows[min bw 23]?).getD (⟨0, 0⟩, ⟨0, 0⟩)

/-- alpha of the follower form, codes 24 to 26 (R172). -/
def followerAlpha (bw : Nat) : Int := if bw = 24 then 71311 else if bw = 25 then 103825 else 128490

/-- The proportional and integral terms of R171 for an error `e` in 2^-8 fine units: p and inc, 2^-80 units; shifts
round towards minus infinity. -/
def piTerms (kp ki : Coef) (e : Int) : Int × Int :=
  (floorDiv (e * kp.m * 16777216) (2 ^ kp.x : Nat), floorDiv (e * ki.m * 16777216) (2 ^ ki.x : Nat))

/-- One step of the proportional-integral filter: the new integrator and y, bounded by `pull` (R171). -/
def piStep (kp ki : Coef) (pull clampSign i e : Int) : Int × Int :=
  let (p, inc) := piTerms kp ki e
  let i' := if clampSign ≠ 0 ∧ inc.sign = clampSign then i else iclamp (i + inc) (-(pull * 16777216)) (pull * 16777216)
  (i', iclamp (roundDiv (i' + p) 16777216) (-pull) pull)

end Sys2Proof.Machine
end

