-- ==== Sys2Proof/Machine/Regress.lean ====
section
/-! DEFINITION. Exact least squares over stamps: the frequency fit of R83, the phase line of R133 and R164, and the
step rule that gives an event its index (R83, R85). -/

namespace Sys2Proof.Machine

/-- Fine units of one stamp-clock period (R11). -/
def finePeriod : Int := 262144

/-- Fine units of one round (R133). -/
def fineRound : Int := 40960000000

/-- Whole steps between two events, the nearest, at least 1; and whether the event slipped (R83). -/
def stepsOf (step dt : Int) : Int × Bool :=
  let k := floorDiv (2 * dt + step) (2 * step)
  let slip := decide (k < 1) || decide (step / 4 < ((dt - k * step).natAbs : Int))
  (if k < 1 then 1 else k, slip)

/-- Sums of a fit: n, Σi, Σr, Σi², Σir, Σr². -/
structure FitSums where
  n : Int
  si : Int
  sr : Int
  sii : Int
  sir : Int
  srr : Int
  deriving DecidableEq, Repr

def FitSums.zero : FitSums := ⟨0, 0, 0, 0, 0, 0⟩

/-- Add one point. -/
def FitSums.add (f : FitSums) (i r : Int) : FitSums :=
  ⟨f.n + 1, f.si + i, f.sr + r, f.sii + i * i, f.sir + i * r, f.srr + r * r⟩

/-- Walk the events of R83 after the first: index, last stamp, sums and the slip flag. -/
def fitWalk (step t0 : Int) : List Int → Int → Int → FitSums → Bool → FitSums × Bool
  | [], _, _, f, sl => (f, sl)
  | t :: ts, last, i, f, sl =>
    let (k, s) := stepsOf step (t - last)
    fitWalk step t0 ts t (i + k) (f.add (i + k) (t - t0 - (i + k) * step)) (sl || s)

/-- The sums over stamps in the order of time (R83). -/
def fitSums (step : Int) : List Int → FitSums × Bool
  | [] => (.zero, false)
  | t :: ts => fitWalk step t ts t 0 (FitSums.zero.add 0 0) false

/-- Numerator and denominator of the slope b (R83). -/
def FitSums.slope (f : FitSums) : Int × Int := (f.n * f.sir - f.si * f.sr, f.n * f.sii - f.si * f.si)

/-- The offset y as an exact ratio: −b / (step + b); `none` with fewer than two events, or a fitted period of 0 or
less (R83). -/
def fitRatio (step : Int) (ts : List Int) : Option (Int × Int) :=
  let (bn, bd) := (fitSums step ts).1.slope
  if bd ≤ 0 then none
  else if step * bd + bn ≤ 0 then none
  else some (-bn, step * bd + bn)

/-- y in units of 2^-`n`, rounded to nearest with ties away from zero. -/
def ratioBits (n : Nat) (r : Int × Int) : Int := roundDiv (r.1 * (2 ^ n : Nat)) r.2

/-- The fit against a nominal period of `num / den` stamp-clock periods, evaluated exactly by scaling the stamps
(R110). -/
def fitNominal (num den : Nat) (ts : List Int) : Option (Int × Int) :=
  if num = 0 ∨ den = 0 then none else fitRatio (num * finePeriod) (ts.map (· * den))

/-- RMS of the residuals about the fitted line, fine units with 8 fractional bits (R83). -/
def fitRms (f : FitSums) : Nat :=
  let (bn, bd) := f.slope
  if bd ≤ 0 then 0
  else
    let ss := f.n * f.srr - f.sr * f.sr
    sqrtRatio (65536 * (ss * bd - bn * bn)).toNat ((f.n * f.n * bd).toNat)

/-- The least-squares line through (time relative to the instant, error), at the instant itself, with 8 fractional
bits (R133, R164); one instant only: the mean. Times and errors come scaled by `den`, the result is not. -/
def lineAt (den : Int) (pts : List (Int × Int)) : Int :=
  let f := pts.foldl (fun f p => f.add p.1 p.2) FitSums.zero
  let d := f.n * f.sii - f.si * f.si
  if d = 0 then roundDiv (256 * f.sr) (f.n * den) else roundDiv (256 * (f.sii * f.sr - f.si * f.sir)) (d * den)

/-- The next event of a time-error series: its index by the step rule, its error against the anchor (R85). -/
def Track.next (tr : Track) (step t : Int) : Track :=
  let i := tr.idx + (stepsOf step (t - tr.lastT)).1
  { tr with lastT := t, idx := i, err := t - tr.anchor - i * step, fresh := true }

/-- The anchor event of a series. -/
def Track.start (t : Int) : Track := { anchor := t, lastT := t, idx := 0, err := 0, fresh := true }

/-- Feed events to a series, collecting (time, error), newest last. -/
def trackFeed (step : Int) : Option Track → List Int → Option Track × List (Int × Int)
  | tr, [] => (tr, [])
  | none, t :: ts =>
    let (r, l) := trackFeed step (some (Track.start t)) ts
    (r, (t, 0) :: l)
  | some tr, t :: ts =>
    let n := tr.next step t
    let (r, l) := trackFeed step (some n) ts
    (r, (t, n.err) :: l)

/-- Fine units of a value in ps, rounded to nearest: 1 ps is 327.68 fine units. -/
def fineOfPs (ps : Int) : Int := roundDiv (ps * 32768) 100

/-- ps of a value in fine units with 8 fractional bits. -/
def psOfFine8 (x : Int) : Int := roundDiv (x * 100) (32768 * 256)

end Sys2Proof.Machine
end

