-- ==== Sys2Proof/Machine/Synth.lean ====
section
/-! DEFINITION. The synthesisers (R196 to R209, R221 to R224): plans, assignment, the word of each round, the follower,
the states, and the squelch of the outputs that a synthesiser drives. -/

namespace Sys2Proof.Machine

/-! ### Plans (R196, R202, R203) -/

/-- Nominal reference frequency, Hz; REF_SRC 3 counts as 0. -/
def Plan.fref (p : Plan) : Nat := if p.refSrc = 1 ∨ p.refSrc = 2 then p.refFreq else 50000000

/-- f_vco_nom in units of 2^-48 Hz. -/
def Plan.fvco (p : Plan) : Nat := p.fref * p.nNom

/-- EPOCH_DIV as used. -/
def Plan.epochs (p : Plan) : Nat := if p.epochDiv = 0 then 1 else p.epochDiv

/-- The plan that the active registers of synthesiser `k` hold. -/
def State.cfgPlan (s : State) (k : Nat) : Plan :=
  let p := synPage k
  { refSrc := if bits (s.cfg p 0) 9 8 = 3 then 0 else bits (s.cfg p 0) 9 8
    refFreq := (s.cfg p 4).toNat
    nNom := (s.cfg p 8).toNat * 2 ^ 48 + (s.cfg p 0x10).toNat * 2 ^ 32 + (s.cfg p 0xC).toNat
    fbDiv := (s.cfg p 0x14).toNat
    num := (s.cfg p 0x18).toNat
    den := (s.cfg p 0x1C).toNat
    epochDiv := (s.cfg p 0x20).toNat }

/-- The plan fails a check of R202; a denominator of 0 gives the period no value. -/
def Plan.bad (p : Plan) : Bool :=
  let exact : Int := 1250000000 * p.fbDiv * 2 ^ 48 * p.den
  decide (p.fvco < 11000000000 * 2 ^ 48) || decide (12800000000 * 2 ^ 48 < p.fvco)
    || ((p.refSrc == 1 || p.refSrc == 2) && (decide (p.refFreq < 10000000) || decide (100000000 < p.refFreq)))
    || decide (2000000 * p.fbDiv * 2 ^ 48 < p.fvco)
    || p.den == 0
    || decide (exact < ((p.num * p.fvco : Nat) - exact).natAbs * 1000000000)

/-- MODE and DOM that the active CFG_SYN of synthesiser `k` asks for: reserved values count as OFF (R197, R222). -/
def State.cfgMode (s : State) (k : Nat) : Nat × Nat :=
  let w := s.cfg (synPage k) 0
  let m := if bits w 1 0 = 3 ∨ 11 < bits w 7 4 then 0 else bits w 1 0
  (m, bits w 7 4)

/-! ### Events of a synthesiser (R206) -/

/-- No band within 2 ms: FAILED, SYN_VCO_RANGE. -/
def State.synFail (s : State) (k : Nat) : State :=
  if (s.syn k).state = .cal then ((s.synTo k .failed).raise (synPage k) 1).squelchSyn k else s

/-- Lock lost: UNLOCKED, outputs squelched, UNLOCKS counted, SYN_UNLOCK. -/
def State.synLose (s : State) (k : Nat) : State :=
  if (s.syn k).state = .locked then
    ((((s.synTo k .unlocked).bump (synPage k) 0xA00).event (synPage k) 1).raise (synPage k) 0)
  else s

/-- No lock within 10 ms: back to CAL. -/
def State.synRelockFail (s : State) (k : Nat) : State :=
  if (s.syn k).state = .unlocked then s.synTo k .cal else s

/-- The follower of member `k` is out of range: FOLLOW_ALIGNED cleared, outputs squelched, SYN_FOLLOW_RANGE (R228). -/
def State.followRange (s : State) (k : Nat) : State :=
  let s := s.setSyn k fun y => { y with followAligned := false, followHold := true, followBad := 0 }
  (s.squelchSyn k).raise (synPage k) 3

/-- Timers of one round: the band search and the wait for lock end. -/
def State.synTimers (s : State) (k : Nat) : State :=
  let y := s.syn k
  if y.left = 0 then s
  else
    let s := s.setSyn k fun y => { y with left := y.left - 1 }
    if y.left = 1 then (if y.state = .cal then s.synFail k else s.synRelockFail k) else s

/-! ### Assignment at a boundary (R200 to R202) -/

/-- The feedback synthesiser that domain `d`'s active CFG_LOOP names. -/
def State.cfgFb (s : State) (d : Nat) : Nat := bits (s.cfg (0x70 + d) 0) 10 8

/-- What the active CFG_SYN asks assigns `k` to `d`. -/
def State.wouldServe (s : State) (k d : Nat) : Bool :=
  s.cfgMode k == (2, d) && !(s.syn k).planErr

/-- The domains that the written assignment leaves without an assigned feedback synthesiser, while the synthesisers that the
domains of `held` follow keep their assignment (R201). -/
def State.fbLacking (s : State) (held : List Nat) : List Nat :=
  (List.range 12).filter fun d =>
    !s.isInit d
      && (!s.wouldServe (s.cfgFb d) d
        || (held.any (fun e => (s.dom e).fbSyn == s.cfgFb d) && !s.member d (s.cfgFb d)))

/-- The domains whose assignment and FB_SYN stay in effect: what one of them keeps may leave another one without. -/
def State.fbHeld (s : State) : List Nat := (List.range 12).foldl (fun held _ => s.fbLacking held) []

/-- Synthesiser `k` keeps its assignment: it is the feedback synthesiser in effect of such a domain. -/
def State.assignKept (s : State) (held : List Nat) (k : Nat) : Bool := held.any fun d => (s.dom d).fbSyn == k

/-- The domain takes a new feedback synthesiser: x_fb re-anchors and the lock count restarts (R168). -/
def State.takeFb (held : List Nat) (s : State) (d : Nat) : State :=
  if held.contains d then s
  else if (s.dom d).fbSyn = s.cfgFb d then s
  else
    let k := s.cfgFb d
    s.setDom d fun x => { x with
      fbSyn := k, fbTrack := none, reanchor := x.state != .init, lockCnt := 0, unlockCnt := 0, fbOff := 0 }

/-- PLAN_ERR of the written plan, while MODE is not OFF (R202). -/
def State.checkPlan (s : State) (k : Nat) : State :=
  let bad := (s.cfgMode k).1 != 0 && (s.cfgPlan k).bad
  let s := s.eventIf (bad && !(s.syn k).planErr) (synPage k) 5
  s.setSyn k fun y => { y with planErr := bad }

/-- MODE, DOM and the plan in effect after the assignment rule, and the state changes they bring. A plan in error leaves
the previous mode and domain in effect with the previous plan (R202, log entry 42). -/
def State.assignSyn (held : List Nat) (s : State) (k : Nat) : State :=
  let y := s.syn k
  let kept := s.assignKept held k
  let s := s.eventIf (kept && !y.assignHeld) (synPage k) 3
  let want := s.cfgMode k
  let md := if kept ∨ y.planErr then (y.mode, y.dom) else if want.1 = 0 then (0, y.dom) else want
  let moved := md ≠ (y.mode, y.dom)
  let s := s.setSyn k fun y => { y with
    assignHeld := kept, mode := md.1, dom := md.2, followAligned := y.followAligned && !moved,
    followI := if moved then 0 else y.followI }
  let pl := s.cfgPlan k
  if y.planErr ∨ (kept ∧ want.1 = 0) then s
  else if md.1 = 0 then
    match y.state with
    | .cal | .settling | .locked | .unlocked => (s.synTo k .off).squelchSyn k
    | _ => s
  else
    let change := decide ((pl.refSrc, pl.nNom, pl.fbDiv) ≠ (y.plan.refSrc, y.plan.nNom, y.plan.fbDiv))
    let s := s.setSyn k fun y => { y with
      plan := pl, fbTrack := if y.plan = pl then y.fbTrack else none, epochOfs := if y.plan = pl then y.epochOfs else 0 }
    match y.state with
    | .off => s.synTo k .cal
    | .cal => if change then s.setSyn k fun y => { y with left := calRounds } else s
    | .settling | .locked | .unlocked => if change then (s.synTo k .cal).squelchSyn k else s
    | _ => s

/-- The profile that SS_CFG asks for, with depth and rate in their ranges, from this boundary on (R208). -/
def State.cfgSpread (s : State) (k : Nat) : Spread :=
  let w := s.cfg (synPage k) 0x28
  let centre := bit w 1
  { centre, depth := if centre then clamp (bits w 15 4) 5 200 else clamp (bits w 15 4) 10 400
    rate := clamp (bits w 27 20) 20 80, since := s.osc.bnd * finePeriod }

/-- The triangle at `t` fine units, as a ratio: 0 at its zero crossing; down spread falls to −1 and returns; centre spread runs
between 1 and −1 and goes to one side first, which the spec leaves open (`up`; log entry 5). A millisecond holds
2^18 × 1,250,000 fine units. -/
def Spread.triangle (q : Spread) (up : Bool) (t : Int) : Int × Int :=
  let n : Int := 2 ^ 18 * 1250000
  let u := ((t - q.since) * q.rate) % n
  if q.centre then
    let v := if 4 * u < n then 4 * u else if 4 * u < 3 * n then 2 * n - 4 * u else 4 * u - 4 * n
    (if up then v else -v, n)
  else (if 2 * u < n then -2 * u else 2 * u - 2 * n, n)

/-- The word that synthesiser `k` runs on at `t`, fine units: the word in effect with the profile that the modulator adds
inside the island (R196, R208). -/
def State.wordAt (s : State) (k : Nat) (t : Int) : Int :=
  let y := s.syn k
  match y.ss with
  | some q =>
    let r := q.triangle (Config.freeInt (0x760 + k) 0 % 2 == 0) t
    y.word + roundDiv (y.word * q.depth * r.1) (10000 * r.2)
  | none => y.word

/-- Spread: applied only to a FREE synthesiser that drives no timing output (R208, R209). -/
def State.spread (s : State) (k : Nat) : State :=
  let en := bit (s.cfg (synPage k) 0x28) 0
  let timing := (List.range 40).any fun j =>
    let w := s.cfg (outPage j) 0
    bit w 0 && bits w 6 4 == k && (bits w 2 1 == 1 || bits w 2 1 == 2)
  let blocked := en && ((s.syn k).mode == 2 || timing)
  let s := s.eventIf (blocked && !(s.syn k).ssBlocked) (synPage k) 2
  let on := en && !blocked && (s.syn k).mode == 1
  let p := s.cfgSpread k
  s.setSyn k fun y => { y with
    ssBlocked := blocked, ssActive := on
    ss := if on then some (match y.ss with | some q => { p with since := q.since } | none => p) else none }

/-- What a boundary does to the synthesisers' assignment; at a swap boundary plans and spread are judged first. -/
def State.synAssign (s : State) (swap : Bool) : State :=
  let s := if swap then (List.range 8).foldl State.checkPlan s else s
  let held := s.fbHeld
  let s := (List.range 8).foldl (State.assignSyn held) s
  let s := (List.range 12).foldl (State.takeFb held) s
  (List.range 8).foldl State.spread s

/-! ### The word (R197 to R200, R221) -/

/-- y_comp of a synthesiser on the crystal: the fractional term of the stamp-clock synthesiser (R198). -/
def State.crystalComp (s : State) : Int :=
  roundDiv (s.osc.tbTerm * 800000000000000 + s.osc.ageNow * 2 ^ 64) (800000000000000 * 256)

/-- y_comp on OSC_A or OSC_B: 1 / (1 + y_osc) − 1 over the stamps of the last 8,000 rounds (R198). -/
def State.oscComp (s : State) (p : Plan) : Option Int :=
  let (h, c) := if p.refSrc = 1 then (s.osc.histA, 44) else (s.osc.histB, 45)
  let n := (s.cfg (0x10 + c) 4).toNat + 1
  match fitNominal (1250000000 * n) p.refFreq (h.map (·.2)).reverse with
  | some (a, b) => if a + b ≤ 0 then none else some (roundDiv (-a * 2 ^ 56) (a + b))
  | none => none

/-- y_comp of synthesiser `k`; without a fit it stays. -/
def State.yCompOf (s : State) (k : Nat) : Int :=
  let y := s.syn k
  if y.plan.refSrc = 1 ∨ y.plan.refSrc = 2 then (s.oscComp y.plan).getD y.yComp else s.crystalComp

/-- y in 2^-56 units from a value in ppt. -/
def unitsOfPpt (v : Int) : Int := roundDiv (v * 2 ^ 56) 1000000000000

/-- The largest magnitude of a frequency command (R167). -/
def yMax : Int := 2 ^ 47 - 1

/-- The follower term of member `k` (R168): the integrator and the proportional part at the present difference. -/
def Syn.followTerm (y : Syn) : Int :=
  let (kp, ki) := coefs 15 2
  let (p, _) := piTerms kp ki y.followPh
  roundDiv (y.followI + p) 16777216

/-- y of synthesiser `k` (R197, R200). -/
def State.yOf (s : State) (k : Nat) : Int :=
  let y := s.syn k
  if y.mode = 1 then unitsOfPpt (sregister (s.cfg (synPage k) 0x24))
  else if y.mode = 2 then
    if s.isInit y.dom then y.y
    else if (s.dom y.dom).fbSyn = k then (s.dom y.dom).yout
    else iclamp ((s.dom y.dom).yout + y.followTerm) (-yMax) yMax
  else y.y

/-- The word of R198. -/
def wordOf (nNom : Nat) (y yComp : Int) : Nat :=
  let yt := y + yComp + floorDiv (y * yComp) (2 ^ 56)
  (nNom + roundDiv (nNom * yt) (2 ^ 56)).toNat % 2 ^ 59

/-- The word of synthesiser `k` is computed in this round: its domain runs, or it is FREE (R221). -/
def State.wordRuns (s : State) (k : Nat) : Bool :=
  match (s.syn k).mode with
  | 1 => true
  | 2 => s.domRuns (s.syn k).dom
  | _ => false

/-- Stage the word of synthesiser `k` for the next boundary. -/
def State.stageWord (s : State) (k : Nat) : State :=
  if s.wordRuns k then
    let y := s.yOf k
    let c := s.yCompOf k
    s.setSyn k fun x => { x with y, yComp := c, staged := some (wordOf x.plan.nNom y c) }
  else s

/-- Step 2 of R23: take the staged word, unless its parity check failed (R199). -/
def State.takeWord (bad : List Nat) (s : State) (k : Nat) : State :=
  match (s.syn k).staged with
  | none => s
  | some w =>
    if bad.contains k then
      (s.setSyn k fun y => { y with staged := none }).report { page := synPage k, bit := 2, atBoundary := true }
    else s.setSyn k fun y => { y with staged := none, word := w }

/-! ### Feedback phase and follower (R164, R168, R204) -/

/-- The feedback phase of synthesiser `k` from the stamps of the drained round, when it has two or more: the index
state, and the phase at the boundary `b` in 2^-8 fine units against the track's anchor. -/
def Syn.fbPhase (y : Syn) (b : Int) : Option (Track × Int) :=
  let den : Int := y.plan.den
  let r := trackFeed (y.plan.num * finePeriod) y.fbTrack (y.fb.map (· * den))
  match r.1 with
  | some tr => if y.fb.length < 2 then none else some (tr, lineAt den (r.2.map fun p => (p.1 - b * den, p.2)))
  | none => none

/-- The stamps that are epochs: feedback events whose number from the first one is `ofs` modulo EPOCH_DIV (R203); newest
first. -/
def epochStamps (step den ofs : Int) (every : Nat) : Option Track → List Int → List Int → List Int
  | _, [], acc => acc
  | tr, t :: ts, acc =>
    let n := match tr with | some tr => tr.next step (t * den) | none => Track.start (t * den)
    epochStamps step den ofs every (some n) ts (if (n.idx - ofs) % every = 0 then t :: acc else acc)

/-- A member becomes aligned: its edge nearest the feedback synthesiser's last epoch becomes one of its own epochs, and its
epoch counter goes on from there (R204). -/
def Syn.alignEpochs (y f : Syn) : Syn :=
  match f.epochs.head?, y.fbTrack with
  | some t, some tr =>
    let i := tr.idx + roundDiv (t * y.plan.den - tr.lastT) (y.plan.num * finePeriod)
    { y with epochOfs := i % y.plan.epochs }
  | _, _ => y

/-- Advance the feedback phase of synthesiser `k` by the drained round. -/
def State.feedFb (s : State) (k : Nat) : State :=
  let y := s.syn k
  match y.fbPhase (s.osc.bnd * finePeriod) with
  | some (tr, x) =>
    let ep := epochStamps (y.plan.num * finePeriod) y.plan.den y.epochOfs y.plan.epochs y.fbTrack y.fb []
    s.setSyn k fun y => { y with fbTrack := some tr, fbX := x, epochs := (ep ++ y.epochs).take 1280 }
  | none => s

/-- Phase of a synthesiser's feedback on the stamp scale, 2^-8 fine units. -/
def Syn.absPhase (y : Syn) : Int :=
  match y.fbTrack with
  | some tr => roundDiv (256 * tr.anchor) y.plan.den + y.fbX
  | none => y.fbX

/-- The difference of two phases reduced to the half period on either side of 0. -/
def wrapPhase (p x : Int) : Int :=
  if p ≤ 0 then x else let r := x.fmod p; if p < 2 * r then r - p else r

/-- One round of the follower of member `k` of domain `d` (R168, R204, R228). -/
def State.follow (s : State) (d k : Nat) : State :=
  let f := s.syn (s.dom d).fbSyn
  let y := s.syn k
  if y.state ≠ .locked ∨ y.fb.length < 2 ∨ f.fb.length < 2 then s
  else
    let period := roundDiv (256 * y.plan.num * finePeriod) y.plan.den
    let e := wrapPhase period (y.absPhase - f.absPhase)
    let (kp, ki) := coefs 15 2
    let (i, _) := piStep kp ki yMax 0 y.followI e
    let small := decide (e.natAbs ≤ 83886080)
    let good := small && f.state == .locked
    let n := if y.followAligned && !small then y.followBad + 1 else 0
    let s := if good && !y.followAligned then s.setSyn k fun y => y.alignEpochs f else s
    let s := s.setSyn k fun y => { y with
      followErr := psOfFine8 e, followPh := e, followI := i, followBad := n, followAligned := y.followAligned || good,
      followHold := y.followHold && !good }
    if 8 ≤ n then s.followRange k else if y.followHold && good then s.unsquelchSyn k else s

/-- Followers and FOLLOW_ALIGNED of one round; the feedback synthesiser always has it (R204). -/
def State.followRound (s : State) (k : Nat) : State :=
  let y := s.syn k
  if y.mode ≠ 2 then s.setSyn k fun y => { y with followAligned := false, followErr := 0, followPh := 0 }
  else if (s.dom y.dom).fbSyn = k then
    s.setSyn k fun y => { y with
      followAligned := true, followErr := 0, followPh := 0, followI := 0, followBad := 0, followHold := false }
  else if s.domRuns y.dom ∧ s.isInit y.dom = false then s.follow y.dom k
  else s

/-- LOCKED_ROUNDS (R222). -/
def State.countLocked (s : State) (k : Nat) : State :=
  if (s.syn k).state = .locked then
    (s.bump (synPage k) 0xA08).setSyn k fun y => { y with lockedFor := min (y.lockedFor + 1) secondRounds }
  else s

/-! ### Commands (R224) -/

/-- Refusals of a SYN command. -/
def State.synChecks (s : State) (k code : Nat) (arg : Word) : Checks :=
  let y := s.syn k
  match code with
  | 1 => { arg := bits arg 7 0 == 0, busy := s.busy (synPage k) || y.sync.isSome, role := s.standby,
           state := y.state != .locked }
  | 2 => { busy := s.busy (synPage k), lock := (s.page (synPage k)).lockCmd,
           state := !(y.state == .failed || y.state == .fenced) || y.planErr }
  | _ => { arg := true }

/-- Issue a SYN command. -/
def State.synCommand (s : State) (k : Nat) (m : Master) (code : Nat) : State :=
  let m := masterCode m
  s.onWrite (synPage k) m fun (s : State) =>
    let arg := s.arg (synPage k) m
    s.submit (synPage k) m code arg (s.synChecks k code arg)

/-- Restart a running output with settings `c` (R215): held until the next qualifying epoch; a move in progress ends. -/
def State.restartOut (s : State) (j : Nat) (c : OutCfg) : State :=
  let b := s.osc.bnd * finePeriod
  ((s.setOut j fun o => { o with
    cfg := c, held := true, starting := true, move := none, sync := false, hit := true, armed := b }).linkOf j).bump
    (outPage j) 0xA08

/-- DIV_SYNC on one of its outputs: one that a stronger cause restarted at this boundary is dropped, one that moves restarts
where it moves to, and any other waits for the common epoch (R216 to R218). -/
def State.syncOut (s : State) (j : Nat) : State :=
  let o := s.out j
  if o.hit then s
  else match o.move with
    | some c => s.restartOut j c
    | none => (s.restartOut j o.cfg).setOut j fun o => { o with sync := true }

/-- DIV_SYNC (R216): every RUN output of the groups that carries no PPS is held for one epoch. -/
def State.divSync (s : State) (k mask : Nat) : State :=
  let s := s.setSyn k fun y => { y with sync := some mask }
  ((List.range 40).filter fun j =>
    (s.out j).state == .run && (s.out j).cfg.syn == k && (s.out j).cfg.src != 1
      && (bits (s.cfg (outPage j) 0) 23 16).land mask != 0).foldl State.syncOut s

/-- A held output starts at the epoch that passes: the first one 1 µs or more after its start was ordered (R205, R215). -/
def Out.begin (o : Out) : Out :=
  { o with starting := false, sync := false, held := false, driverOk := true, driverBad := false
           startFrom := some (o.armed + 1250 * finePeriod) }

/-- The epoch of a DIV_SYNC passes: its outputs start together. -/
def State.syncEpoch (s : State) (k : Nat) : State :=
  if (s.syn k).sync.isSome then
    let s := s.setSyn k fun y => { y with sync := none }
    let s := (s.bump (synPage k) 0xA10).event (synPage k) 4
    ((List.range 40).filter fun j =>
      (s.out j).state == .run && (s.out j).starting && (s.out j).sync && (s.out j).cfg.syn == k).foldl
      (fun s j => (s.setOut j Out.begin).linkOf j) s
  else s

/-- A DIV_SYNC of a trigger, and the pending SYN command, take effect. -/
def State.synApply (s : State) (k : Nat) : State :=
  let s := match (s.syn k).syncTrg with
    | some a => (s.setSyn k fun y => { y with syncTrg := none }).divSync k a
    | none => s
  match (s.page (synPage k)).pend with
  | none => s
  | some q =>
    s.settleCmd (synPage k) (s.synChecks k q.code q.arg).again fun q s =>
      if q.code = 1 then s.divSync k (bits q.arg 7 0) else s.synTo k .cal

/-! ### The rows -/

/-- SYN_CAL_DONE: a band is found; the word of R198 that was taken at the last boundary is applied (R196). -/
def execSynCalDone (k : Fin 8) (band : Fin 32) (s : State) : Host.Outcome State Fault Refusal :=
  finish (if (s.syn k).state = .cal then (s.synTo k .settling).setSyn k fun x => { x with band := band } else s)

/-- SYN_VCO_RANGE. -/
def execSynVcoRange (k : Fin 8) (s : State) : Host.Outcome State Fault Refusal := finish (s.synFail k)

/-- SYN_LOCK: SETTLING or UNLOCKED becomes LOCKED. -/
def execSynLock (k : Fin 8) (s : State) : Host.Outcome State Fault Refusal :=
  finish (if (s.syn k).state = .settling ∨ (s.syn k).state = .unlocked then s.synTo k .locked else s)

/-- SYN_UNLOCK. -/
def execSynUnlock (k : Fin 8) (s : State) : Host.Outcome State Fault Refusal := finish (s.synLose k)

/-- SYN_RELOCK_TIMEOUT. -/
def execSynRelockTimeout (k : Fin 8) (s : State) : Host.Outcome State Fault Refusal := finish (s.synRelockFail k)

/-- SYN_FOLLOW_RANGE: of a member whose FOLLOW_ALIGNED is 1. -/
def execSynFollowRange (k : Fin 8) (s : State) : Host.Outcome State Fault Refusal :=
  finish (if (s.syn k).followAligned ∧ (s.syn k).mode = 2 ∧ (s.dom (s.syn k).dom).fbSyn ≠ k.val then s.followRange k else s)

/-- DIV_SYNC. -/
def execDivSync (k : Fin 8) (m : Master) (s : State) : Host.Outcome State Fault Refusal := finish (s.synCommand k m 1)

/-- DIV_SYNC_EPOCH. -/
def execDivSyncEpoch (k : Fin 8) (s : State) : Host.Outcome State Fault Refusal := finish (s.syncEpoch k)

/-- RETRY of a synthesiser. -/
def execSynRetry (k : Fin 8) (m : Master) (s : State) : Host.Outcome State Fault Refusal := finish (s.synCommand k m 2)

end Sys2Proof.Machine
end

