-- ==== Sys2Proof/Machine/Feedback.lean ====
section
/-! DEFINITION. The feedback phase of a domain (R164 to R166, R231) and its two faults (R195). -/

namespace Sys2Proof.Machine

/-- Register page of domain `d`. -/
def domPage (d : Nat) : Nat := 0x70 + d

/-- Fine units with 8 fractional bits of one round. -/
def round8 : Int := 256 * fineRound

/-- Phase change per round, 2^-8 fine units, at a frequency of `y` units of 2^-56: a faster output comes earlier (R167). -/
def phaseOfY (y : Int) : Int := -roundDiv (y * 10000000) (2 ^ 36)

/-- Frequency in 2^-56 units of a phase change per round (R166). -/
def yOfPhase (dx : Int) : Int := roundDiv (-dx * 2 ^ 36) 10000000

/-- The feedback events of one round: the index state after them, and with two events or more the phase at the boundary
`b` and its change over the round. -/
def fbLine (p : Plan) (tr : Option Track) (stamps : List Int) (b : Int) : Option Track × Option (Int × Int) :=
  let den : Int := p.den
  let r := trackFeed (p.num * finePeriod) tr (stamps.map (· * den))
  let at_ (c : Int) := lineAt den (r.2.map fun q => (q.1 - c * den, q.2))
  (r.1, if stamps.length < 2 then none else some (at_ b, at_ b - at_ (b - fineRound)))

/-- A lone event is the first feedback event after ENABLE: x_fb is anchored there, and follows the frequency command to the
boundary `b` (R165, R166). -/
def State.fbAnchor (s : State) (d : Nat) (tr : Track) (b : Int) : State :=
  let x := s.dom d
  let den : Int := (s.syn x.fbSyn).plan.den
  let x0 := roundDiv (phaseOfY x.yout * (b * den - tr.lastT)) (fineRound * den)
  s.setDom d fun x => { x with fbTrack := some tr, xraw := x0, xfb := if d < 4 then 0 else x0 }

/-- A round without a usable feedback line: x_fb follows the frequency command in force; the second in a row raises
DOM_FB_LOSS and opens the loop (R166, R195). -/
def State.fbMissing (s : State) (d : Nat) : State :=
  let x := s.dom d
  let dx := phaseOfY x.yout
  let n := x.fbLost + 1
  let s := s.setDom d fun x => { x with
    fbLost := n, xraw := x.xraw + dx, dx, slope := dx, xfb := if d < 4 then 0 else x.xfb + dx,
    open_ := x.open_ || n == 2 }
  if n = 2 then s.raise (domPage d) 4 else s

/-- A round with a feedback line. A re-anchored domain continues its phase (R168); the first line after ENABLE starts
from the first feedback event (R165). -/
def State.fbFound (s : State) (d : Nat) (tr : Track) (line slope : Int) : State :=
  let x := s.dom d
  let fresh := x.fbTrack.isNone
  let base := if fresh then (if x.reanchor then x.xraw + slope - line else 0) else x.fbBase
  let xr := base + line
  let dx := if fresh then slope else xr - x.xraw
  let off := decide (2 ^ 56 < 1000000 * (yOfPhase slope - x.yout).natAbs)
  let n := if off then x.fbOff + 1 else 0
  let s := s.setDom d fun x => { x with
    fbTrack := some tr, fbBase := base, xraw := xr, dx, slope, fbLost := 0, fbOff := if n = 8 then 0 else n,
    xfb := if d < 4 then 0 else if fresh && !x.reanchor then xr else x.xfb + dx,
    open_ := (x.open_ && off) || n == 8 }
  if n = 8 then s.raise (domPage d) 5 else s

/-- One round of the feedback phase of domain `d`; a frozen domain's line is extrapolated (R189, R230). -/
def State.fbRound (s : State) (d : Nat) : State :=
  let x := s.dom d
  if x.state = .init then s
  else if s.domRuns d = false then s.setDom d fun x => { x with xraw := x.xraw + x.slope, dx := x.slope }
  else
    let b := s.osc.bnd * finePeriod
    match fbLine (s.syn x.fbSyn).plan x.fbTrack (s.syn x.fbSyn).fb b with
    | (some tr, some (line, slope)) => s.fbFound d tr line slope
    | (some tr, none) =>
      let s := s.fbMissing d
      if x.fbTrack.isSome then s.setDom d fun x => { x with fbTrack := some tr }
      else if x.reanchor then s
      else s.fbAnchor d tr b
    | (none, _) => s.fbMissing d

end Sys2Proof.Machine
end

