-- ==== Sys2Proof/Machine/Output.lean ====
section
/-! DEFINITION. The output channels (R210 to R220, R225 to R228). -/

namespace Sys2Proof.Machine

/-- The prescaler ratio of a PRESCALE code (R226). -/
def prescale (code : Nat) : Nat := ([2, 3, 4, 5, 6, 8][code]?).getD 2

/-- The settings that the active registers of output `j` hold. -/
def State.cfgOut (s : State) (j : Nat) : OutCfg :=
  let w := s.cfg (outPage j) 0
  let d := (s.cfg (outPage j) 4).toNat
  { syn := bits w 6 4, src := bits w 2 1, format := if bits w 10 8 = 7 then 0 else bits w 10 8,
    pre := prescale (bits w 26 24), div := if d = 0 then 1 else d,
    coarse := bits (s.cfg (outPage j) 8) 15 0, fine := bits (s.cfg (outPage j) 8) 22 16 }

/-- The plan an output is judged by: the one in effect, or the written one of a synthesiser that is OFF. -/
def State.outPlan (s : State) (k : Nat) : Plan := if (s.syn k).state = .off then s.cfgPlan k else (s.syn k).plan

/-- CFG_BANK of the bank of output `j`: 0 1.8 V, 1 2.5 V, 2 3.3 V (R225). -/
def State.bankSupply (s : State) (j : Nat) : Nat :=
  let v := bits (s.cfg (outPage (j / 8 * 8)) 0xC) 1 0
  if v = 3 then 0 else v

/-- CFG_ERR of the settings `c` of output `j` (R212): f_out_nom = fvco / (P · D) in units of 2^-48 Hz. The output
frequency of a PPS output does not depend on D, so the frequency codes do not apply to it. -/
def State.outError (s : State) (j : Nat) (c : OutCfg) : Nat :=
  let f := (s.outPlan c.syn).fvco
  let pd := c.pre * c.div
  let hz (n : Nat) := n * 2 ^ 48 * pd
  let y := s.syn c.syn
  if c.src ≠ 1 ∧ hz 2000000000 < f then 1
  else if c.src ≠ 1 ∧ 2 * f < hz 1 then 2
  else if c.src ≠ 1 ∧ 4 ≤ c.format ∧ hz 250000000 < f then 3
  else if c.format = 3 ∧ s.bankSupply j = 0 then 4
  else if c.src = 2 ∧ (j < 32 ∨ f ≠ hz 1250000000) then 5
  else if c.src = 1 ∧ ¬ (y.mode = 2 ∧ y.dom < 4) then 6
  else if y.state = .off ∨ y.planErr then 7
  else if c.src = 3 then 8 else 0

/-- P × D divides FB_DIV × EPOCH_DIV (R205). -/
def OutCfg.divides (c : OutCfg) (p : Plan) : Bool := p.fbDiv * p.epochs % (c.pre * c.div) == 0

/-- The channel carries a TEST, or an output VERIFY uses it (R220). -/
def State.testBusy (s : State) (c : Nat) : Bool :=
  (s.chan c).test.isSome || (List.range 40).any fun j => (s.out j).verifyBusy && 36 + (s.out j).cfg.syn == c

/-- The follower residual between two members of domain `d`, ps (R217). -/
def State.residual (s : State) (d a b : Nat) : Nat :=
  let f := (s.dom d).fbSyn
  if f = a then (s.syn b).followErr.natAbs else if f = b then (s.syn a).followErr.natAbs
  else ((s.syn a).followErr - (s.syn b).followErr).natAbs

/-- A change of settings is a hitless move (R217): what the output carries, its format and its coarse delay stay, and
P × D × T_vco is nominally the same. -/
def State.hitless (s : State) (o c : OutCfg) : Bool :=
  let a := s.syn o.syn
  let b := s.syn c.syn
  a.state == .locked && b.state == .locked && a.mode == 2 && b.mode == 2 && a.dom == b.dom
    && s.member a.dom o.syn && s.member a.dom c.syn && a.followAligned && b.followAligned
    && decide (s.residual a.dom o.syn c.syn ≤ 22)
    && o.pre * o.div * b.plan.fvco == c.pre * c.div * a.plan.fvco
    && o.divides a.plan && c.divides b.plan
    && (o.src, o.format, o.coarse) == (c.src, c.format, c.coarse)

/-- New settings of a running output at a swap boundary (R215, R217). -/
def State.retuneOut (s : State) (j : Nat) (c : OutCfg) : State :=
  let o := s.out j
  if o.move.isSome then s.restartOut j c
  else if o.cfg.syn ≠ c.syn then
    (if s.hitless o.cfg c then
      let b := s.osc.bnd * finePeriod
      s.setOut j fun o => { o with move := some c, armed := b }
    else s.restartOut j c)
  else if (o.cfg.src, o.cfg.format, o.cfg.pre, o.cfg.div, o.cfg.coarse) ≠ (c.src, c.format, c.pre, c.div, c.coarse) then
    s.restartOut j c
  else s.setOut j fun o => { o with cfg := c }

/-- The source of output `j` is LOCKED. -/
def State.sourceLocked (s : State) (j : Nat) : Bool := (s.syn (s.out j).cfg.syn).state == .locked

/-- A WAIT output may start (R213): CFG_ERR 0, source LOCKED, domain not SAFE; never in SYNCING (R327). -/
def State.mayStart (s : State) (j : Nat) : Bool :=
  (s.out j).cfgErr == 0 && s.sourceLocked j && !(s.syn (s.out j).cfg.syn).followHold
    && (match s.outDom j with | some d => !(s.dom d).safe | none => true) && s.pair.role != .syncing

/-- What a swap boundary does to output `j`, in the order of R218. -/
def State.swapOut (s : State) (j : Nat) : State :=
  let w := s.cfg (outPage j) 0
  let c := s.cfgOut j
  let oe := bit w 0
  let err := if oe then s.outError j c else 0
  let s := s.eventIf (err != 0 && err != (s.out j).cfgErr) (outPage j) 1
  let s := s.setOut j fun o => { o with cfgErr := err }
  match (s.out j).state with
  | .off => if oe then (s.setOutState j .wait true).setOut j fun o => { o with cfg := c } else s.setOut j fun o => { o with cfg := c }
  | .fenced => s.setOut j fun o => { o with cfg := c }
  | .run =>
    if !oe then s.setOutState j .off true
    else if err ≠ 0 then (s.setOutState j .wait true).setOut j fun o => { o with cfg := c }
    else s.retuneOut j c
  | _ =>
    if !oe then s.setOutState j .off true
    else s.setOut j fun o => { o with cfg := c, starting := false }

/-- High impedance in OFF only (R214). -/
def State.offLevel (s : State) (j : Nat) : State :=
  let w := s.cfg (outPage j) 0
  s.setOut j fun o => { o with hiz := o.state == .off && !bit w 0 && bit w 12 }

/-- EPOCH_ALIGNED of the settings and the plan in effect (R205). -/
def State.epochsFit (s : State) (j : Nat) : State :=
  s.setOut j fun o => { o with epochAligned := o.cfg.divides (s.outPlan o.cfg.syn) }

/-- What every boundary does to output `j`: DRIVER_OK shows the swing monitor, within limits unless OUT_DRIVER has
reported since the last start (DESIGN CHOICE, log entry 41); a lost source squelches it, a source LOCKED again brings it to WAIT, and a
WAIT output whose conditions hold awaits the first epoch 1 µs after the boundary. -/
def State.outBoundary (swap : Bool) (s : State) (j : Nat) : State :=
  let s := s.setOut j fun o => { o with driverOk := !o.driverBad }
  let s := if (s.out j).state = .run ∧ s.sourceLocked j = false then s.squelch j else s
  let s := if swap then (s.swapOut j).offLevel j else s
  let s := if (s.out j).state = .squelched ∧ s.sourceLocked j ∧ (s.syn (s.out j).cfg.syn).followHold = false then
      s.setOutState j .wait true
    else s
  let s := s.epochsFit j
  if (s.out j).state = .wait then
    let go := s.mayStart j
    let b := s.osc.bnd * finePeriod
    s.setOut j fun o => { o with starting := go, armed := if o.starting then o.armed else b }
  else s

/-- The start epoch of output `j` passes (R205, R215); one that waits for a DIV_SYNC starts with it (R216). -/
def State.startOut (s : State) (j : Nat) : State :=
  let o := s.out j
  if o.starting = false ∨ o.sync = true then s
  else if o.state = .wait then (if s.mayStart j then (s.setOutState j .run false).setOut j Out.begin else s)
  else if o.state = .run ∧ s.sourceLocked j then (s.setOut j Out.begin).linkOf j
  else s

/-- The epoch times of the outputs that started in the ending round, once its feedback stamps are drained (R205). -/
def State.startTime (s : State) (j : Nat) : State :=
  match (s.out j).startFrom with
  | some b =>
    match (s.syn (s.out j).cfg.syn).epochs.reverse.find? fun t => decide (b ≤ t) with
    | some t => s.setOut j fun o => { o with startFrom := none, te := some t }
    | none => s
  | none => s

/-- A period of the VCO, as a ratio in fine units: nominal, f_vco in 2^-48 Hz, 1.25e9 × 2^18 fine units a second. -/
def Plan.vcoPeriod (p : Plan) : Nat × Nat := (1250000000 * 2 ^ 66, p.fvco)

/-- The instant of rising edge `m` at the ball of a CLOCK output, fine units as a ratio (R205): t_e + PATH_DLY + COARSE × T_vco +
FINE + m × P × D × T_vco; 1 ps is 8192 / 25 fine units, and PATH_DLY has 8 fractional bits. -/
def State.clockEdge (s : State) (j m : Nat) : Option (Int × Int) :=
  let o := s.out j
  let (n, f) := (s.syn o.cfg.syn).plan.vcoPeriod
  o.te.map fun t =>
    ((25 * t + 32 * o.pathDly + 8192 * o.cfg.fine) * f + 25 * ((o.cfg.coarse + m * (o.cfg.pre * o.cfg.div)) * n : Nat), 25 * f)

/-- PATH_DLY of output `j` for its format: the factory value with the round's temperature correction, which the spec
bounds to ±10 ps and gives no rule for (log entry 20). -/
def State.pathDelay (s : State) (j : Nat) : Int :=
  tget (fun _ => 0) s.sec.paths (j * 8 + (s.out j).cfg.format) + iclamp (Config.freeInt (0x700 + j) s.free) (-2560) 2560

/-- The board's work of one round on output `j`: PATH_DLY and the VERIFY in progress (R205, R220). -/
def State.outRound (diffs : List (Fin 40 × Nat)) (s : State) (j : Nat) : State :=
  let s := if (s.out j).state = .off then s
    else
      let d := s.pathDelay j
      s.setOut j fun o => { o with pathDly := d }
  if (s.out j).verifyBusy then
    let e := nmax ((diffs.filter fun p => p.1.val == j).map (·.2))
    s.setOut j fun o => { o with verifyMax := max o.verifyMax e, verifyLeft := o.verifyLeft - 1 }
  else s

/-- A VERIFY reaches its count (R220): within ±25 ps it passes. -/
def State.endVerify (s : State) (j : Nat) : State :=
  let o := s.out j
  if o.verifyBusy then
    let fail := decide (6400 < o.verifyMax)
    let s := s.setOut j fun o => { o with
      verifyBusy := false, verifyLeft := 0, verifyErr := o.verifyMax, verifyResult := if fail then 2 else 1 }
    let s := s.event (outPage j) 2
    if fail then (s.bump (outPage j) 0xA18).raise (outPage j) 2 else s
  else s

/-- The VERIFY of output `j` has run its rounds. -/
def State.verifyDue (s : State) (j : Nat) : State :=
  if (s.out j).verifyBusy ∧ (s.out j).verifyLeft = 0 then s.endVerify j else s

/-! ### Commands (R227) -/

/-- Refusals of an OUT command. -/
def State.outChecks (s : State) (j code : Nat) (arg : Word) : Checks :=
  let o := s.out j
  let p := outPage j
  match code with
  | 1 => { arg := bits arg 15 0 < 64, busy := s.busy p || s.testBusy (36 + o.cfg.syn),
           state := o.state != .run || !o.epochAligned || o.cfg.src != 0 }
  | 2 => { busy := s.busy p, role := s.standby, state := o.state != .run }
  | 3 => { busy := s.busy p, lock := (s.page p).lockCmd, state := o.state != .fenced }
  | _ => { arg := true }

/-- Issue an OUT command. -/
def State.outCommand (s : State) (j : Nat) (m : Master) (code : Nat) : State :=
  let m := masterCode m
  s.onWrite (outPage j) m fun (s : State) =>
    let arg := s.arg (outPage j) m
    s.submit (outPage j) m code arg (s.outChecks j code arg)

/-- The pending OUT command takes effect. -/
def State.outApply (s : State) (j : Nat) : State :=
  match (s.page (outPage j)).pend with
  | none => s
  | some q =>
    s.settleCmd (outPage j) (s.outChecks j q.code q.arg).again fun q s =>
      match q.code with
      | 1 => s.setOut j fun o => { o with
          verifyBusy := true, verifyLeft := 2 * ((bits q.arg 15 0 + 63) / 64), verifyMax := 0, verifyResult := 0 }
      | 2 => if (s.out j).hit then s else s.restartOut j ((s.out j).move.getD (s.out j).cfg)
      | _ => s.setOutState j .wait true

/-! ### First reactions (R228) -/

/-- Hold an output where it stands, and keep it held until its next start. -/
def State.holdOut (s : State) (j : Nat) : State :=
  (s.setOut j fun o => { o with held := true, starting := false }).linkOf j

/-- The swing monitor finds the driver out of limits. -/
def State.driverFault (s : State) (j : Nat) : State := (s.holdOut j).setOut j fun o => { o with driverOk := false, driverBad := true }

/-- The divider copies disagree: the output restarts. -/
def State.divFault (s : State) (j : Nat) : State :=
  if (s.out j).state = .run then s.restartOut j ((s.out j).move.getD (s.out j).cfg) else s

/-- A bank supply fails: every output of the bank is held. -/
def State.bankFault (s : State) (b : Nat) : State := ((List.range 8).map (8 * b + ·)).foldl State.holdOut s

/-! ### The rows -/

/-- OUTPUT_START. -/
def execOutputStart (j : Fin 40) (s : State) : Host.Outcome State Fault Refusal := finish (s.startOut j)

/-- MOVE_SWITCH: the driver switches to the move divider (R217). -/
def execMoveSwitch (j : Fin 40) (s : State) : Host.Outcome State Fault Refusal :=
  match (s.out j).move with
  | none => finish s
  | some c =>
    finish (((s.setOut j fun o => { o with
      cfg := c, move := none, startFrom := some (o.armed + 1250 * finePeriod) }).bump (outPage j) 0xA10).event (outPage j) 3)

/-- VERIFY. -/
def execOutVerify (j : Fin 40) (m : Master) (s : State) : Host.Outcome State Fault Refusal := finish (s.outCommand j m 1)

/-- VERIFY_END. -/
def execVerifyEnd (j : Fin 40) (s : State) : Host.Outcome State Fault Refusal := finish (s.endVerify j)

/-- RESTART. -/
def execOutRestart (j : Fin 40) (m : Master) (s : State) : Host.Outcome State Fault Refusal := finish (s.outCommand j m 2)

/-- RETRY of an output. -/
def execOutRetry (j : Fin 40) (m : Master) (s : State) : Host.Outcome State Fault Refusal := finish (s.outCommand j m 3)

end Sys2Proof.Machine
end

