-- ==== Sys2Proof/Machine/Stamp.lean ====
section
/-! DEFINITION. The stamping array (chapter 02): events and dead time, brine queues and their drain, the calibration of
the interpolators, linearity tables, channel tests, states and commands. -/

namespace Sys2Proof.Machine

/-- A_OK and B_OK (R69). -/
def Interp.ok (i : Interp) : Bool := i.accepted && !i.excluded

def Chan.interp (c : Chan) (b : Bool) : Interp := if b then c.b else c.a

def Chan.setInterp (c : Chan) (b : Bool) (f : Interp → Interp) : Chan :=
  if b then { c with b := f c.b } else { c with a := f c.a }

def State.setInterp (s : State) (k : Nat) (b : Bool) (f : Interp → Interp) : State :=
  s.setChan k fun c => c.setInterp b f

/-- The round-timer count of the present round. -/
def State.roundNow (s : State) : Nat := s.osc.count - 1

/-- Interpolator B is active in the round with count `n` (R56). -/
def Chan.activeB (c : Chan) (n : Nat) : Bool := if c.state = .degraded then !c.a.ok else n % 2 == 1

/-! ### States and tests (R64, R66, R67) -/
/-- Exclude interpolator `b` under R64: the state that the channel goes to. SC[47] never leaves RUN: it goes on with both
interpolators and their last accepted calibration. -/
def State.excludeInterp (s : State) (k : Nat) (b : Bool) : State :=
  if k = 47 then s
  else
  let s := s.setInterp k b fun i => { i with excluded := true }
  match (s.chan k).state with
  | .run => s.chTo k .degraded
  | .degraded => s.chTo k .fenced
  | _ => s

/-- An interpolator fails its calibration: excluded, STAMP_CAL_RANGE (R57). -/
def State.calRange (s : State) (k : Nat) (b : Bool) : State :=
  (s.excludeInterp k b).report { page := stampPage k, bit := 0, detail := b2n b }

/-- A TEST of channel `k` has reached its count (R66, R67). Two tests in a row that fail are of two channels: one channel
that fails twice follows R64 again. -/
def State.endTest (s : State) (k : Nat) : State :=
  match (s.chan k).test with
  | none => s
  | some t =>
    let again := s.osc.lastTestFail && s.osc.lastTestChan != k
    let failed := t.failA || t.failB
    let s := s.setOsc fun x => { x with lastTestFail := failed, lastTestChan := k }
    if failed then
      let s := s.closeTest k 2
      if again then s.raise (stampPage 47) 6
      else
        let s := s.setChan k fun c => { c with
          a := { c.a with excluded := c.a.excluded || (t.failA && c.state == .run) }
          b := { c.b with excluded := c.b.excluded || (t.failB && c.state == .run) } }
        let st := if (s.chan k).state = .run ∧ ¬(t.failA ∧ t.failB) then ChState.degraded else .fenced
        (s.chTo k st).raise (stampPage k) 6
    else s.closeTest k 1

/-! ### Events (R43 to R54) -/

/-- EDGE_SEL passes the edge (R43, R69). -/
def State.edgeSelected (s : State) (k : Nat) (falling : Bool) : Bool :=
  match bits (s.cfg (stampPage k) 0) 1 0 with
  | 1 => falling
  | 2 => true
  | _ => !falling

/-- Depth of a brine queue (R52). -/
def queueDepth : Nat := 1024

/-- The event is too early after the last stop edge to be stamped (R47). -/
def Chan.dead (c : Chan) (coarse : Nat) : Bool :=
  match c.lastStop with | some l => decide (coarse ≤ l + 5) | none => false

/-- The feedback divider of channel `k` has a rising edge: its 64-bit counter counts it, whether it is stamped or not. Edges
that no event reports are taken to have come at the nominal period of the plan (log entry 36) (R230). -/
def State.countEdge (s : State) (k coarse : Nat) (falling : Bool) : State :=
  if k < 36 ∨ 44 ≤ k ∨ falling = true then s
  else
    s.setSyn (k - 36) fun y =>
      let n := match y.edgeAt with
        | some c => (stepsOf y.plan.num (((coarse : Int) - c) * y.plan.den)).1.toNat
        | none => 1
      { y with edges := (y.edges + n) % 2 ^ 64, edgeAt := some coarse }

/-- A brine-queue entry as its 128 bits (R49). -/
def Entry.bits128 (k : Nat) (e : Entry) : Nat :=
  let v := e.coarse % 2 ^ 48 * 2 ^ 80 + e.raw % 2 ^ 18 * 2 ^ 62 + k * 2 ^ 56 + b2n e.falling * 2 ^ 55 + b2n e.miss * 2 ^ 51
    + b2n e.ovf * 2 ^ 50 + b2n e.interpB * 2 ^ 49 + e.seq % 256 * 2 ^ 41 + e.missCnt % 512 * 2 ^ 32
  v + Config.entryEcc (v / 256) % 256

/-- Write one entry into the brine queue, or lose it to a full one (R49, R50, R54). -/
def State.writeEntry (s : State) (k coarse raw : Nat) (falling : Bool) : State :=
  let c := s.chan k
  let p := stampPage k
  if queueDepth ≤ c.queue.length then
    ((s.setChan k fun c => { c with lost := true, lastStop := some coarse }).bump p 0xA10).event p 1
  else
    let n := s.roundNow + (coarse - 2 - s.osc.bnd) / roundLen
    let n := if coarse ≤ s.osc.bnd + 1 then n + 1 else n -- of the ending round: only its parity is used
    let e : Entry := { coarse, raw := raw % 2 ^ 18, falling, miss := c.missed != 0, ovf := c.lost,
                       interpB := c.activeB n, seq := c.seq, missCnt := c.missed, degraded := c.state == .degraded
                       edge := if k < 36 then 0 else (s.syn (k - 36)).edges }
    (s.setChan k fun c => { c with
      lastStop := some coarse, queue := c.queue ++ [e], last := some e, seq := (c.seq + 1) % 256, missed := 0,
      lost := false, peak := max c.peak (c.queue.length + 1) }).bump p 0xA00

/-- A selected edge that the pre-divider passes, or counts (R43, R48). -/
def State.stampEdge (s : State) (k coarse raw : Nat) (falling : Bool) : State :=
  let c := s.chan k
  if c.stamping = false ∨ s.osc.running = false ∨ s.edgeSelected k falling = false then s
  else if c.prediv ≠ 0 then s.setChan k fun c => { c with prediv := c.prediv - 1 }
  else
    let s := s.setChan k fun c => { c with prediv := bits (s.cfg (stampPage k) 4) 23 0 }
    if c.dead coarse then
      ((s.setChan k fun c => { c with missed := min (c.missed + 1) 511 }).bump (stampPage k) 0xA08).event (stampPage k) 3
    else s.writeEntry k coarse raw falling

/-! ### Conversion and drain (R51 to R53, R58, R59) -/

/-- Entry of the linearity table in use; both ends are 0. -/
def Interp.linAt (i : Interp) (n : Nat) : Int := if n = 0 then 0 else (i.lin[n - 1]?).getD 0

/-- The calibrated instant of R59, in fine units. -/
def Interp.calibrate (i : Interp) (linEn : Bool) (skew delay : Int) (coarse raw : Nat) : Int :=
  let f := floorDiv ((i.c2 - raw * 64) * 262144) (i.c2 - i.c1)
  let sg := (iclamp (floorDiv f 4096) 0 63).toNat
  let r := f - sg * 4096
  let lin := i.linAt sg + floorDiv ((i.linAt (sg + 1) - i.linAt sg) * r) 4096
  ((coarse : Int) - 2) * finePeriod + (if linEn then f + lin else f) - skew - delay

/-- The calibrated stamp of an entry. -/
def State.stampOf (s : State) (k : Nat) (e : Entry) : Stamp :=
  let c := s.chan k
  { t := (c.interp e.interpB).calibrate (bit (s.cfg (stampPage k) 0) 8) (c.skew + c.warm) (sregister (s.cfg (stampPage k) 8))
      e.coarse e.raw
    miss := e.miss, ovf := e.ovf, degraded := e.degraded, edge := e.edge }

/-- Drain one entry at its place in the queue: ECC, then SEQ, then the calibrated stamp (R50). -/
def State.drainEntry (k : Nat) (ecc : List (Fin 48 × Nat × Bool)) (s : State) (p : Entry × Nat) : State :=
  let hit := ecc.find? fun x => x.1.val == k && x.2.1 == p.2
  let want := (s.chan k).drainSeq
  let s := s.setChan k fun c => { c with drainSeq := (p.1.seq + 1) % 256 }
  match hit with
  | some (_, _, true) =>
    ((s.setChan k fun c => { c with incomplete := true }).bump (stampPage k) 0xA28).raise (stampPage k) 4
  | o =>
    let s := if o.isSome then (s.bump (stampPage k) 0xA20).raise (stampPage k) 3 else s
    if p.1.seq = want then s.setChan k fun c => { c with drained := c.drained ++ [s.stampOf k p.1] }
    else (s.setChan k fun c => { c with incomplete := true }).raise (stampPage k) 5

/-- Entries removed unused (R52). -/
def State.dropEntries (s : State) (k : Nat) (es : List Entry) : State :=
  match es.getLast? with
  | none => s
  | some e =>
    ((s.setChan k fun c => { c with incomplete := true, drainSeq := (e.seq + 1) % 256 }).addCtr (stampPage k) 0xA18
      es.length).event (stampPage k) 2

/-- The caps of R52 and R53. -/
def chanCap : Nat := 256
def roundCap : Nat := 6144

/-- Take the entries of the ending round of one channel, at most `room` of them; answers what room is left. The board
ran in the ending round when `ran`. -/
def State.drainChan (ran : Bool) (ecc : List (Fin 48 × Nat × Bool)) (sr : State × Nat) (k : Nat) : State × Nat :=
  let (s, room) := sr
  let s := s.setChan k fun c => { c with drained := [], took := [], incomplete := c.spoil, spoil := false }
  let q := (s.chan k).queue
  let es := q.filter fun e => decide (e.coarse ≤ s.osc.bnd + 1)
  let rest := q.filter fun e => decide (s.osc.bnd + 1 < e.coarse)
  if ran = false then ((s.setChan k fun c => { c with queue := rest }).dropEntries k es, room)
  else if s.boardRuns = false then (s, room)
  else
    let n := min (min es.length chanCap) room
    let s := s.setChan k fun c => { c with queue := rest, took := es.take n }
    let s := (es.take n).zipIdx.foldl (State.drainEntry k ecc) s
    (s.dropEntries k (es.drop n), room - n)

/-- The order of R53. -/
def drainOrder : List Nat := (List.range 12).map (· + 36) ++ List.range 36

/-- Drain every channel. -/
def State.drainAll (s : State) (ran : Bool) (ecc : List (Fin 48 × Nat × Bool)) : State :=
  (drainOrder.foldl (State.drainChan ran ecc) (s, roundCap)).1

/-! ### Calibration (R56, R57, R60, R508) -/

/-- Rounds of STARTING, and those at its end in which an offence counts. -/
def startingRounds : Nat := 4096
def blameRounds : Nat := 1024

/-- The sums of one idle round of interpolator `b`: the mean codes with 6 fractional bits are the sums of 64 codes. -/
def State.calResult (s : State) (k : Nat) (b : Bool) (c1 c2 : Nat) : State :=
  let c := s.chan k
  let i := c.interp b
  let g : Int := (c2 : Int) - c1
  let last := i.c2 - i.c1
  let starting := c.state == .starting
  if (c.state ≠ .starting ∧ c.state ≠ .run) ∨ i.excluded then s
  else if g < 49152 * 64 ∨ 81920 * 64 < g then
    if starting then s.setInterp k b fun i => { i with blame := max i.blame blameRounds, jumps := 0 }
    else (s.setInterp k b fun i => { i with jumps := 0 }).calRange k b
  else if i.accepted ∧ last < 200 * ((g - last).natAbs : Int) then
    let s := s.bump (stampPage k) 0xA30
    let s := s.setInterp k b fun i => { i with jumps := i.jumps + 1 }
    if starting then
      (if 3 ≤ i.jumps + 1 then s.setInterp k b fun i => { i with blame := max i.blame blameRounds } else s)
    else
      let s := s.report { page := stampPage k, bit := 1, detail := b2n b }
      if 3 ≤ i.jumps + 1 then s.calRange k b else s
  else s.setInterp k b fun i => { i with c1, c2, accepted := true, jumps := 0 }

/-- The new linearity table of a histogram (R60). -/
def linTable (hist : List Nat) : List Int :=
  let total := hist.foldl (· + ·) 0
  (List.range 63).map fun n =>
    let cum := (hist.take (n + 1)).foldl (· + ·) 0
    ((cum * 262144 / total : Nat) : Int) - ((n + 1) * 4096 : Nat)

/-- A histogram of interpolator `b` is complete: its table waits to be adopted, or STAMP_LIN_RANGE excludes it. Without a
single event R60 gives no table: none is computed and nothing is raised (log entry 70). -/
def State.linComplete (s : State) (k : Nat) (b : Bool) : State :=
  let i := (s.chan k).interp b
  let total := i.hist.foldl (· + ·) 0
  let s := s.setInterp k b fun i => { i with hist := [], histRounds := 0 }
  if total = 0 ∨ i.excluded then s
  else
    let t := linTable i.hist
    if t.any fun v => decide (16384 < v.natAbs) then (s.excludeInterp k b).raise (stampPage k) 2
    else s.setInterp k b fun i => { i with linNew := some t }

/-- Rounds of a histogram: 4,096 idle rounds of its interpolator. -/
def linRounds : Nat := 4096

/-- The bin of a code-density event: the segment of f after gain and offset, without the table, its ends taking what lies
outside (R60). -/
def Interp.bin (i : Interp) (raw : Nat) : Nat :=
  (iclamp (floorDiv (floorDiv ((i.c2 - raw * 64) * 262144) (i.c2 - i.c1)) 4096) 0 63).toNat

/-- The code-density events of one idle round; before its first accepted pair an interpolator has no gain to bin them
by. -/
def State.linRound (codes : List (Fin 48 × Nat × Nat)) (s : State) (k : Nat) (b : Bool) : State :=
  let c := s.chan k
  let i := c.interp b
  if (c.state ≠ .starting ∧ c.state ≠ .run) ∨ i.excluded ∨ i.accepted = false then s
  else
    let mine := codes.filter fun x => x.1.val == k
    let s := s.setInterp k b fun i => { i with
      histRounds := i.histRounds + 1
      hist := mine.foldl (fun h x => modAt (· + x.2.2) h (i.bin x.2.1)) (if i.hist = [] then List.replicate 64 0 else i.hist) }
    if linRounds ≤ ((s.chan k).interp b).histRounds then s.linComplete k b else s

/-- The interpolator that becomes active adopts a complete table (R60). -/
def State.linAdopt (s : State) (k : Nat) (b : Bool) : State :=
  match ((s.chan k).interp b).linNew with
  | none => s
  | some t => (s.setInterp k b fun i => { i with lin := t, linNew := none }).event (stampPage k) 6

/-- Largest difference that passes a test: 10 ps, in fine units. -/
def testLimit : Nat := 3276

/-- The instant of a test event as interpolator `b` of channel `k` took it: R59 with the channel's skew. CFG_DELAY is left
out: it refers the input to the far end of its cable, which the test source does not pass (log entry 70). -/
def State.testInstant (s : State) (k : Nat) (b : Bool) (coarse raw : Nat) : Int :=
  let c := s.chan k
  (c.interp b).calibrate (bit (s.cfg (stampPage k) 0) 8) (c.skew + c.warm) 0 coarse raw

/-- A comparison of a test fails: the stamps of channel `k` and of SC[47], whose active interpolator is `b47`, differ by
more than 10 ps (R66). An interpolator that holds no accepted calibration gives a comparison that the spec does not state
(log entry 70). -/
def State.testFails (s : State) (k : Nat) (b b47 : Bool) (p : TestPair) : Bool :=
  if ((s.chan k).interp b).accepted && ((s.chan 47).interp b47).accepted then
    decide (testLimit < (s.testInstant k b p.coarse p.raw - s.testInstant 47 b47 p.coarse47 p.raw47).natAbs)
  else Config.freeInt (0x740 + k) (s.free + p.coarse) % 2 == 0

/-- One round of a TEST: the comparisons of the interpolator `b` that was idle. -/
def State.testRound (pairs : List TestPair) (s : State) (k : Nat) (b : Bool) : State :=
  match (s.chan k).test with
  | none => s
  | some t =>
    let bad := (pairs.filter fun p => p.ch.val == k).any fun p => s.testFails k b (!b) p
    let t := { t with left := t.left - 1, failA := t.failA || (bad && !b), failB := t.failB || (bad && b) }
    let s := (s.setChan k fun c => { c with test := some t }).nextFree
    if t.left = 0 then s.endTest k else s

/-- The end of STARTING (R508). -/
def State.startingEnds (s : State) (k : Nat) : State :=
  let c := s.chan k
  if c.state ≠ .starting then s
  else
    let good (i : Interp) : Bool := i.accepted && i.blame == 0
    let st : ChState := if good c.a ∧ good c.b then .run else if good c.a ∨ good c.b then .degraded else .fenced
    let s := s.setChan k fun c => { c with
      a := { c.a with excluded := !good c.a }, b := { c.b with excluded := !good c.b }, startRounds := 0 }
    let s := (s.chTo k st).setChan k fun c => { c with arming := st != .fenced }
    let s := if good c.a then s else s.report { page := stampPage k, bit := 0, detail := 0 }
    if good c.b then s else s.report { page := stampPage k, bit := 0, detail := 1 }

/-- A completed round of STARTING. -/
def State.startingRound (s : State) (k : Nat) : State :=
  if (s.chan k).state = .starting then
    let s := s.setChan k fun c => { c with startRounds := c.startRounds + 1 }
    if startingRounds ≤ (s.chan k).startRounds then s.startingEnds k else s
  else s

/-- The offences of R508 grow older. -/
def State.blameAges (s : State) (k : Nat) : State :=
  if (s.chan k).state = .starting then
    s.setChan k fun c => { c with a := { c.a with blame := c.a.blame - 1 }, b := { c.b with blame := c.b.blame - 1 } }
  else s

/-- What the board does for channel `k` at a boundary with the measurements of the ending round, whose count was `n`. -/
def State.chanRound (env : RoundEnv) (n : Nat) (s : State) (k : Nat) : State :=
  let c := s.chan k
  let idle := !c.activeB n
  let s := if c.arming then s.setChan k fun c => { c with arming := false, stamping := true, prediv := 0 } else s
  let s := s.blameAges k
  let s := match env.cal.find? fun x => x.1.val == k with
    | some (_, c1, c2) => if c.state = ChState.degraded then s else s.calResult k idle c1 c2
    | none => s
  let s := s.linRound env.codes k idle
  let s := s.testRound env.tests k idle
  let s := s.startingRound k
  s.linAdopt k ((s.chan k).activeB (n + 1))

/-- Channels that have anything to do in a round. -/
def State.liveChans (s : State) : List Nat :=
  (List.range 48).filter fun k => (s.chan k).state != .off || (s.chan k).test.isSome

/-- Stamp work of one boundary of a board that runs: the channels in turn. -/
def State.stampRound (s : State) (env : RoundEnv) (n : Nat) : State := s.liveChans.foldl (State.chanRound env n) s

/-- A change of EDGE_SEL or PREDIV_M1 at a swap boundary restarts the pre-divider (R44); `old` is the state before the
exchange. -/
def State.predivSwap (old s : State) : State :=
  (List.range 48).foldl (fun s k =>
    if bits (old.cfg (stampPage k) 0) 1 0 ≠ bits (s.cfg (stampPage k) 0) 1 0
        ∨ old.cfg (stampPage k) 4 ≠ s.cfg (stampPage k) 4 then s.setChan k fun c => { c with prediv := 0 }
    else s) s

/-! ### Commands (R65) -/

/-- Refusals of a STAMP command. -/
def State.stampChecks (s : State) (k code : Nat) (arg : Word) : Checks :=
  let c := s.chan k
  let busy := s.busy (stampPage k) || c.test.isSome
  let live := c.state == .run || c.state == .degraded
  match code with
  | 1 => { arg := k == 47, busy, state := c.state != .off }
  | 2 => { arg := k == 47, busy, state := c.state == .off || s.chanInUse k }
  | 3 => { arg := decide (32 ≤ k), busy, state := !live }
  | 4 => { arg := k == 47 || decide (bits arg 15 0 < 64), busy, state := !(c.state == .off || c.state == .run) }
  | 5 => { busy, state := !(c.state == .degraded || c.state == .fenced) || s.chanInUse k }
  | 6 => { busy, state := c.state != .run }
  | _ => { arg := true }

/-- Issue a STAMP command. -/
def State.stampCommand (s : State) (k : Nat) (m : Master) (code : Nat) : State :=
  let m := masterCode m
  s.onWrite (stampPage k) m fun (s : State) =>
    let arg := s.arg (stampPage k) m
    s.submit (stampPage k) m code arg (s.stampChecks k code arg)

/-- An interpolator that calibrates from scratch; its linearity table stays in use. -/
def Interp.fresh (i : Interp) : Interp := { Interp.zero with lin := i.lin, linNew := i.linNew }

/-- The channel enters STARTING. -/
def State.startChan (s : State) (k : Nat) : State :=
  (s.chTo k .starting).setChan k fun c => { c with a := c.a.fresh, b := c.b.fresh, startRounds := 0, stamping := false }

/-- The effect of a STAMP command at its boundary. -/
def State.stampEffect (k : Nat) (q : CmdPend) (s : State) : State :=
  match q.code with
  | 1 => s.startChan k
  | 2 => s.chTo k .off
  | 3 => s.setChan k fun c => { c with prediv := 0 }
  | 4 =>
    let n := 2 * ((bits q.arg 15 0 + 63) / 64)
    s.setChan k fun c => { c with test := some { left := n, failA := false, failB := false } }
  | 5 => s.startChan k
  | 6 => s.setChan k fun c => { c with
      a := { c.a with hist := [], histRounds := 0 }, b := { c.b with hist := [], histRounds := 0 } }
  | _ => s

/-- The pending STAMP command takes effect. -/
def State.stampApply (s : State) (k : Nat) : State :=
  match (s.page (stampPage k)).pend with
  | none => s
  | some q => s.settleCmd (stampPage k) { s.stampChecks k q.code q.arg with busy := false }.again (State.stampEffect k)

/-! ### Faults (R71) -/

/-- What a forced or reported STAMP_CAL_RANGE, STAMP_LIN_RANGE or STAMP_TEST_MISMATCH does by the channel's state, and
the DETAIL of its record. -/
def State.stampReact (s : State) (k bit : Nat) : State × Nat :=
  let c := s.chan k
  let idle := !c.activeB s.roundNow
  if bit = 0 ∨ bit = 2 ∨ bit = 6 then
    match c.state with
    | .run => if k = 47 then (s, 0) else (s.excludeInterp k idle, b2n idle)
    | .degraded =>
      let b := c.activeB s.roundNow
      (s.excludeInterp k b, b2n b)
    | .starting => (s.setInterp k idle fun i => { i with blame := startingRounds + 1 }, 0)
    | .off => if bit = 6 ∧ k ≠ 47 then (s.chTo k .fenced, 0) else (s, 0)
    | .fenced => (s, 0)
  else (s, 0)

/-! ### The rows -/

/-- Events reach the channel: the recovered clock of a port only while its clock recovery is locked (R337). -/
def State.reachesChan (s : State) (k : Nat) : Bool := decide (k < 32) || decide (36 ≤ k) || (s.port (k - 32)).cdrLock

/-- STAMP_EVENT. -/
def execStampEvent (ch : Fin 48) (coarse raw : Nat) (falling : Bool) (s : State) : Host.Outcome State Fault Refusal :=
  finish (if s.reachesChan ch then (s.countEdge ch coarse falling).stampEdge ch coarse raw falling else s)

/-- ENABLE of a channel. -/
def execStampEnable (ch : Fin 48) (m : Master) (s : State) : Host.Outcome State Fault Refusal :=
  finish (s.stampCommand ch m 1)

/-- DISABLE of a channel. -/
def execStampDisable (ch : Fin 48) (m : Master) (s : State) : Host.Outcome State Fault Refusal :=
  finish (s.stampCommand ch m 2)

/-- PREDIV_SYNC. -/
def execPredivSync (ch : Fin 48) (m : Master) (s : State) : Host.Outcome State Fault Refusal :=
  finish (s.stampCommand ch m 3)

/-- TEST of a channel. -/
def execStampTest (ch : Fin 48) (m : Master) (s : State) : Host.Outcome State Fault Refusal :=
  finish (s.stampCommand ch m 4)

/-- RETRY of a channel. -/
def execStampRetry (ch : Fin 48) (m : Master) (s : State) : Host.Outcome State Fault Refusal :=
  finish (s.stampCommand ch m 5)

/-- LIN_RESTART. -/
def execLinRestart (ch : Fin 48) (m : Master) (s : State) : Host.Outcome State Fault Refusal :=
  finish (s.stampCommand ch m 6)

/-- STARTING_END. -/
def execStartingEnd (ch : Fin 48) (s : State) : Host.Outcome State Fault Refusal := finish (s.startingEnds ch)

/-- TEST of a channel reaches its count. -/
def execStampTestEnd (ch : Fin 48) (s : State) : Host.Outcome State Fault Refusal := finish (s.endTest ch)

/-- LIN_TABLE_COMPLETE. -/
def execLinTableComplete (ch : Fin 48) (interpB : Bool) (s : State) : Host.Outcome State Fault Refusal :=
  finish (s.linComplete ch interpB)

end Sys2Proof.Machine
end

