-- ==== Sys2Proof/Machine/TimeOfDay.lean ====
section
/-! DEFINITION. Time of day (R229 to R251): the time scales, their sources and the single step, leap seconds, PPS,
triggers and captures. T is kept in 2^-8 fine units, of which a nanosecond holds 83,886,080. -/

namespace Sys2Proof.Machine

/-- One nanosecond and one second of T. -/
def nsUnits : Int := 83886080
def secUnits : Int := 83886080000000000

/-- Register offsets on page 0x09 by time domain, UART and trigger. -/
def utcReg (t : Nat) : Nat := 0x9B0 + 4 * t
def leapReg (t : Nat) : Nat := 0x9C0 + 4 * t
def trgReg (g : Nat) : Nat := 0x920 + 16 * g

/-- TCFG of time domain `t`. -/
def State.tcfg (s : State) (t : Nat) : Word := s.cfg 0x09 (16 * t)

/-- TSRC; 3 counts as 2 (R249). -/
def State.tsrc (s : State) (t : Nat) : Nat := min (bits (s.tcfg t) 1 0) 2

/-- UTC offset in seconds, and UTC_VALID. -/
def State.utcOfs (s : State) (t : Nat) : Int := signed 16 (bits (s.dir 0x09 (utcReg t)) 15 0)
def State.utcValid (s : State) (t : Nat) : Bool := bit (s.dir 0x09 (utcReg t)) 16

/-- T of time domain `t` at a stamp-clock instant in fine units, by the line of the last drained round (R230). -/
def State.timeAt (s : State) (t : Nat) (f : Int) : Int :=
  let u := f - s.osc.bnd * finePeriod
  (s.tdom t).t + 256 * u - roundDiv ((s.dom t).slope * u) fineRound

/-- The stamp-clock instant, fine units after the last boundary, at which T reaches a value, taking the scale's rate
from the line of the last drained round. -/
def State.timeTo (s : State) (t : Nat) (v : Int) : Int :=
  let rate := round8 - (s.dom t).slope
  roundDiv ((v - (s.tdom t).t) * fineRound) rate

/-- The word of a direct control written by the device, whose update wins over a host write of the round. -/
def State.devDir (s : State) (o : Nat) (v : Word) : State :=
  let s := s.setDir 0x09 o v
  { s with time := { s.time with dev := if s.time.dev.contains o then s.time.dev else o :: s.time.dev } }

/-- Set VALID; VALID_CHANGE on a change (R251). -/
def State.setValid (s : State) (t : Nat) (v : Bool) : State :=
  let s := s.eventIf ((s.tdom t).valid != v) 0x09 (4 * t + 1)
  s.setTdom t fun x => { x with valid := v }

/-- The feedback frequency of a domain is a whole number of hertz that divides 10^9 (R231). -/
def Plan.timePlanOk (p : Plan) : Bool :=
  let q := p.fvco / (2 ^ 48 * p.fbDiv)
  p.fvco % (2 ^ 48 * p.fbDiv) == 0 && q != 0 && 1000000000 % q == 0

/-- Fields of LINK_CFG[v] (R271). -/
def State.linkCfg (s : State) (v : Nat) : Word := s.cfg 0x0A (4 * v)
def State.linkDom (s : State) (v : Nat) : Nat := bits (s.linkCfg v) 2 1

/-! ### The scale in each round (R230, R240) -/

/-- ENABLE and TIME_REARM: T0 = 0 at the first feedback edge from now on. -/
def State.anchorTime (s : State) (t : Nat) : State :=
  let n := (s.syn (s.dom t).fbSyn).edges
  s.setTdom t fun x => { x with
    stepped := false, anchor := true, edgeFrom := n, runs := true, autoStep := false, ppsFrom := 0 }

/-- ENABLE of a time domain (R230, R252). -/
def State.timeEnable (s : State) (d : Nat) : State :=
  if d < 4 then (s.anchorTime d).setTdom d fun x => { x with fenced := false } else s

/-- DISABLE, or an F reaction that takes the domain to INIT, clears VALID (R233). -/
def State.timeInit (s : State) (d : Nat) : State :=
  if d < 4 then (s.setValid d false).setTdom d fun x => { x with autoStep := false } else s

/-- Move T by `dt`, and what is kept on its scale with it. -/
def TimeDom.move (x : TimeDom) (dt : Int) : TimeDom :=
  { x with t := x.t + dt, pulses := x.pulses.map fun p => { p with t := p.t + dt } }

/-- A change of T by `dt` at a boundary moves the character grid of a link against its ticks; the scale that the ticks
kept serves until 2 µs after the boundary (R256, R265). `T` holds the new value. -/
def State.gridStep (dt : Int) (t : Nat) (s : State) (v : Nat) : State :=
  if (s.link v).dom = t ∧ dt ≠ 0 then
    let x := s.tdom t
    s.setLink v fun l => { l with
      grid := (((l.grid : Int) + roundDiv dt 1280) % 524288).toNat, tick := -1
      lineEnd := l.lineEnd.map (· + roundDiv dt 1280)
      old := some (l.old.getD { t := x.t - dt, grid := l.grid, tick := l.tick, valid := x.wasValid, sent := false }) }
  else s

/-- The edge count and the event index at the last stamp of the drained round, where the domain's index took it in. -/
def State.edgePair (s : State) (t : Nat) : Option (Nat × Int) :=
  let y := s.syn (s.dom t).fbSyn
  match (s.dom t).fbTrack, y.fbEdge, y.fb.getLast? with
  | some tr, some e, some f => if tr.lastT = f * y.plan.den then some (e.2, tr.idx) else none
  | _, _, _ => none

/-- What the index of the feedback events lacks to the count of the divider since both were last known, in units of T:
stamps that were lost, or not looked at, lose no time (R230). -/
def State.edgeLag (s : State) (t : Nat) : Int :=
  let p := (s.syn (s.dom t).fbSyn).plan
  match (s.tdom t).edges, s.edgePair t with
  | some (n0, i0), some (n, i) =>
    let d : Int := ((n + 2 ^ 64 - n0) % 2 ^ 64 : Nat)
    roundDiv ((d - (i - i0)) * (256 * p.num * finePeriod)) p.den
  | _, _ => 0

/-- T of time domain `t` at the new boundary: nominal, less the change of the feedback phase, by the count of the divider
(R230). -/
def State.timeAdvance (s : State) (t : Nat) : State :=
  let d := s.dom t
  let pair := s.edgePair t
  let lag := s.edgeLag t
  let s := s.setTdom t fun x => { x with edges := if d.fbTrack.isNone then none else if pair.isSome then pair else x.edges }
  if (s.tdom t).extrap then
    s.setTdom t fun x => { x with t := x.t + round8 - x.line, lag := x.lag + x.line - d.dx + lag, extrap := false }
  else s.setTdom t fun x => { x with t := x.t + round8 - d.dx + x.lag + lag, lag := 0, line := d.slope }

/-- Give T the value `v` at the boundary, and the links of the domain its new phase. -/
def State.setTime (s : State) (t : Nat) (v : Int) : State :=
  let dt := v - (s.tdom t).t
  let s := s.setTdom t fun x => { (x.move dt) with base := 0, ppsEnd := 0, extrap := false, lag := 0 }
  (List.range 8).foldl (State.gridStep dt t) s

/-- T0 = 0 at the first feedback edge: the count of the divider says which of its edges the first drained stamp is (R230). -/
def State.takeAnchor (s : State) (t : Nat) (f : Int) : State :=
  let y := s.syn (s.dom t).fbSyn
  let d := s.dom t
  let k : Int := match y.fbEdge with
    | some e => (((e.1 + 2 ^ 64 - (s.tdom t).edgeFrom) % 2 ^ 64 : Nat) : Int) - 1
    | none => 0
  let u := s.osc.bnd * finePeriod - f
  let v := roundDiv (k * (256 * y.plan.num * finePeriod)) y.plan.den + 256 * u - roundDiv (d.slope * u) fineRound
  let pair := s.edgePair t
  (s.setTime t v).setTdom t fun x => { x with anchor := false, line := d.slope, edges := pair }

/-- The boundary at which ENABLE or TIME_REARM takes effect: the count of the divider there, and T as the feedback events so
far predict the first edge (R230, R265; log entry 36). -/
def State.expectAnchor (s : State) (t : Nat) : State :=
  let k := (s.dom t).fbSyn
  let y := s.syn k
  let den : Int := y.plan.den
  let n := (y.edges + 2 ^ 64 - (s.chan (36 + k)).queue.length) % 2 ^ 64
  let v := match y.fbTrack with
    | some tr =>
      let step := y.plan.num * finePeriod
      0 - roundDiv (256 * (step - (s.osc.bnd * finePeriod * den - tr.lastT) % step)) den
    | none => 0
  (s.setTime t v).setTdom t fun x => { x with edgeFrom := n }

/-- T of time domain `t` at the new boundary; `fresh` at the boundary at which ENABLE or TIME_REARM takes effect. While the
domain is INIT its scale runs on, once it has been anchored, with the phase of the feedback in `idle` (log entry 36). -/
def State.timeRound (fresh : Bool) (idle : Int) (s : State) (t : Nat) : State :=
  let d := s.dom t
  let s := s.setTdom t fun x => { x with cnt := s.roundNow % 2 ^ 32, fbPlanErr := !(s.syn d.fbSyn).plan.timePlanOk }
  if fresh then (s.setTdom t fun x => { x with t := x.t + round8 - idle }).expectAnchor t
  else if d.state = .init then
    (if (s.tdom t).runs then s.setTdom t fun x => { x with t := x.t + round8 - idle, edges := none } else s)
  else if (s.tdom t).anchor then
    match (s.syn d.fbSyn).fb with
    | [] => s.setTdom t fun x => { x with t := x.t + round8 - d.dx }
    | f :: _ => s.takeAnchor t f
  else s.timeAdvance t

/-- IN_LEAP ends one second after the leap. -/
def State.leapRound (s : State) (t : Nat) : State :=
  s.setTdom t fun x => { x with inLeap := x.inLeap && decide (x.t < x.leapEnd) }

/-! ### The single step (R238, R239) -/

/-- The stamp channel of the PPS candidate of time domain `t`, when its slot names one. -/
def State.ppsCand (s : State) (t : Nat) : Option Nat :=
  match s.slotCand t (bits (s.tcfg t) 4 2) with
  | some i => if i < 36 then some i else none
  | none => none

/-- Register page of candidate `i`. -/
def qualPage (i : Nat) : Nat := 0x40 + i

def State.qcfg (s : State) (i x : Nat) : Word := s.cfg (qualPage i) x

/-- SAMPLE_LOG2 of client instance `n` (R346, R363). -/
def State.sampleLog (s : State) (n : Nat) : Int := iclamp (signed 4 (bits (s.cfg 0x0B (0x60 + 16 * n)) 19 16)) (-4) 4

/-- The nominal event period in stamp-clock periods, as a ratio (R107, R110). -/
def State.nomOf (s : State) (i : Nat) : Nat × Nat :=
  if i < 36 then ((s.qcfg i 8).toNat, bits (s.qcfg i 0xC) 15 0)
  else (1250000000 * 2 ^ (s.sampleLog (i - 36) + 4).toNat, 16)

/-- `v` less the nearest whole multiple of the period `num / den`. -/
def reduceBy (num den v : Int) : Int :=
  if num ≤ 0 ∨ den ≤ 0 then v else v - roundDiv (roundDiv (v * den) num * num) den

/-- Slot `sl` of domain `d` is enabled with TIME = 1, which REF[32] to REF[35] ignore (R131). -/
def State.timeSlot (s : State) (d sl : Nat) : Bool :=
  bit (s.cfg (domPage d) (0x140 + 8 * sl)) 9
    && match s.slotCand d sl with | some i => decide (i < 32 ∨ 36 ≤ i) | none => false

/-- The step on one slot: p_s takes Δ', the build-out loses it, and the increments of the round leave it out (R239). -/
def State.stepSlot (dt : Int) (d : Nat) (s : State) (sl : Nat) : State :=
  match s.slotCand d sl with
  | none => s
  | some i =>
    if s.timeSlot d sl then
      let e := reduceBy ((s.nomOf i).1 * (256 * finePeriod)) (s.nomOf i).2 dt
      s.setDom d fun x => { x with sel := { x.sel with
        bo := if x.sel.slot = sl ∧ x.sel.valid then x.sel.bo - e else x.sel.bo
        slots := tmod (fun _ => DSlot.zero) x.sel.slots sl fun v =>
          { v with p := v.p.map (· + e), terrs := v.terrs.map fun q => (q.1, q.2.1, q.2.2 + e) } } }
    else s

/-- Add `dt` to T of time domain `t` as R239 fixes; VALID stays 0 while the domain is fenced (R252). -/
def State.stepBy (s : State) (t : Nat) (dt : Int) : State :=
  let s := s.event 0x09 (4 * t)
  let s := s.setTdom t fun x => { (x.move dt) with
    stepped := true, autoStep := false, stepLast := roundDiv dt nsUnits, epoch := (x.epoch + 1) % 65536,
    base := x.base + dt, ppsEnd := x.ppsEnd + dt, ppsFrom := x.t + dt + 1000 * nsUnits }
  let s := (List.range 8).foldl (State.stepSlot dt t) s
  let s := (List.range 8).foldl (State.gridStep dt t) s
  if (s.tdom t).fenced then s else s.setValid t true

/-- STEP_VAL, in units of T. -/
def State.stepVal (s : State) : Int :=
  ((s.dir 0x09 0x918).toNat * 2 ^ 32 + (s.dir 0x09 0x914).toNat : Nat) * secUnits + (s.dir 0x09 0x91C).toNat * nsUnits

/-- STEP_OFS of time domain `t`, in units of T (R249: ps). -/
def State.stepOfs (s : State) (t : Nat) : Int := roundDiv (sregister (s.cfg 0x09 (16 * t + 4)) * nsUnits) 1000

/-- Δ of R238 before rounding; `val` takes STEP_VAL. -/
def State.stepDelta (s : State) (t : Nat) (val : Bool) : Int :=
  if val ∨ s.tsrc t = 2 then s.stepVal - (s.tdom t).t
  else if s.tsrc t = 1 then
    s.stepOfs t - 1280 * (s.client (bits (s.tcfg t) 9 8)).fullOfs
  else
    match (s.tdom t).pulses.find? fun p => p.label.isSome with
    | some p => (p.label.getD 0 : Nat) * secUnits + s.stepOfs t - p.t
    | none => 0

/-- Δ of R238, to the 2^-16 ns that T holds. -/
def State.stepAmount (s : State) (t : Nat) (val : Bool) : Int := 1280 * roundDiv (s.stepDelta t val) 1280

/-- TIME_REARM takes effect (R241). -/
def State.rearm (s : State) (t : Nat) : State :=
  let s := (s.setValid t false).anchorTime t
  let s := s.setTdom t fun x => { x with epoch := (x.epoch + 1) % 65536, armed := false }
  s.devDir (leapReg t) (s.dir 0x09 (leapReg t) &&& ~~~(word (2 ^ 24)))

/-! ### Triggers (R245, R246) -/

/-- TRG_CFG fields. -/
def trgEn (w : Word) : Bool := bit w 0
def trgDom (w : Word) : Nat := bits w 3 2
def trgAction (w : Word) : Nat := bits w 6 4

/-- The instant of trigger `g` and its PERIOD, in units of T. -/
def State.trgInstant (s : State) (g : Nat) : Int :=
  let a := (s.dir 0x09 (trgReg g)).toNat
  let b := bits (s.dir 0x09 (trgReg g + 4)) 15 0
  (b * 2 ^ 32 + a : Nat) * secUnits + (s.dir 0x09 (trgReg g + 8)).toNat * nsUnits
def State.trgPeriod (s : State) (g : Nat) : Nat := bits (s.dir 0x09 (trgReg g + 4)) 31 16

/-- T at which the leap of a LEAP word acts, under a UTC_OFS word (R242). -/
def leapInstantOf (leap utc : Word) : Int :=
  let day : Int := bits leap 23 0
  ((day + 1) * 86400 - (if bit leap 25 then 1 else 0) + signed 16 (bits utc 15 0)) * secUnits

/-- T at which the leap of time domain `t` acts. -/
def State.leapInstant (s : State) (t : Nat) : Int := leapInstantOf (s.dir 0x09 (leapReg t)) (s.dir 0x09 (utcReg t))

/-- An armed leap acts between the present boundary and the instant at which T is `v`. -/
def State.leapAhead (s : State) (t : Nat) (v : Int) : Bool :=
  bit (s.dir 0x09 (leapReg t)) 24 && (s.tdom t).valid && s.utcValid t
    && decide ((s.tdom t).t < s.leapInstant t) && decide (s.leapInstant t ≤ v)

/-- The instant `i` has come when T is `v`; in the UTC view an inserted second lies after 23:59:59 (R242, R245). -/
def State.reached (s : State) (t : Nat) (utc : Bool) (i v : Int) : Bool :=
  let ofs := s.utcOfs t * secUnits
  if utc = false then decide (i ≤ v)
  else if (s.tdom t).inLeap ∧ v < (s.tdom t).leapEnd then decide (i < (s.tdom t).leapEnd - ofs)
  else if s.leapAhead t v then
    (if bit (s.dir 0x09 (leapReg t)) 25 then decide (i ≤ v - ofs + secUnits)
     else if v < s.leapInstant t + secUnits then decide (i < s.leapInstant t - ofs)
     else decide (i ≤ v - ofs - secUnits))
  else decide (i ≤ v - ofs)

/-- Store the instant of a trigger. -/
def State.setTrgInstant (s : State) (g : Nat) (v : Int) : State :=
  let sec := (v / secUnits).toNat
  let s := s.setDir 0x09 (trgReg g) (word sec)
  let s := s.setDir 0x09 (trgReg g + 4) (word (sec / 2 ^ 32 % 65536 + s.trgPeriod g * 65536))
  s.setDir 0x09 (trgReg g + 8) (word ((v % secUnits) / nsUnits).toNat)

/-- A dropped action (R246). -/
def State.trgDrop (s : State) : State := (s.bump 0x09 0xA48).event 0x09 28

/-- Make key slot `k` current, if it is valid (R352, R359). -/
def State.makeCurrent (s : State) (k : Nat) : State := s.setSvc fun x => { x with keyCur := k }
def State.keySlot (s : State) (k : Nat) : KeySlot := tget (fun _ => KeySlot.zero) s.svc.keys k

/-- The action of a firing trigger with TRG_CFG `w`. -/
def State.trgAct (s : State) (w : Word) : State :=
  let k := bits w 10 8
  let a := bits w 23 16
  match trgAction w with
  | 1 =>
    if s.standby ∨ (s.syn k).state ≠ .locked ∨ (s.syn k).sync.isSome ∨ (s.syn k).syncTrg.isSome then s.trgDrop
    else s.setSyn k fun y => { y with syncTrg := some a }
  | 2 => s.setSys fun x => { x with swapTrg := true }
  | 3 =>
    if 3 < a then s
    else if s.standby ∨ (s.keySlot a).valid = false then s.trgDrop else s.makeCurrent a
  | _ => s

/-- The registers of trigger `g` as the board last read them (R24). -/
def State.trgRead (s : State) (g : Nat) : TrgRead := tget (fun _ => TrgRead.zero) s.time.trgs g

/-- Trigger `g` fires at this boundary, by the registers that the board read at the start of the ending round: its action,
then EN cleared or the instant advanced by PERIOD. The update of EN ends the round of the decision and wins over a write
made in it (R245, R246). -/
def State.trgFire (s : State) (g : Nat) (late : Bool) : State :=
  let r := s.trgRead g
  let s := (s.bump 0x09 0xA40).event 0x09 (16 + g)
  let s := s.trgAct r.cfg
  let cfg := (s.dir 0x09 (trgReg g + 12)) &&& ~~~(word (2 ^ 24)) ||| (if late then word (2 ^ 24) else 0)
  if r.period = 0 then s.setDir 0x09 (trgReg g + 12) (cfg &&& ~~~(1 : Word))
  else (s.setDir 0x09 (trgReg g + 12) cfg).setTrgInstant g (r.instant + r.period * secUnits)

/-- The decision of R246 for trigger `g`, at the start of a round, for the boundary that ends it; `on` says that the board
had found it enabled before. -/
def State.trgDecide (on : Bool) (s : State) (g : Nat) : State :=
  let r := s.trgRead g
  let t := trgDom r.cfg
  let now := (s.tdom t).t
  let utc := bit r.cfg 1
  let due := trgEn r.cfg && (s.tdom t).valid && s.reached t utc r.instant (now + round8 - (s.dom t).slope)
  let late := !on && s.reached t utc r.instant now
  if due then { s with time := { s.time with fire := s.time.fire ++ [(g, late)] } } else s

/-- The board reads the registers of trigger `g`, and decides. -/
def State.trgRound (s : State) : State :=
  (List.range 8).foldl (fun (s : State) (g : Nat) =>
    let on := trgEn (s.trgRead g).cfg
    let r : TrgRead := { cfg := s.dir 0x09 (trgReg g + 12), instant := s.trgInstant g, period := s.trgPeriod g }
    ({ s with time := { s.time with trgs := tput (fun _ => TrgRead.zero) s.time.trgs g r } }).trgDecide on g) s

/-- A step passed the instant of trigger `g`, as the board read it: a one-shot trigger is to fire at this boundary with LATE,
a periodic one moves by whole periods (R245); `old` is T at the boundary before the step. -/
def State.trgStep (t : Nat) (old : Int) (s : State) (g : Nat) : State :=
  let r := s.trgRead g
  let now := (s.tdom t).t
  let utc := bit r.cfg 1
  if trgEn r.cfg ∧ trgDom r.cfg = t ∧ s.reached t utc r.instant now ∧ s.reached t utc r.instant old = false then
    if r.period = 0 then
      { s with time := { s.time with fire := s.time.fire.filter (fun q => q.1 != g) ++ [(g, true)] } }
    else
      let v := if utc then now - s.utcOfs t * secUnits else now
      let p := r.period * secUnits
      let i := r.instant - ((r.instant - v) / p) * p
      let s := s.setTrgInstant g i
      { s with time := { s.time with
        fire := s.time.fire.filter fun q => q.1 != g
        trgs := tput (fun _ => TrgRead.zero) s.time.trgs g { r with instant := i } } }
  else s

/-- Fire what is due at this boundary, in index order. -/
def State.trgFireAll (s : State) : State :=
  let due := (List.range 8).filterMap fun g => s.time.fire.find? fun q => q.1 == g
  let s := { s with time := { s.time with fire := [] } }
  due.foldl (fun s q => s.trgFire q.1 q.2) s

/-! ### Sources (R234 to R237, R240) -/

/-- One label compared with T after the step: SRC_MISMATCH (R240); `e` is T less the label. -/
def State.srcCompare (s : State) (t : Nat) (e : Int) : State :=
  let sub := e - roundDiv e secUnits * secUnits
  if (s.tdom t).stepped ∧ (roundDiv e secUnits ≠ 0 ∨ ((s.cfg 0x09 (16 * t + 12)).toNat : Int) * nsUnits < sub.natAbs) then
    (s.bump 0x09 0xA50).event 0x09 (4 * t + 3)
  else s

/-- The source of domain `t` has labelled a pulse. -/
def State.labelled (s : State) (t : Nat) (p : Pulse) : State :=
  match p.label with
  | some l => s.srcCompare t (p.t - l * secUnits)
  | none => s

/-- A new pulse of the candidate: it takes the label that waits for the next pulse. -/
def State.newPulse (t : Nat) (s : State) (v : Int) : State :=
  let p : Pulse := { t := v, label := (s.tdom t).nextLabel }
  let s := s.setTdom t fun x => { x with nextLabel := none, pulses := (p :: x.pulses).take 8 }
  s.labelled t p

/-- CONFIRM of a UART, 2 to 7 (R249). -/
def State.confirm (s : State) (u : Nat) : Nat := clamp (bits (s.cfg 0x09 (0x40 + 4 * u)) 10 8) 2 7

/-- The last `n` pulses are labelled, rising by exactly 1 s (R237). -/
def labelsRise : Nat → List Pulse → Bool
  | 0, _ => true
  | 1, p :: _ => p.label.isSome
  | n + 1, p :: q :: r =>
    (match p.label, q.label with
     | some a, some b => a == b + 1
     | _, _ => false) && labelsRise n (q :: r)
  | _, _ => false

/-- A PTP client instance gives valid time to its domain (R347). -/
def State.clientOk (s : State) (i : Nat) : Bool :=
  let c := s.client i
  c.state == .slave && decide (16 ≤ c.samples)
    && (match c.parent with | some a => a.ptpTimescale && a.timeTraceable | none => false)
    && (s.qual (36 + i)).state == .qualified

/-- SRC_OK of time domain `t` (R237). -/
def State.srcOkOf (s : State) (t : Nat) : Bool :=
  match s.tsrc t with
  | 0 =>
    (match s.ppsCand t with
     | some i => (s.qual i).state == .qualified
     | none => false) && labelsRise (s.confirm (bits (s.tcfg t) 7 6)) (s.tdom t).pulses
  | 1 => s.clientOk (bits (s.tcfg t) 9 8)
  | _ => true

/-- AUTO_STEP is due (R238): the domain LOCKED, SRC_OK 1, STEPPED 0. -/
def State.autoStepDue (s : State) (t : Nat) : Bool :=
  bit (s.tcfg t) 12 && (s.dom t).state == .locked && (s.tdom t).srcOk && !(s.tdom t).stepped && !(s.tdom t).fbPlanErr
    && !s.standby

/-- The AUTO_STEP of time domain `t` acts at the next boundary. -/
def State.armAutoStep (s : State) (t : Nat) : State :=
  if s.autoStepDue t then s.setTdom t fun x => { x with autoStep := true } else s

/-- The board's work on the source of time domain `t`: new pulses, SRC_OK, AUTO_STEP; in every state of the domain
(R237). -/
def State.sourceRound (s : State) (t : Nat) : State :=
  let s :=
    if s.tsrc t = 0 then
      match s.ppsCand t with
      | some i =>
        if (s.qual i).suspect then s
        else ((s.chan i).drained.map fun x => s.timeAt t x.t).foldl (State.newPulse t) s
      | none => s
    else s
  let s := s.setTdom t fun x => { x with srcOk := s.srcOkOf t }
  s.armAutoStep t

/-! ### UART messages (R234 to R236) -/

/-- Days from 1970-01-01 of a date of the Gregorian calendar. -/
def dayNumber (y m d : Nat) : Nat :=
  let y' := if m ≤ 2 then y - 1 else y
  let m' := if m ≤ 2 then m + 9 else m - 3
  365 * y' + y' / 4 - y' / 100 + y' / 400 + (153 * m' + 2) / 5 + d - 719469

/-- The value of decimal digits; `none` when there are none or another character stands among them. -/
def decDigits (l : List Nat) : Option Nat :=
  if l = [] ∨ l.any (fun c => c < 0x30 || 0x39 < c) then none else some (l.foldl (fun a c => a * 10 + (c - 0x30)) 0)

/-- The value of one hexadecimal digit. -/
def hexDigit (c : Nat) : Option Nat :=
  if 0x30 ≤ c ∧ c ≤ 0x39 then some (c - 0x30) else if 0x41 ≤ c ∧ c ≤ 0x46 then some (c - 0x37)
  else if 0x61 ≤ c ∧ c ≤ 0x66 then some (c - 0x57) else none

/-- Split at a separator. -/
def splitAt_ (sep : Nat) : List Nat → List (List Nat)
  | [] => [[]]
  | c :: t =>
    if c = sep then [] :: splitAt_ sep t
    else
      match splitAt_ sep t with
      | [] => [[c]]
      | h :: r => (c :: h) :: r

/-- hhmmss, with a fraction of zero at most: seconds of the day. -/
def clockField (f : List Nat) : Option Nat :=
  let frac := f.drop 6
  if frac ≠ [] ∧ (frac.head? ≠ some 0x2E ∨ (frac.drop 1).any (· != 0x30)) then none
  else
    match decDigits (slice f 0 2), decDigits (slice f 2 2), decDigits (slice f 4 2) with
    | some h, some m, some x =>
      if f.length < 6 ∨ 23 < h ∨ 59 < m ∨ 60 < x then none else some (h * 3600 + m * 60 + x)
    | _, _, _ => none

/-- A ZDA message: UTC seconds since 1970 (R234). Bytes after the checksum (CR and LF) are ignored. -/
def zdaSeconds (bs : List Nat) : Option Nat :=
  match splitAt_ 0x2A (bs.drop 1) with
  | body :: tail :: _ =>
    let sum := body.foldl Nat.xor 0
    match hexDigit ((tail[0]?).getD 0), hexDigit ((tail[1]?).getD 0) with
    | some a, some b =>
      if bs.head? ≠ some 0x24 ∨ a * 16 + b ≠ sum then none
      else
        match splitAt_ 0x2C body with
        | tag :: time :: dd :: mm :: yy :: _ =>
          if tag.length ≠ 5 ∨ tag.drop 2 ≠ [0x5A, 0x44, 0x41] ∨ (tag.take 2).any (fun c => c < 0x41 || 0x5A < c) then none
          else
            match clockField time, decDigits dd, decDigits mm, decDigits yy with
            | some c, some d, some m, some y =>
              if m < 1 ∨ 12 < m ∨ d < 1 ∨ 31 < d ∨ y < 1970 then none else some (dayNumber y m d * 86400 + c)
            | _, _, _, _ => none
        | _ => none
    | _, _ => none
  | _ => none

/-- A Lanyn binary frame that passes its checks (R236): flags, TAI seconds, UTC offset. -/
def binaryFrame (bs : List Nat) : Option (Nat × Nat × Nat) :=
  if bs.length = 16 ∧ slice bs 0 3 = [0xA5, 0x4C, 0x01] ∧ crcMsb 16 0x1021 0xFFFF (slice bs 0 14) = beNat (slice bs 14 2) then
    some ((bs[3]?).getD 0 % 16, beNat (slice bs 4 6), beNat (slice bs 10 2))
  else none

/-- Attach a label to the next pulse, or to the previous one (R235). -/
def State.putLabel (prev : Bool) (label : Nat) (s : State) (t : Nat) : State :=
  if prev then
    match (s.tdom t).pulses with
    | p :: r =>
      let p := { p with label := some label }
      (s.setTdom t fun x => { x with pulses := p :: r }).labelled t p
    | [] => s
  else s.setTdom t fun x => { x with nextLabel := some label }

/-- The time domains that take UART `u`. -/
def State.uartDoms (s : State) (u : Nat) : List Nat :=
  (List.range 4).filter fun t => s.tsrc t == 0 && bits (s.tcfg t) 7 6 == u && (s.ppsCand t).isSome

def State.setUartRx (s : State) (u : Nat) (v : Word) : State :=
  { s with time := { s.time with uart := tput (fun _ => 0) s.time.uart u v } }
def State.uartRx (s : State) (u : Nat) : Word := tget (fun _ => 0) s.time.uart u

/-- A discarded message. -/
def State.uartError (s : State) (u : Nat) : State :=
  let s := s.setUartRx u (s.uartRx u &&& ~~~(word (2 ^ 24)))
  (s.bump 0x09 (0xA20 + 8 * u)).event 0x09 29

/-- A matched message. -/
def State.uartGood (s : State) (u : Nat) : State :=
  (s.setUartRx u (s.uartRx u ||| word (2 ^ 24))).bump 0x09 (0xA00 + 8 * u)

/-- UART_MESSAGE: `afterUs` since the last pulse and `beforeUs` until the next, when its last byte arrives. -/
def execUartMessage (u : Fin 4) (bytes : List Byte) (afterUs beforeUs : Nat) (s : State) :
    Host.Outcome State Fault Refusal :=
  let u := u.val
  let bs := bytes.map BitVec.toNat
  let w := s.cfg 0x09 (0x40 + 4 * u)
  let prev := bit w 5
  let inWindow := decide (10000 < afterUs) && decide (10000 < beforeUs)
  let ds := s.uartDoms u
  if bit w 4 then
    match binaryFrame bs with
    | some (fl, tai, ofs) =>
      let rx := s.setUartRx u (word (ofs + fl * 65536 + 2 ^ 24))
      if inWindow = false ∨ ds = [] then finish (s.uartError u)
      else if fl % 2 = 0 then finish rx
      else finish (ds.foldl (State.putLabel prev tai) (rx.uartGood u))
    | none => finish (s.uartError u)
  else
    match zdaSeconds bs with
    | some utc =>
      let ok := ds.filter fun t => s.utcValid t
      if inWindow = false ∨ ok = [] then finish (s.uartError u)
      else finish (ok.foldl (fun s t => s.putLabel prev ((utc : Int) + s.utcOfs t).toNat t) (s.uartGood u))
    | none => finish (s.uartError u)

/-! ### Leap seconds (R242) -/

/-- Clear LEAP.ARM. -/
def State.disarm (s : State) (t : Nat) : State :=
  (s.devDir (leapReg t) (s.dir 0x09 (leapReg t) &&& ~~~(word (2 ^ 24)))).setTdom t fun x => { x with armed := false }

/-- The armed instant comes; `missed` when it had passed before ARM took effect. -/
def State.takeLeap (s : State) (t : Nat) (missed : Bool) : State :=
  if missed ∨ (s.tdom t).valid = false ∨ s.utcValid t = false then (s.disarm t).event 0x09 30
  else
    let del := bit (s.dir 0x09 (leapReg t)) 25
    let i := s.leapInstant t
    let ofs := s.utcOfs t + (if del then -1 else 1)
    let s := s.devDir (utcReg t) (word ((ofs % 65536).toNat + 65536))
    let s := if del then s else s.setTdom t fun x => { x with inLeap := true, leapEnd := i + secUnits }
    (s.disarm t).event 0x09 (4 * t + 2)

/-- The leap logic of one round: ARM as read at its start. -/
def State.leapCheck (s : State) (t : Nat) : State :=
  if bit (s.dir 0x09 (leapReg t)) 24 then
    if s.leapInstant t ≤ (s.tdom t).t then s.takeLeap t (!(s.tdom t).armed)
    else s.setTdom t fun x => { x with armed := true }
  else s.setTdom t fun x => { x with armed := false }

/-! ### Captures (R247) -/

/-- Post a capture. -/
def State.postCap (s : State) (c t : Nat) (f : Int) : State :=
  let v := s.timeAt t f
  let nv := !(s.tdom t).valid
  let s := { s with time := { s.time with
    caps := tmod (fun _ => Capture.zero) s.time.caps c fun x =>
      { t := floorDiv v 1280, seq := (x.seq + 1) % 65536, dom := t, overwrite := x.unread, novalid := nv,
        unread := true } } }
  s.event 0x09 (24 + c)

/-- Capture unit `c` on the stamps of the drained round. -/
def State.capRound (s : State) (c : Nat) : State :=
  let w := s.dir 0x09 (0x9A0 + 4 * c)
  let ch := bits w 5 0
  let st := (s.chan ch).state
  if bit w 12 = false ∨ 46 < ch ∨ ¬ (st = .run ∨ st = .degraded) then s
  else if bit w 13 then
    match (s.chan ch).drained.getLast? with
    | some x => s.postCap c (bits w 9 8) x.t
    | none => s
  else
    match (s.chan ch).drained with
    | x :: _ => (s.postCap c (bits w 9 8) x.t).devDir (0x9A0 + 4 * c) (w &&& ~~~(word (2 ^ 12)))
    | [] => s

/-! ### Commands (R248) -/

/-- Refusals of a TIME command. -/
def State.timeChecks (s : State) (code : Nat) (arg : Word) : Checks :=
  let t := bits arg 1 0
  let x := s.tdom t
  match code with
  | 1 => { busy := s.busy 0x09, lock := (s.page 0x09).lockCmd, role := s.standby,
           state := x.stepped || (s.dom t).state != .locked || x.fbPlanErr || (!bit arg 4 && !s.srcOkOf t) }
  | 2 => { busy := s.busy 0x09, role := s.standby, state := !x.stepped }
  | _ => { arg := true }

/-- Issue a TIME command. TIME_REARM is proposed, then countersigned; the countersigned change waits for the boundary
(R241). -/
def State.timeCommand (s : State) (m : Master) (code : Nat) : State :=
  let m := masterCode m
  s.onWrite 0x09 m fun (s : State) =>
    let arg := s.arg 0x09 m
    let c := s.timeChecks code arg
    if code = 2 then s.twoParty 0x09 m 2 arg c [] true fun _ s => s else s.submit 0x09 m code arg c

/-- The pending TIME command takes effect at its boundary. -/
def State.timeApply (s : State) : State :=
  match (s.page 0x09).pend with
  | none => s
  | some q =>
    s.settleCmd 0x09 (s.timeChecks q.code q.arg).again fun q s =>
      let t := bits q.arg 1 0
      if q.code = 1 then
        let old := (s.tdom t).t
        (List.range 8).foldl (State.trgStep t old) (s.stepBy t (s.stepAmount t (bit q.arg 4)))
      else s.rearm t

/-- The AUTO_STEP that was armed takes effect at its boundary. -/
def State.autoApply (s : State) (t : Nat) : State :=
  if (s.tdom t).autoStep then
    let s' := s.setTdom t fun x => { x with autoStep := false }
    if (s.timeChecks 1 (word t)).state then s'
    else
      let old := (s.tdom t).t
      (List.range 8).foldl (State.trgStep t old) (s'.stepBy t (s'.stepAmount t false))
  else s

/-! ### The rows -/

/-- STEP_TIME. -/
def execStepTime (m : Master) (s : State) : Host.Outcome State Fault Refusal := finish (s.timeCommand m 1)

/-- TIME_REARM. -/
def execTimeRearm (m : Master) (s : State) : Host.Outcome State Fault Refusal := finish (s.timeCommand m 2)

/-- AUTO_STEP. -/
def execAutoStep (t : Fin 4) (s : State) : Host.Outcome State Fault Refusal := finish (s.armAutoStep t)

/-- Output `j` carries the pulses of time domain `t` (R243). -/
def State.ppsOut (s : State) (t j : Nat) : Bool :=
  (s.out j).cfg.src == 1 && (s.out j).state == .run && !(s.out j).held && s.member t (s.out j).cfg.syn

/-- The instant at the feedback tap at which T reaches `v`, fine units (R243). -/
def State.tapInstant (s : State) (t : Nat) (v : Int) : Int := s.osc.bnd * finePeriod + s.timeTo t v

/-- The rising edge of a pulse at the ball of output `j`, for the instant `f` at the feedback tap (R243): t_s + PATH_DLY +
COARSE × T_vco + FINE. The generator takes the prescaler edge at or before it, of those that follow the epoch time by whole
periods P × T_vco, and the vernier, 0 to 1,023 ps, makes up the rest. -/
def State.ppsEdge (f : Int) (s : State) (j : Nat) : State :=
  let o := s.out j
  let (n, d) := (s.syn o.cfg.syn).plan.vcoPeriod
  let ideal := 256 * f + o.pathDly + roundDiv (256 * 8192 * o.cfg.fine) 25 + roundDiv (256 * (o.cfg.coarse * n : Nat)) d
  let place := o.te.map fun e =>
    let period : Int := (o.cfg.pre * n : Nat)
    let m := floorDiv ((f - e) * d) period
    let rest := (f - e) * d - m * period
    let ver := clamp (roundDiv (rest * 25) (8192 * d)).toNat 0 1023
    (ideal - roundDiv (256 * rest) d + roundDiv (256 * 8192 * ver) 25, ver)
  s.setOut j fun o => { o with ppsAt := some ((place.map (·.1)).getD ideal), vernier := place.map (·.2) }

/-- PPS_PULSE: T reaches its next whole second, and a pulse of PPS_WIDTH starts (R243, R244). -/
def execPpsPulse (t : Fin 4) (s : State) : Host.Outcome State Fault Refusal :=
  let x := s.tdom t
  let i := (floorDiv x.t secUnits + 1) * secUnits
  let wd := clamp (bits (s.cfg 0x09 (16 * t + 8)) 23 0) 1 9000000
  if s.isInit t ∨ x.anchor ∨ (bit (s.tcfg t) 13 ∧ x.valid = false) ∨ i < x.ppsFrom ∨ i < x.ppsEnd then finish s
  else
    let s := s.setTdom t fun x => { x with pps := x.pps + 1, ppsEnd := i + (wd : Int) * (100 * nsUnits) }
    finish (((List.range 40).filter (s.ppsOut t)).foldl (State.ppsEdge (s.tapInstant t i)) s)

/-- LEAP: the armed instant comes. -/
def execLeap (t : Fin 4) (s : State) : Host.Outcome State Fault Refusal :=
  finish (if bit (s.dir 0x09 (leapReg t)) 24 ∧ (s.tdom t).armed then s.takeLeap t false else s)

/-- TRG_FIRED: the instant of a trigger that the board found enabled at the start of the round comes; it fires at the
boundary that ends the round (R24, R246). -/
def execTrgFired (g : Fin 8) (s : State) : Host.Outcome State Fault Refusal :=
  let w := (s.trgRead g).cfg
  if trgEn w ∧ (s.tdom (trgDom w)).valid ∧ s.time.fire.any (fun q => q.1 == g.val) = false then
    finish { s with time := { s.time with fire := s.time.fire ++ [(g.val, false)] } }
  else finish s

/-- TIMED_SWAP_DUE: the swap falls at the next boundary (R398). -/
def execTimedSwapDue (s : State) : Host.Outcome State Fault Refusal :=
  match s.sys.timed with
  | some _ => finish (s.setSys fun x => { x with swapPend := true })
  | none => finish s

end Sys2Proof.Machine
end

