-- ==== Sys2Proof/Machine/Timebase.lean ====
section
/-! DEFINITION. The timebase loop (R37 to R40) and the ageing term (R183) of the stamp-clock synthesiser. -/

namespace Sys2Proof.Machine

/-- Register page OSC. -/
def oscPage : Nat := 0x0D

/-- TB_RATIO, 8 fractional bits. -/
def State.tbRatio (s : State) : Nat := (s.cfg oscPage 4).toNat

/-- Rounds that a fit of the oscillator covers, and that the counts of R40 ask for. -/
def tbWindow : Nat := 8000
def tbCount : Nat := 80000

/-- One round's allowance of R38, 1.25 ppt, in units of 2^-64. -/
def tbAllowance : Int := 23058430

/-- 0.1 ppb in units of 2^-64. -/
def tbLimit : Int := 1844674407

/-- Enter a state of the timebase loop. -/
def State.tbTo (s : State) (st : TbState) : State :=
  s.setOsc fun o => { o with tb := st, tbSince := s.roundNow, tbGood := 0, tbSilent := 0 }

/-- The stamps of the oscillator in effect in the rounds since the state was entered, oldest first: those of the round that
ended there carry the number of the round that began (R40). -/
def Osc.tbStamps (o : Osc) : List Int :=
  (((if o.tbSrc = 2 then o.histB else o.histA).filter fun p => decide (o.tbSince < p.1)).map (·.2)).reverse

/-- Keep the stamps of both oscillator channels over the last 8,000 rounds. -/
def State.oscStamps (s : State) : State :=
  let n := s.roundNow
  let add (k : Nat) (h : List (Nat × Int)) : List (Nat × Int) :=
    ((s.chan k).drained.map fun e => (n, e.t)).reverse ++ h.filter fun p => decide (n < p.1 + tbWindow)
  s.setOsc fun o => { o with histA := add 44 o.histA, histB := add 45 o.histB }

/-- The choice of TB_SRC in effect changes (R40). -/
def State.tbSource (s : State) : State :=
  let v := s.tbSrc
  if v = s.osc.tbSrc then s else (s.setOsc fun o => { o with tbSrc := v }).tbTo .slewing

/-- Move the term towards a target by at most `room`. -/
def towards (room now target : Int) : Int := now + iclamp (target - now) (-room) room

/-- The oscillator channel has been silent for the limit of R40. -/
def State.tbLost (s : State) : Bool :=
  decide (2 ≤ s.osc.tbSilent) && decide (4 * s.tbRatio ≤ s.osc.tbSilent * roundLen * 256)

/-- The stamps come at the expected rate: over the rounds counted so far and this one, at most 8,000, their number is
the expected one to within one event and one part in a thousand (log entry 23). -/
def State.tbRateGood (s : State) : Bool :=
  let o := s.osc
  let w := min tbWindow (o.tbGood + 1)
  let n := ((if o.tbSrc = 2 then o.histB else o.histA).filter fun p => decide (s.roundNow < p.1 + w)).length
  decide (((n * s.tbRatio : Nat) - (w * roundLen * 256 : Nat) : Int).natAbs ≤ s.tbRatio + w * roundLen * 256 / 1000)

/-- OSC_TB_SRC_LOSS: FROZEN. -/
def State.tbFreeze (s : State) : State :=
  if (s.osc.tb = .slewing ∨ s.osc.tb = .following) ∧ s.osc.tbSrc ≠ 0 then (s.tbTo .frozen).raise oscPage 2 else s

/-- FROZEN back to SLEWING. -/
def State.tbThaw (s : State) : State := if s.osc.tb = .frozen then s.tbTo .slewing else s

/-- SLEWING to FOLLOWING. -/
def State.tbFollow (s : State) : State := if s.osc.tb = .slewing ∧ s.osc.tbSrc ≠ 0 then s.tbTo .following else s

/-- The term has returned to zero, under the slope of R38: CRYSTAL. -/
def State.tbHome (s : State) : State :=
  if s.osc.tb = .slewing ∧ s.osc.tbSrc = 0 ∧ s.osc.tbTerm = 0 then s.tbTo .crystal else s

/-- One round of the timebase term with `room` left of the round's allowance. -/
def State.tbRound (s : State) (room : Int) : State :=
  let o := s.osc
  let n := (s.chan (43 + o.tbSrc)).drained.length
  let s := s.setOsc fun o => { o with tbSilent := if n = 0 then o.tbSilent + 1 else 0 }
  match o.tb with
  | .crystal => s
  | .slewing =>
    if o.tbSrc = 0 then
      let s := s.setOsc fun o => { o with tbTerm := towards room o.tbTerm 0 }
      s.tbHome
    else if s.tbLost then s.tbFreeze
    else
      match fitNominal s.tbRatio 256 o.tbStamps with
      | none => s.setOsc fun o => { o with tbGood := 0 }
      | some r =>
        let y := ratioBits 64 r
        let good := decide ((y.natAbs : Int) < tbLimit)
        let s := s.setOsc fun o => { o with
          tbTerm := towards room o.tbTerm (o.tbTerm + y), tbGood := if good then o.tbGood + 1 else 0 }
        if tbCount ≤ s.osc.tbGood then s.tbFollow else s
  | .following =>
    if s.tbLost then s.tbFreeze
    else
      let t := Config.freeInt 1 s.free
      s.nextFree.setOsc fun o => { o with tbTerm := towards room o.tbTerm t }
  | .frozen =>
    let s := s.setOsc fun o => { o with tbGood := if s.tbRateGood then o.tbGood + 1 else 0 }
    if tbCount ≤ s.osc.tbGood then s.tbThaw else s

/-! ### The ageing term -/

/-- AGE_NOW is kept in units of 0.01 ppb × 8,000: one round's allowance of R38 is 1,000 of them. -/
def ageScale : Int := 8000
def ageAllowance : Int := 1000

/-- AGE_ADJ, clamped to ±50 ppm. -/
def State.ageTarget (s : State) : Int :=
  ageScale * iclamp (signed 24 (bits (s.dir oscPage 0x914) 23 0)) (-5000000) 5000000

/-- The ageing term in units of 2^-56. -/
def ageUnits (now : Int) : Int := roundDiv (now * 2 ^ 56) (ageScale * 100000000000)

/-- The ageing term takes its change first; the domains that hold, or run free on their model, lose it from their
command (R38, R183). The timebase term moves by what remains. -/
def State.tbAgeRound (s : State) : State :=
  let old := s.osc.ageNow
  let now := towards ageAllowance old s.ageTarget
  let d := ageUnits now - ageUnits old
  let s := s.setOsc fun o => { o with ageNow := now }
  let s := (List.range 12).foldl (fun s i =>
    match (s.dom i).state with
    | .holdover | .holdoverLimited => s.setDom i fun x => { x with ye := x.ye - d }
    | .freeRun => s.setDom i fun x => { x with
        ye := if bit (s.cfg (0x70 + i) 0) 12 && x.model.valid then x.ye - d else 0 }
    | _ => s) s
  let used : Int := floorDiv ((now - old).natAbs * tbAllowance) ageAllowance
  s.tbSource.tbRound (tbAllowance - used)

/-! ### The rows -/

/-- TB_FOLLOWING. -/
def execTbFollowing (s : State) : Host.Outcome State Fault Refusal := finish s.tbFollow

/-- OSC_TB_SRC_LOSS. -/
def execOscTbSrcLoss (s : State) : Host.Outcome State Fault Refusal := finish s.tbFreeze

/-- TB_RESUME. -/
def execTbResume (s : State) : Host.Outcome State Fault Refusal := finish s.tbThaw

/-- TB_CRYSTAL. -/
def execTbCrystal (s : State) : Host.Outcome State Fault Refusal := finish s.tbHome

end Sys2Proof.Machine
end

