-- ==== Sys2Proof/Machine/Measure.lean ====
section
/-! DEFINITION. The measurement contexts (R72 to R92): gates, intervals, frequency by regression, time-error series and
the stability estimators. -/

namespace Sys2Proof.Machine

/-- The four configuration words of a context. -/
structure TimCfg where
  mode : Nat
  align : Bool
  arch : Bool
  refEn : Bool
  a : Nat
  b : Nat
  /-- tnom, fine units (R74) -/
  tnom : Int
  /-- rounds of a gate -/
  g : Nat
  aux : Nat
  deriving DecidableEq, Repr

/-- The configuration of context `i`. -/
def State.timCfg (s : State) (i : Nat) : TimCfg :=
  let w := s.cfg (timPage i) (timOfs i)
  { mode := bits w 1 0, align := bit w 2, arch := bit w 3, refEn := bit w 4, a := bits w 13 8, b := bits w 21 16,
    tnom := (s.cfg (timPage i) (timOfs i + 8)).toNat * 2 ^ (bits w 27 24 + 10),
    g := bits (s.cfg (timPage i) (timOfs i + 4)) 29 0 + 1, aux := (s.cfg (timPage i) (timOfs i + 12)).toNat }

/-- Rounds between sample instants. -/
def TimCfg.tau0 (c : TimCfg) : Nat := c.aux % 2 ^ 20 + 1

/-- The source channels that a context uses. -/
def TimCfg.sources (c : TimCfg) : List Nat := if c.mode = 0 ∨ c.refEn then [c.a, c.b] else [c.a]

/-- START refuses the configuration with REFUSED_ARG (R92). -/
def TimCfg.bad (c : TimCfg) : Bool :=
  c.sources.any (fun k => decide (47 ≤ k)) || (c.mode != 0 && c.tnom == 0) || (c.mode == 0 && c.a != c.b && c.aux == 0)

/-- A source used is OFF, STARTING or FENCED. -/
def State.timSourceLost (s : State) (c : TimCfg) : Bool :=
  c.sources.any fun k => !((s.chan k).state == .run || (s.chan k).state == .degraded)

/-- Flags of R79, as bits 0 to 6. -/
def flShort : Nat := 1
def flIncomplete : Nat := 2
def flDegraded : Nat := 4
def flOrder : Nat := 8
def flTie : Nat := 16
def flMissed : Nat := 32
def flSlip : Nat := 64

def flagIf (c : Bool) (f : Nat) : Nat := if c then f else 0

/-- A gate as it begins. -/
def Gate.new (seq : Nat) : Gate :=
  { seq, rounds := 0, ended := false, flags := 0, a := [], b := [], vals := [], unpaired := 0 }

/-- Change the open gate, the last of the list. -/
def Tim.openGate (t : Tim) (f : Gate → Gate) : Tim := { t with gates := modAt f t.gates (t.gates.length - 1) }

/-! ### Stability estimators (R86 to R89) -/

def Level.zero : Level :=
  { cnt := 0, sum := 0, bad := false, s1 := none, s2 := none, acc := 0, k := 0, span := none, spanBad := false,
    prev := none, mlo := 0, mhi := 0 }

/-- A block mean of 2^m samples is complete: its second difference (R87). -/
def Level.block (l : Level) : Level :=
  if l.bad then { l with cnt := 0, sum := 0, bad := false, s1 := none, s2 := none }
  else
    let l' := { l with cnt := 0, sum := 0, s1 := some l.sum, s2 := l.s1 }
    match l.s1, l.s2 with
    | some x, some y => { l' with acc := l.acc + (l.sum - 2 * x + y).natAbs ^ 2, k := l.k + 1 }
    | _, _ => l'

/-- A span block is complete: its peak-to-peak value, and that of its union with the block before it. -/
def Level.spanBlock (l : Level) (lo hi : Int) : Level :=
  if l.spanBad then { l with prev := none }
  else
    let l' := { l with prev := some (lo, hi), mlo := max l.mlo (hi - lo).toNat }
    match l.prev with
    | some (a, b) => { l' with mhi := max l.mhi (max hi b - min lo a).toNat }
    | none => l'

/-- One sample at level `m`; the last sample of a span block is the first of the next. -/
def Level.sample (m : Nat) (x : Option Int) (l : Level) : Level :=
  let v := x.getD 0
  let l := { l with cnt := l.cnt + 1, sum := l.sum + v, bad := l.bad || x.isNone }
  let l := if 2 ^ m ≤ l.cnt then l.block else l
  match l.span with
  | none => { l with span := some (1, v, v), spanBad := l.spanBad || x.isNone }
  | some (n, lo, hi) =>
    let l := { l with spanBad := l.spanBad || x.isNone }
    let (lo, hi) := if x.isNone then (lo, hi) else (min lo v, max hi v)
    if 2 ^ m ≤ n then { l.spanBlock lo hi with span := some (1, v, v), spanBad := x.isNone }
    else { l with span := some (n + 1, lo, hi) }

/-- The 20 levels. -/
def Tim.lv (t : Tim) : List Level := if t.levels = [] then List.replicate 20 Level.zero else t.levels

/-- A sample enters the ring and, in STABILITY, every level; before the anchor no sample has an index (R87). -/
def Tim.sample (t : Tim) (stab : Bool) (x : Option Int) : Tim :=
  { t with
    ring := (x :: t.ring).take 64
    levels := if stab && t.anchored then t.lv.zipIdx.map fun p => p.1.sample p.2 x else t.levels }

/-- A round of V1, V2 or V3, or one that the board does not run, spoils the blocks of the levels with 64 s and more (R89):
those in progress before the boundary's sample, and those that begin with it. -/
def Tim.dropLong (t : Tim) (tau0 : Nat) : Tim :=
  { t with levels := t.lv.zipIdx.map fun p =>
      if 512000 ≤ 2 ^ p.2 * tau0 then { p.1 with bad := true, spanBad := true } else p.1 }

/-- TDEV of a level, fine units with 8 fractional bits. -/
def Level.tdev (m : Nat) (l : Level) : Nat := sqrtRatio (65536 * l.acc) (6 * l.k * 4 ^ m)

/-- Clear the estimators and the ring. -/
def Tim.clearStab (t : Tim) : Tim := { t with ring := [], levels := [] }

/-! ### Intervals (R80 to R82) -/

/-- The nearest unused stop within the window; the earlier of two equally near ones. -/
def nearestStop (win t : Int) (l : List Int) : Option Int :=
  (l.filter fun v => decide (((v - t).natAbs : Int) ≤ win)).foldl (fun b v =>
    match b with
    | none => some v
    | some w => if (v - t).natAbs < (w - t).natAbs then some v else some w) none

/-- Pair the starts of one gate whose window lies before `cut`; answers the gate and the stops left. -/
def pairStarts (win cut : Int) : List Int → List Int → Gate → Gate × List Int
  | [], stops, g => ({ g with a := [] }, stops)
  | t :: ts, stops, g =>
    if cut ≤ t + win then ({ g with a := t :: ts }, stops)
    else
      match nearestStop win t stops with
      | some v => pairStarts win cut ts (stops.erase v) { g with vals := (v - t) :: g.vals }
      | none => pairStarts win cut ts stops { g with unpaired := g.unpaired + 1 }

/-- Pair over the gates in turn, as long as each is exhausted. -/
def pairGates (win cut : Int) : List Gate → List Int → List Gate × List Int
  | [], stops => ([], stops)
  | g :: gs, stops =>
    let (g, stops) := pairStarts win cut g.a stops g
    if g.a = [] then
      let (gs, stops) := pairGates win cut gs stops
      (g :: gs, stops)
    else (g :: gs, stops)

/-- One source: the event ends the interval of the start that waits, and waits itself in the open gate. -/
def chainEvent (t : Tim) (e : Int) : Tim :=
  let t := { t with gates := t.gates.map fun (g : Gate) => match g.a with
    | x :: _ => { g with a := [], vals := (e - x) :: g.vals }
    | [] => g }
  t.openGate fun g => { g with a := [e] }

/-! ### Results (R76, R81, R83, R84) -/

/-- Every d-th stamp, from the first. -/
def everyNth (d : Nat) (ts : List Int) : List Int := (ts.zipIdx.filter fun p => p.2 % d == 0).map (·.1)

/-- log2 of the smallest power of two that leaves at most 2^20 events. -/
def decLog : Nat → Nat → Nat
  | 0, _ => 0
  | k + 1, n => if n ≤ 2 ^ 20 then 0 else decLog k ((n + 1) / 2) + 1

/-- Least and largest of a list. -/
def lmin (l : List Int) : Int := match l with | [] => 0 | a :: t => t.foldl min a
def lmax (l : List Int) : Int := match l with | [] => 0 | a :: t => t.foldl max a

/-- The result of a gate of intervals. -/
def intervalResult (g : Gate) : TimResult :=
  let n := g.vals.length
  { value := if n = 0 then 0 else roundDiv (256 * isum g.vals) n, min := lmin g.vals, max := lmax g.vals,
    last := g.vals.headD 0, aux := g.unpaired, n, seq := g.seq, dec := 0
    flags := ((g.flags.lor (flagIf (n == 0) flIncomplete)).lor (flagIf (g.vals.any (· < 0)) flOrder)).lor
      (flagIf (g.vals.any fun v => decide (v.natAbs < 524)) flTie) }

/-- The result of a gate of samples. -/
def seriesResult (g : Gate) : TimResult :=
  { value := g.vals.headD 0, min := lmin g.vals, max := lmax g.vals, last := g.vals.headD 0, aux := 0,
    n := g.vals.length, seq := g.seq, dec := 0, flags := g.flags.lor (flagIf (g.vals == []) flIncomplete) }

/-- y of SRC_A against SRC_B: (1 + y_A) / (1 + y_B) − 1 as a ratio. -/
def ratioAgainst (x y : Int × Int) : Option (Int × Int) :=
  if y.1 + y.2 ≤ 0 then none
  else some ((x.1 + x.2) * y.2 - x.2 * (y.1 + y.2), x.2 * (y.1 + y.2))

/-- The result of a FREQUENCY gate. -/
def frequencyResult (c : TimCfg) (g : Gate) : TimResult :=
  let d := max (decLog 64 g.a.length) (if c.refEn then decLog 64 g.b.length else 0)
  let step := c.tnom * (2 ^ d : Nat)
  let ta := everyNth (2 ^ d) g.a
  let (fa, sa) := fitSums step ta
  let (y, slip) :=
    if c.refEn then
      let tb := everyNth (2 ^ d) g.b
      ((match fitRatio step ta, fitRatio step tb with | some x, some z => ratioAgainst x z | _, _ => none),
        sa || (fitSums step tb).2)
    else (fitRatio step ta, sa)
  { value := match y with | some r => ratioBits 64 r | none => 0
    min := 0, max := 0, last := 0, aux := fitRms fa, n := ta.length, seq := g.seq, dec := d
    flags := (g.flags.lor (flagIf y.isNone flIncomplete)).lor (flagIf slip flSlip) }

def TimCfg.resultOf (c : TimCfg) (g : Gate) : TimResult :=
  match c.mode with
  | 0 => intervalResult g
  | 1 => frequencyResult c g
  | _ => seriesResult g

/-! ### Folding into harvest (R96) -/

/-- One result folds into the statistics of a period. -/
def CtxStat.fold (r : TimResult) (x : CtxStat) : CtxStat :=
  { count := x.count + 1, sum := x.sum + r.value, sumSq := x.sumSq + r.value * r.value
    min := if x.count = 0 then r.value else Min.min x.min r.value
    max := if x.count = 0 then r.value else Max.max x.max r.value, flags := x.flags.lor r.flags }

def Period.fold (i : Nat) (r : TimResult) (p : Period) : Period :=
  { p with ctx := tmod (fun _ => CtxStat.zero) p.ctx i (CtxStat.fold r) }

/-- A posted result folds into all four periods in progress, unless the variant drops its folding (R90, R96). -/
def State.foldResult (s : State) (i : Nat) (r : TimResult) : State :=
  if s.board.varNow = 3 ∨ (s.board.varNow = 2 ∧ 48 ≤ i) then s
  else
    let h := s.harvest
    { s with harvest := { h with
        p1 := h.p1.fold i r, p60 := h.p60.fold i r, p900 := h.p900.fold i r, pday := h.pday.fold i r } }

/-! ### Posting and states -/

/-- The board has a gate's result: it is posted at the end of the round (R76). -/
def State.postGate (c : TimCfg) (i : Nat) (s : State) (g : Gate) : State :=
  s.setTim i fun t => { t with due := t.due ++ [c.resultOf g] }

/-- Post one result: DONE and GATE_POSTED (R76, R101). -/
def State.postResult (i : Nat) (s : State) (r : TimResult) : State :=
  let s := (s.setTim i fun t => { t with result := r, done := true }).event (timPage i) 0
  s.foldResult i r

/-- The end of a round: context `i` posts what the board has computed in it. -/
def State.postDue (s : State) (i : Nat) : State :=
  let l := (s.tim i).due
  l.foldl (State.postResult i) (s.setTim i fun t => { t with due := [] })

/-- Post the gates that are complete: ended, with no start that waits for its stops. -/
def State.postReady (c : TimCfg) (i : Nat) (s : State) : State :=
  let gs := (s.tim i).gates
  let ready := gs.takeWhile fun g => g.ended && (c.mode != 0 || g.a == [])
  let s := s.setTim i fun t => { t with gates := gs.drop ready.length }
  ready.foldl (State.postGate c i) s

/-- The open gate ends early: every gate in progress is posted, the open one with `flags`. Starts that still wait for
their stops form no interval and do not count in AUX, since their window has not passed (log entry 24). -/
def State.cutGates (c : TimCfg) (i flags : Nat) (s : State) : State :=
  let s := s.setTim i fun t => t.openGate fun g => { g with flags := g.flags.lor flags }
  let gs := (s.tim i).gates
  let s := s.setTim i fun t => { t with gates := [], stops := [] }
  gs.foldl (State.postGate c i) s

/-- The open gate is complete: the next one begins without a gap (R75). -/
def State.nextGate (c : TimCfg) (i : Nat) (s : State) : State :=
  let s := s.setTim i fun t =>
    let t := t.openGate fun g => { g with ended := true }
    { t with gates := t.gates ++ [Gate.new t.nextSeq], nextSeq := t.nextSeq + 1 }
  s.postReady c i

/-- Gate 0, or the first gate under a new configuration: estimators and ring cleared, a new anchor. -/
def State.firstGate (i : Nat) (s : State) : State :=
  s.setTim i fun t => { t.clearStab with
    gates := [Gate.new t.nextSeq], nextSeq := t.nextSeq + 1, stops := [], trackA := none, trackB := none, anchored := false
    sinceSample := 0 }

/-- A context halts: its gate is posted with INCOMPLETE (R78). -/
def State.haltTim (c : TimCfg) (i : Nat) (s : State) : State :=
  (s.cutGates c i flIncomplete).timTo i .halted

/-- A WAITING context begins: gate 0, or HALTED when START would now refuse its configuration. -/
def State.beginTim (i : Nat) (s : State) : State :=
  if (s.tim i).state ≠ .waiting then s
  else if (s.timCfg i).bad then s.timTo i .halted
  else
    let s := s.setTim i fun t => { t with nextSeq := 0 }
    (s.firstGate i).timTo i .running

/-! ### One round -/

/-- Flags that the drained round of a channel gives the gate. -/
def Chan.roundFlags (c : Chan) : Nat :=
  ((flagIf (c.incomplete || c.drained.any (·.ovf)) flIncomplete).lor (flagIf (c.drained.any (·.degraded)) flDegraded)).lor
    (flagIf (c.drained.any (·.miss)) flMissed)

/-- An event of a series lies off its slot (R83). -/
def slipped (step : Int) : Option Int → List Int → Bool
  | _, [] => false
  | none, t :: ts => slipped step (some t) ts
  | some l, t :: ts => (stepsOf step (t - l)).2 || slipped step (some t) ts

/-- The sample at an instant: the error of SRC_A less that of SRC_B, when each had an event in the interval (R85). -/
def Tim.sampleNow (c : TimCfg) (t : Tim) : Option Int :=
  match t.trackA with
  | some a =>
    if a.fresh = false then none
    else if c.refEn then
      match t.trackB with
      | some b => if b.fresh then some (a.err - b.err) else none
      | none => none
    else some a.err
  | none => none

/-- A sample instant: the sample enters the ring, the levels and the open gate; a missing one makes it INCOMPLETE. -/
def Tim.takeSample (c : TimCfg) (x : Option Int) (t : Tim) : Tim :=
  let t := { t with anchored := t.trackA.isSome && (!c.refEn || t.trackB.isSome) }
  let t := (t.sample (c.mode == 3) x).openGate fun g => match x with
    | some v => { g with vals := v :: g.vals }
    | none => { g with flags := g.flags.lor flIncomplete }
  { t with
    sinceSample := 0
    trackA := t.trackA.map fun r => { r with fresh := false }
    trackB := t.trackB.map fun r => { r with fresh := false } }

/-- The stamps of the drained round enter the open gate (R76). -/
def State.feedTim (c : TimCfg) (i : Nat) (s : State) : State :=
  let ts (k : Nat) := (s.chan k).drained.map (·.t)
  let fl := c.sources.foldl (fun f k => f.lor (s.chan k).roundFlags) 0
  let s := s.setTim i fun t => t.openGate fun g => { g with flags := g.flags.lor fl }
  match c.mode with
  | 0 =>
    if c.a = c.b then s.setTim i fun t => (ts c.a).foldl chainEvent t
    else
      let win := c.aux * finePeriod
      let b := s.chan c.b
      let cut := s.osc.bnd * finePeriod - b.skew - b.warm - sregister (s.cfg (stampPage c.b) 8)
      let a := s.chan c.a -- no later start lies before `next`: four periods hold any code
      let next := min cut (s.osc.bnd * finePeriod - a.skew - a.warm - sregister (s.cfg (stampPage c.a) 8)) - 4 * finePeriod
      s.setTim i fun t =>
        let t := t.openGate fun g => { g with a := g.a ++ ts c.a }
        let (gs, stops) := pairGates win cut t.gates (t.stops ++ ts c.b)
        let from_ := (match gs.findSome? fun g => g.a.head? with | some x => min x next | none => next) - win
        { t with gates := gs, stops := stops.filter fun v => decide (from_ ≤ v) }
  | 1 => s.setTim i fun t => t.openGate fun g => { g with
      a := g.a ++ ts c.a, b := if c.refEn then g.b ++ ts c.b else g.b }
  | _ => s.setTim i fun t =>
      let sl := slipped c.tnom (t.trackA.map (·.lastT)) (ts c.a)
        || (c.refEn && slipped c.tnom (t.trackB.map (·.lastT)) (ts c.b))
      let t := { t with
        trackA := (trackFeed c.tnom t.trackA (ts c.a)).1
        trackB := if c.refEn then (trackFeed c.tnom t.trackB (ts c.b)).1 else none }
      t.openGate fun g => { g with flags := g.flags.lor (flagIf sl flSlip) }

/-- A round of the open gate is over; samples and the end of the gate fall on its boundary. A round whose work is dropped
spoils the gate whose stamps it should have taken, and the gate that begins with it (R90). -/
def State.countTim (c : TimCfg) (i : Nat) (dropped : Bool) (s : State) : State :=
  let s := s.setTim i fun t => t.openGate fun g => { g with
    rounds := g.rounds + 1, flags := g.flags.lor (flagIf dropped flIncomplete) }
  let s := s.setTim i fun t => { t with sinceSample := t.sinceSample + 1 }
  let s := if 2 ≤ c.mode ∧ c.tau0 ≤ (s.tim i).sinceSample then
      s.setTim i fun t => t.takeSample c (if dropped then none else t.sampleNow c)
    else s
  let s := s.postReady c i
  match (s.tim i).gates.getLast? with
  | some g =>
    if c.g ≤ g.rounds then
      (s.nextGate c i).setTim i fun t => t.openGate fun g => { g with flags := g.flags.lor (flagIf dropped flIncomplete) }
    else s
  | none => s

/-- The long levels of a STABILITY context do not run in the round (R89). -/
def State.dropTim (c : TimCfg) (i : Nat) (s : State) : State :=
  if c.mode = 3 then s.setTim i fun t => t.dropLong c.tau0 else s

/-- A context in a round that the board does not run: its stamps and samples are lost (R296). -/
def State.timIdle (c : TimCfg) (s : State) (i : Nat) : State :=
  if (s.tim i).state ≠ .running then s
  else if s.timSourceLost c then s.haltTim c i
  else ((s.dropTim c i).countTim c i true).dropTim c i

/-- One round of context `i` under the configuration `c` of the ending round (R78, R90). -/
def State.timRound (c : TimCfg) (s : State) (i : Nat) : State :=
  if (s.tim i).state ≠ .running then s
  else
    let drop := s.board.varNow == 3
    let s := if drop then s else s.feedTim c i
    let long := decide (1 ≤ s.board.varNow)
    let s := if long then s.dropTim c i else s
    if s.timSourceLost c then s.haltTim c i
    else
      let s := s.countTim c i drop
      if long then s.dropTim c i else s

/-- CFG_AUX as its mode gives it fields: PAIR_WIN in INTERVAL, TAU0_M1 in a time-error series, none in FREQUENCY (R13,
R100). -/
def timAux (mode aux : Word) : Word :=
  match bits mode 1 0 with
  | 0 => aux
  | 1 => 0
  | _ => aux &&& 0x000FFFFF

/-- The configuration words of a context. -/
def State.timWords (s : State) (i : Nat) : List Word :=
  let w (n : Nat) : Word := s.cfg (timPage i) (timOfs i + 4 * n)
  [w 0, w 1, w 2, timAux (w 0) (w 3)]

/-- A swap that changed a word of a RUNNING context (R77); `old` is the state before it. At a boundary at which a gate has
just ended, the gate that ends early is the one that has just begun, with no round (log entry 24). -/
def State.timSwap (old s : State) (i : Nat) : State :=
  if (s.tim i).state ≠ .running ∨ s.timWords i = old.timWords i then s
  else
    let c := old.timCfg i
    if (s.timCfg i).bad then (s.cutGates c i (flShort.lor flIncomplete)).timTo i .halted
    else (s.cutGates c i flShort).firstGate i

/-! ### Commands (R92) -/

/-- Refusals of a TIM command on page `p` of the two. -/
def State.timChecks (s : State) (p code : Nat) (arg : Word) : Checks :=
  let j := bits arg 5 0
  let i := 48 * p + j
  let c := s.timCfg i
  let st := (s.tim i).state
  let busy := s.busy (0xC0 + p)
  match code with
  | 1 => { arg := decide (47 < j) || c.bad, busy, state := !(st == .idle || st == .halted) || s.timSourceLost c }
  | 2 => { arg := decide (47 < j), busy, state := st == .idle }
  | 3 => { arg := decide (47 < j), busy, state := st != .running || decide (c.mode < 2) }
  | _ => { arg := true }

/-- Issue a TIM command. -/
def State.timCommand (s : State) (p : Nat) (m : Master) (code : Nat) : State :=
  let m := masterCode m
  s.onWrite (0xC0 + p) m fun (s : State) =>
    let arg := s.arg (0xC0 + p) m
    s.submit (0xC0 + p) m code arg (s.timChecks p code arg)

/-- The pending TIM command of a page takes effect; a context without alignment starts at once. -/
def State.timApply (s : State) (p : Nat) : State :=
  match (s.page (0xC0 + p)).pend with
  | none => s
  | some q =>
    s.settleCmd (0xC0 + p) (s.timChecks p q.code q.arg).again fun q s =>
      let i := 48 * p + bits q.arg 5 0
      let c := s.timCfg i
      match q.code with
      | 1 =>
        let s := (s.timTo i .waiting).setTim i fun t => { t.clearStab with gates := [], stops := [], trackA := none, trackB := none }
        if c.align then s else s.beginTim i
      | 2 => (if (s.tim i).state = .running then s.cutGates c i flShort else s).timTo i .idle
      | _ => s.setTim i fun t => t.clearStab

/-- Aligned contexts that wait begin at a 1 s harvest boundary (R75). One whose ALIGN a swap cleared while it waited has no
first gate start any more, and waits for STOP (log entry 24). -/
def State.timAligned (s : State) : State :=
  (List.range 96).foldl (fun s i => if (s.timCfg i).align then s.beginTim i else s) s

/-! ### The rows -/

/-- START. -/
def execTimStart (p : Fin 2) (m : Master) (s : State) : Host.Outcome State Fault Refusal := finish (s.timCommand p m 1)

/-- STOP. -/
def execTimStop (p : Fin 2) (m : Master) (s : State) : Host.Outcome State Fault Refusal := finish (s.timCommand p m 2)

/-- CLEAR_STAB. -/
def execClearStab (p : Fin 2) (m : Master) (s : State) : Host.Outcome State Fault Refusal := finish (s.timCommand p m 3)

/-- GATE_END: the open gate of a RUNNING context ends, is posted and the next begins. -/
def execGateEnd (i : Fin 96) (s : State) : Host.Outcome State Fault Refusal :=
  finish (if (s.tim i).state = .running then (s.nextGate (s.timCfg i) i).postDue i else s)

/-- TIE_SAMPLE: a sample instant of a RUNNING time-error series. -/
def execTieSample (i : Fin 96) (s : State) : Host.Outcome State Fault Refusal :=
  let c := s.timCfg i
  finish (if (s.tim i).state = .running ∧ 2 ≤ c.mode then s.setTim i fun t => t.takeSample c (t.sampleNow c) else s)

end Sys2Proof.Machine
end

