-- ==== Sys2Proof/Machine/Harvest.lean ====
section
/-! DEFINITION. Harvest (R93 to R104): its four periods, their alignment, the latched banks, the daily archive in the NV
store, and the HARVEST commands. -/

namespace Sys2Proof.Machine

/-- Register page HARVEST. -/
def hvPage : Nat := 0x08

/-! ### Statistics -/

/-- MEAN and RMS deviation of a context's results, rounded to nearest. -/
def CtxStat.mean (x : CtxStat) : Int := roundDiv x.sum x.count
def CtxStat.rms (x : CtxStat) : Nat := sqrtRatio (x.count * x.sumSq - x.sum * x.sum).toNat (x.count * x.count)

/-- VAR_SEEN says that the record of context `i` is INCOMPLETE: a round dropped its folding or its measurement work
(R96). Bit 4 stands for a round in which the board ran nothing (R296). -/
def ctxIncomplete (varSeen i : Nat) : Bool :=
  varSeen.testBit 3 || varSeen.testBit 4 || (varSeen.testBit 2 && decide (48 ≤ i))

/-- Add the counters of one table to those of another. -/
def addTable (a b : Table Nat) : Table Nat :=
  b.foldl (fun t p => tput (fun _ => 0) t p.1 ((tget (fun _ => 0) t p.1 + p.2) % 2 ^ 64)) a

/-! ### Latching (R95) -/

/-- Header FLAGS of a period that closes (R104); bit 8, which no register shows, keeps bit 4 of `varSeen`. -/
def Period.flags (p : Period) (alignAct short : Bool) : Nat :=
  b2n (p.aligned && alignAct) + 2 * b2n (p.short || short) + 4 * b2n (p.varSeen.testBit 4 || p.varSeen.testBit 3 || p.varSeen.testBit 2)
    + 16 * (p.varSeen % 32)

/-- The bank of a period that closes. -/
def Period.latch (p : Period) (b : Bank) (alignAct short : Bool) : Bank :=
  { seq := (b.seq + 1) % 2 ^ 32, rounds := p.rounds, flags := p.flags alignAct short, start := p.start, ctr := p.ctr,
    ctx := p.ctx, lost := [] }

/-- A period as it opens at the boundary `start`. -/
def Period.opened (start : Nat) (alignAct : Bool) : Period := { Period.zero with start, aligned := alignAct }

/-- The values of a 1 s period go into a longer one. -/
def Period.addSecond (ctr : Table Nat) (p : Period) : Period := { p with ctr := addTable p.ctr ctr, secs := p.secs + 1 }

/-- The 1 s boundary (R95): every counter latches and restarts at 0; peaks and lows restart. -/
def State.latchSecond (s : State) (short : Bool) : State :=
  let h := s.harvest
  let p := { h.p1 with ctr := s.ctr }
  let s := { s with
    ctr := []
    board := { s.board with temposMin := 0x1FFFF }
    budget := { s.budget with
      fLow := s.budget.fCell
      vmon := (List.range 10).foldl (fun t r => tmod (fun _ => (⟨0, 0⟩ : Vmon)) t r fun v => { v with low := v.now })
        s.budget.vmon } }
  let s := (List.range 48).foldl (fun (s : State) (k : Nat) => s.setChan k fun c => { c with peak := c.queue.length }) s
  (s.setHarvest fun h => { h with
    b1 := p.latch h.b1 h.alignAct (short || h.realign.testBit 0), p1 := Period.opened s.osc.bnd h.alignAct
    p60 := h.p60.addSecond p.ctr, p900 := h.p900.addSecond p.ctr, pday := h.pday.addSecond p.ctr
    realign := h.realign / 2 * 2 }).event hvPage 0

/-- The 60 s boundary. -/
def State.latchMinute (s : State) (short : Bool) : State :=
  (s.setHarvest fun h => { h with
    b60 := h.p60.latch h.b60 h.alignAct (short || h.realign.testBit 1), p60 := Period.opened s.osc.bnd h.alignAct
    realign := h.realign.land 13 }).event hvPage 1

/-- The 900 s boundary. -/
def State.latchQuarter (s : State) (short : Bool) : State :=
  (s.setHarvest fun h => { h with
    b900 := h.p900.latch h.b900 h.alignAct (short || h.realign.testBit 2), p900 := Period.opened s.osc.bnd h.alignAct
    realign := h.realign.land 11 }).event hvPage 2

/-! ### Latched values (R104, R105) -/

/-- A header item. -/
def Bank.header (b : Bank) (item : Nat) : Nat :=
  if b.lost.contains (0, item, 0) then 0
  else
    match item with
    | 0 => b.seq
    | 1 => b.rounds
    | 2 => b.flags % 256
    | 3 => b.start
    | _ => 0

/-- A latched counter, by its page and the offset of its LO word. -/
def Bank.counter (b : Bank) (p o : Nat) : Nat :=
  if 0xA00 ≤ o ∧ o < 0xF00 ∧ b.lost.contains (1, p, o) = false then tget (fun _ => 0) b.ctr (p * 0x1000 + o) else 0

/-- A statistic of context `i`. -/
def Bank.ctxItem (b : Bank) (i item : Nat) : Nat :=
  let x := tget (fun _ => CtxStat.zero) b.ctx i
  if 96 ≤ i ∨ b.lost.contains (2, i, item) = true then 0
  else
    match item with
    | 0 => x.count
    | 1 => s64 x.mean
    | 2 => s64 x.min
    | 3 => s64 x.max
    | 4 => x.rms
    | 5 => x.flags % 128 + 256 * b2n (ctxIncomplete (b.flags / 16) i)
    | _ => 0

/-- The value that a selection of HV_SEL names in the bank; an unimplemented location reads 0. -/
def Bank.selected (b : Bank) (w : Word) : Nat :=
  match bits w 3 2 with
  | 0 => b.header (bits w 11 4)
  | 1 => b.counter (bits w 11 4) (bits w 23 12)
  | 2 => b.ctxItem (bits w 11 4) (bits w 15 12)
  | _ => 0

/-- HARVEST_BANK_ECC_UNCORR: the latched value that the selection names reads 0, and the header shows INCOMPLETE. -/
def Bank.lose (w : Word) (b : Bank) : Bank :=
  let b := { b with flags := b.flags.lor 4 }
  match bits w 3 2 with
  | 0 => if bits w 11 4 = 2 then { b with flags := 4 } else { b with lost := (0, bits w 11 4, 0) :: b.lost }
  | 1 => { b with lost := (1, bits w 11 4, bits w 23 12) :: b.lost }
  | 2 => { b with lost := (2, bits w 11 4, bits w 15 12) :: b.lost }
  | _ => b

/-- Change the bank that HV_SEL [1:0] chooses. -/
def Harvest.onBank (h : Harvest) (n : Nat) (f : Bank → Bank) : Harvest :=
  match n with
  | 0 => { h with b1 := f h.b1 }
  | 1 => { h with b60 := f h.b60 }
  | 2 => { h with b900 := f h.b900 }
  | _ => { h with bday := f h.bday }

/-! ### The daily archive (R98, R99) -/

/-- Bytes of an archive slot. -/
def archBytes : Nat := 4736

def State.archBase (s : State) : Nat := bits (s.cfg hvPage 4) 18 0
def State.archSlots (s : State) : Nat := bits (s.cfg hvPage 8) 15 0

/-- A protect block of the byte range is protected (R460). -/
def State.rangeProtected (s : State) (a n : Nat) : Bool :=
  (List.range 64).any fun b => s.nv.bp.testBit b && decide (a < 8192 * (b + 1)) && decide (8192 * b < a + n)

/-- The ring can be written. A ring of no slots holds no record: it is skipped as one that does not fit is (log entry
66). -/
def State.archOk (s : State) : Bool :=
  decide (s.archBase % 128 = 0) && s.archSlots != 0 && decide (s.archBase + s.archSlots * archBytes ≤ nvBytes)
    && !s.rangeProtected s.archBase (s.archSlots * archBytes)

/-- The two words of a 64-bit value, low first. -/
def words64 (v : Int) : List Nat := [s64 v % 2 ^ 32, s64 v / 2 ^ 32]

/-- The entry of one context. -/
def State.archEntry (s : State) (i : Nat) : List Nat :=
  let v := s.harvest.bday.ctxItem i
  [i + 256 * (s.timCfg i).mode + 65536 * (v 5 % 128) + 2 ^ 24 * (v 5 / 256), v 0 % 2 ^ 32]
    ++ words64 (v 1) ++ words64 (v 2) ++ words64 (v 3) ++ words64 (v 4) ++ [0, 0]

/-- Header and entries of the day's record. -/
def State.archRecord (s : State) (seq : Nat) : List Nat :=
  let b := s.harvest.bday
  let l := (List.range 96).filter fun i => (s.timCfg i).arch
  [l.length + 0x100 + 0x48410000, seq] ++ words64 (b.header 3) ++ [b.header 1 % 2 ^ 32, b.header 2, 0, 0] ++ l.flatMap s.archEntry

/-- ARCH_BUSY. -/
def Harvest.archBusy (h : Harvest) : Bool := h.arch.isSome

/-- Begin the archive record of the day that has closed, or skip it with HARVEST_ARCH_FAIL. A record that falls while the
one before it is still being written is skipped too (log entry 66). -/
def State.archive (s : State) : State :=
  if s.archOk = false ∨ s.harvest.archBusy = true then (((s.bump hvPage 0xA08).event hvPage 6).raise hvPage 2)
  else
    let h := s.harvest
    let seq := (h.archSeq + 1) % 2 ^ 32
    let slot := h.archSlot % s.archSlots
    let a := s.archBase + slot * archBytes
    let ws := (s.archRecord seq).zipIdx.map (fun p => (a + 4 * p.2, p.1)) ++ [(a + 4732, 0xFFFFFFFF - seq)]
    s.setHarvest fun h => { h with arch := some { slot, seq, words := ws } }

/-- Words of an archive record that the controller writes in one round (log entry 66). -/
def archRate : Nat := 256

/-- One round of the archive writer: words in ascending address order, the commit word last (R99). -/
def State.archRound (s : State) : State :=
  match s.harvest.arch with
  | none => s
  | some j =>
    if s.nvWritable = false then s
    else
      let s := (j.words.take archRate).foldl (fun (s : State) w => s.nvWrite w.1 [w.2]) s
      let rest := j.words.drop archRate
      if rest = [] then
        let s := s.setHarvest fun h => { h with arch := none, archSeq := j.seq, archSlot := (j.slot + 1) % s.archSlots }
        (s.bump hvPage 0xA00).event hvPage 5
      else s.setHarvest fun h => { h with arch := some { j with words := rest } }

/-- The newest valid slot of a ring of records: its number and its sequence number. -/
def newestSlot (seqs : List (Option Nat)) : Option (Nat × Nat) :=
  seqs.zipIdx.foldl (fun b p =>
    match p.1, b with
    | some q, none => some (p.2, q)
    | some q, some (i, r) => if r < q then some (p.2, q) else some (i, r)
    | none, b => b) none

/-- The sequence number of archive slot `i`, when the slot is valid. -/
def State.archSlotSeq (s : State) (i : Nat) : Option Nat :=
  let a := s.archBase + i * archBytes
  let q := nvWord s.nv.mem (a + 4)
  if nvWord s.nv.mem a / 65536 = 0x4841 ∧ nvWord s.nv.mem (a + 4732) = 0xFFFFFFFF - q ∧ s.nv.badIn a archBytes = false then
    some q
  else none

/-- The ring resumes after its newest valid slot, in the first round in which ARCH_EN is active (R490). -/
def State.archResume (s : State) : State :=
  if s.harvest.archResumed ∨ bit (s.cfg hvPage 0) 1 = false then s
  else
    let s := s.setHarvest fun h => { h with archResumed := true }
    if s.archBase + s.archSlots * archBytes ≤ nvBytes then
      match newestSlot ((List.range s.archSlots).map s.archSlotSeq) with
      | some (i, q) => s.setHarvest fun h => { h with archSlot := (i + 1) % s.archSlots, archSeq := q }
      | none => s
    else s

/-- The 86,400 s boundary. -/
def State.latchDay (s : State) (short : Bool) : State :=
  let s := (s.setHarvest fun h => { h with
    bday := h.pday.latch h.bday h.alignAct (short || h.realign.testBit 3), pday := Period.opened s.osc.bnd h.alignAct
    realign := h.realign.land 7 }).event hvPage 3
  if bit (s.cfg hvPage 0) 1 then s.archive else s

/-! ### Boundaries (R93, R94) -/

/-- T of DOM[0] at the present boundary as its line predicts it, and what it gained in the round. -/
def State.dayTime (s : State) : Int × Int :=
  let g := round8 - (s.dom 0).slope
  ((s.tdom 0).t + g, g)

/-- Rounds since the boundary from which the free-running periods are counted. -/
def State.freeRounds (s : State) : Nat := s.roundNow - s.harvest.origin

/-- A 1 s boundary falls at the present round boundary. -/
def State.secondDue (s : State) : Bool :=
  if s.harvest.alignAct then decide (s.dayTime.1.fmod secUnits < s.dayTime.2)
  else decide (0 < s.freeRounds) && s.freeRounds % 8000 == 0

/-- The UTC offset at the present boundary: an armed leap whose instant the boundary has reached is in it (R94, R242). -/
def State.dayOfs (s : State) : Int :=
  s.utcOfs 0 + (if (s.tdom 0).armed && s.leapAhead 0 s.dayTime.1 then
    (if bit (s.dir 0x09 (leapReg 0)) 25 then -1 else 1) else 0)

/-- The whole second that the boundary shows, on the scale that the longer aligned periods follow (R93, R94): T less
UTC_OFS, whatever UTC_VALID says (log entry 66). -/
def State.dayLabel (s : State) : Int := floorDiv s.dayTime.1 secUnits - s.dayOfs

/-- A longer period of `n` seconds closes at this 1 s boundary: free-running, every n-th one counted from the origin. A
boundary that a row brings between those of the count closes it after n seconds of the period. -/
def State.longDue (s : State) (p : Period) (n : Nat) : Bool :=
  if s.harvest.alignAct then s.dayLabel % n == 0
  else if s.secondDue then s.freeRounds / 8000 % n == 0 else decide (n ≤ p.secs)

/-- A 1 s harvest boundary, and the longer ones that fall with it; `all` closes every period SHORT (RESYNC). -/
def State.harvestLatch (s : State) (all : Bool) : State :=
  let s := s.latchSecond all
  let s := if all || s.longDue s.harvest.p60 60 then s.latchMinute all else s
  let s := if all || s.longDue s.harvest.p900 900 then s.latchQuarter all else s
  if all || s.longDue s.harvest.pday 86400 then s.latchDay all else s

/-- Alignment as HV_CFG and VALID of DOM[0] have it now: a change of ALIGN, or of the rule that follows from both, marks each
period in progress (R93). The rule changes back when DOM[0] loses valid time, and marks them again (log entry 66). -/
def State.harvestAlign (s : State) : State :=
  let want := bit (s.cfg hvPage 0) 0
  let act := want && (s.tdom 0).valid
  let same := act == s.harvest.alignAct && want == s.harvest.alignCfg
  let s := s.setHarvest fun h => { h with timeWait := want && !act, alignAct := act, alignCfg := want }
  if same then s else (s.setHarvest fun h => { h with realign := 15 }).event hvPage 4

/-- A completed round counts in every period. -/
def Harvest.count (h : Harvest) : Harvest :=
  { h with
    p1 := { h.p1 with rounds := h.p1.rounds + 1 }, p60 := { h.p60 with rounds := h.p60.rounds + 1 }
    p900 := { h.p900 with rounds := h.p900.rounds + 1 }, pday := { h.pday with rounds := h.pday.rounds + 1 } }

/-- The variant of the round that begins, in VAR_SEEN of every period. -/
def Harvest.seeVariant (v : Nat) (h : Harvest) : Harvest :=
  let f (p : Period) : Period := { p with varSeen := p.varSeen.lor (2 ^ v) }
  { h with p1 := f h.p1, p60 := f h.p60, p900 := f h.p900, pday := f h.pday }

/-- The periods open at the first boundary after SCLK_LOCK. -/
def State.harvestOpen (s : State) : State :=
  s.setHarvest fun h => { h with
    origin := 0, p1 := Period.opened s.osc.bnd h.alignAct, p60 := Period.opened s.osc.bnd h.alignAct
    p900 := Period.opened s.osc.bnd h.alignAct, pday := Period.opened s.osc.bnd h.alignAct }

/-! ### Commands (R103) -/

/-- Refusals of a HARVEST command. -/
def State.harvestChecks (s : State) (code : Nat) : Checks :=
  match code with
  | 1 => { busy := s.busy hvPage, state := s.harvest.alignAct }
  | 2 => { busy := s.busy hvPage || s.harvest.archBusy }
  | _ => { arg := true }

/-- Issue a HARVEST command. -/
def State.harvestCommand (s : State) (m : Master) (code : Nat) : State :=
  let m := masterCode m
  s.onWrite hvPage m fun (s : State) =>
    s.submit hvPage m code (s.arg hvPage m) (s.harvestChecks code)

/-- The pending HARVEST command takes effect. -/
def State.harvestApply (s : State) : State :=
  match (s.page hvPage).pend with
  | none => s
  | some q =>
    s.settleCmd hvPage (s.harvestChecks q.code).again fun q s =>
      if q.code = 1 then (s.harvestLatch true).setHarvest fun h => { h with origin := s.roundNow }
      else s.setHarvest fun h => { h with archSlot := 0 }

/-- Step 5 of R23: alignment, then the boundary when it is due. Answers whether the 900 s period closed. -/
def State.harvestStep (s : State) : State × Bool :=
  let s := s.harvestAlign
  let q := s.harvest.b900.seq
  let s := if s.secondDue then s.harvestLatch false else s
  (s, s.harvest.b900.seq != q)

/-! ### The rows -/

/-- RESYNC. -/
def execResync (m : Master) (s : State) : Host.Outcome State Fault Refusal := finish (s.harvestCommand m 1)

/-- ARCH_CLEAR. -/
def execArchClear (m : Master) (s : State) : Host.Outcome State Fault Refusal := finish (s.harvestCommand m 2)

end Sys2Proof.Machine
end

