-- ==== Sys2Proof/Machine/Nv.lean ====
section
/-! DEFINITION. The NV store (chapter 17): the host's window, the commands on counters, block protection, the event log
and the scrub. What records and other writers do to the store is in Machine/Fault.lean and in their chapters. -/

namespace Sys2Proof.Machine

def nvPage : Nat := 0x05

/-! ### The window (R451, R460) -/

/-- Byte address of word `w` of the NV page that WIN_PAGE selects. -/
def State.winAddr (s : State) (w : Nat) : Nat := 128 * bits (s.dir nvPage 0x914) 11 0 + 4 * w

/-- What a host reads of the word at a byte address: 0 where it is uncorrectable. -/
def State.nvHostWord (s : State) (a : Nat) : Nat := if s.nv.badIn a 4 then 0 else nvWord s.nv.mem a

/-- A window write by master `m`, acknowledged once the word holds its new value (R451): ignored in a protected block with NV_PROTECT_WRITE, and while the store takes no
writes. -/
def State.writeWin (s : State) (m w : Nat) (v : Word) : State :=
  let a := s.winAddr w
  if s.nvProtected a then s.protectWrite m 1 (nvPage * 0x1000 + 0x980 + 4 * w) else
    (s.nvWrite a [v.toNat]).setNv fun n => { n with flight := s.nv.flight.filter fun p => p.1 != a }

/-! ### Commands (R457, R461, R463) -/

/-- CTR_ADDR. -/
def State.ctrAddr (s : State) : Nat := bits (s.dir nvPage 0x918) 18 0

def State.logEn (s : State) : Bool := bit (s.cfg nvPage 0) 0

/-- Refusals of an NV command. -/
def State.nvChecks (s : State) (code : Nat) : Checks :=
  let a := s.ctrAddr
  let none := s.nv.ctrCopy a == 3
  match code with
  | 1 => { arg := a % 32 != 0, lock := (s.page nvPage).lockCmd, state := !none || s.nvProtected a }
  | 2 => { arg := a % 32 != 0, state := none || s.nvProtected a }
  | 3 => { arg := a % 32 != 0 }
  | 4 => {}
  | 5 => { lock := (s.page nvPage).lockCmd, state := !s.logEn }
  | _ => { arg := true }

/-- COUNT_READ: the value and the copies; without a valid copy NV_CTR_INVALID. -/
def State.countRead (s : State) : State :=
  let a := s.ctrAddr
  let c := s.nv.ctrCopy a
  let r := c + 4 * b2n (s.nv.copyValid a) + 8 * b2n (s.nv.copyValid (a + 12))
  if c = 3 then (s.setNv fun n => { n with ctrResult := 3 }).raise nvPage 3
  else s.setNv fun n => { n with ctrVal := s.nv.ctrValue a, ctrResult := r }

/-- The effect of an accepted NV command. -/
def State.nvEffect (code : Nat) (s : State) : State :=
  let s := match code with
    | 1 => (s.nvWrite s.ctrAddr (nvCopyWords 0)).nvWrite (s.ctrAddr + 12) (nvCopyWords 0)
    | 2 => s.nvIncrement s.ctrAddr
    | 3 => s.countRead
    | 5 => s.setNv fun n => { n with logSlot := 0 }
    | _ => s
  s.event nvPage 0

/-- A countersigned BP_SET: the captured mask. -/
def State.setProtect (l : List Word) (s : State) : State :=
  ((s.setNv fun n => { n with bp := ((l[0]?).getD 0).toNat + ((l[1]?).getD 0).toNat * 2 ^ 32 }).event nvPage 2).event
    nvPage 0

/-- Issue an NV command: its effect comes at once, and what the one before it wrote stands. -/
def State.nvCommand (s : State) (m code : Nat) : State :=
  let s := s.nvSettled
  s.onWrite nvPage m fun (s : State) =>
    if code = 4 then
      s.twoParty nvPage m 4 (s.arg nvPage m) (s.nvChecks 4) [s.dir nvPage 0x91C, s.dir nvPage 0x920] false
        State.setProtect
    else s.immediate nvPage m code (s.nvChecks code) (State.nvEffect code)

/-! ### The event log (R459) -/

def State.logBase (s : State) : Nat := bits (s.cfg nvPage 4) 18 0
def State.logSlots (s : State) : Nat := bits (s.cfg nvPage 8) 15 0

/-- The ring is aligned and lies inside the store. -/
def State.logOk (s : State) : Bool :=
  decide (s.logBase % 128 = 0) && s.logSlots != 0 && decide (s.logBase + s.logSlots * 32 ≤ nvBytes)

/-- The sequence number of log slot `i`, when its entry is valid. -/
def State.logSlotSeq (s : State) (i : Nat) : Option Nat :=
  let a := s.logBase + 32 * i
  let q := nvWord s.nv.mem (a + 20)
  if nvWord s.nv.mem (a + 28) = 0xFFFFFFFF - q ∧ s.nv.badIn a 32 = false then some q else none

/-- The ring resumes after its newest valid entry, in the first round in which LOG_EN is active (R490). -/
def State.logResume (s : State) : State :=
  if s.nv.logResumed ∨ s.logEn = false then s
  else
    let s := s.setNv fun n => { n with logResumed := true }
    if s.logOk then
      match newestSlot ((List.range s.logSlots).map s.logSlotSeq) with
      | some (i, q) => s.setNv fun n => { n with logSlot := (i + 1) % s.logSlots, logSeq := (q + 1) % 2 ^ 32 }
      | none => s
    else s

/-- Write the log entry that has waited longest: sequence number, record words, commit word. -/
def State.logAppend (s : State) : State :=
  match s.nv.logWait with
  | [] => s
  | r :: t =>
    let s := s.setNv fun n => { n with logWait := t }
    let i := if s.logSlots = 0 then 0 else s.nv.logSlot % s.logSlots
    let a := s.logBase + 32 * i
    if s.logOk = false ∨ s.nvWritable = false then s.bump nvPage 0xA20
    else if s.nvProtected a then (s.bump nvPage 0xA20).protectWrite 3 7 0
    else
      let q := s.nv.logSeq
      let s := s.eventIf (i == 0 && (s.logSlotSeq 0).isSome) nvPage 1
      let s := ((s.nvWrite (a + 20) [q]).nvWrite a r.words).nvWrite (a + 24) [0, 0xFFFFFFFF - q]
      (s.setNv fun n => { n with logSlot := (i + 1) % s.logSlots, logSeq := (q + 1) % 2 ^ 32 }).bump nvPage 0xA18

/-- The entries that wait are written; at most `n`. -/
def State.logDrain : Nat → State → State
  | 0, s => s
  | n + 1, s => logDrain n s.logAppend

/-! ### Errors (R462, R466) -/

/-- A word is uncorrectable: NV_ECC_UNCORR. -/
def State.nvUncorr (s : State) (w : Nat) : State :=
  let a := 4 * (w % 131072)
  s.setNv fun n => { n with lastUncorr := a, bad := (n.bad.filter (· < a)) ++ [a] ++ n.bad.filter (a < ·) }

/-- The first reaction to a fault of the NV page; `detail` names the word of an ECC error. -/
def State.nvReact (s : State) (bit detail : Nat) : State :=
  match bit with
  | 0 => s.bump nvPage 0xA08
  | 1 => if detail < 131072 then s.nvUncorr detail else s
  | 3 => s.setNv fun n => { n with ctrResult := 3 }
  | 4 => s.setNv fun n => { n with holdupOk := false }
  | 5 => s.setNv fun n => { n with readOnly := true }
  | _ => s

/-! ### The rows -/

/-- WIN. -/
def execWin (m : Master) (w : Fin 32) (value : Word) (s : State) : Host.Outcome State Fault Refusal :=
  finish (s.onWrite nvPage (masterCode m) fun (s : State) => s.writeWin (masterCode m) w value)

/-- COUNT_INIT. -/
def execCountInit (m : Master) (s : State) : Host.Outcome State Fault Refusal := finish (s.nvCommand (masterCode m) 1)

/-- COUNT_INC. -/
def execCountInc (m : Master) (s : State) : Host.Outcome State Fault Refusal := finish (s.nvCommand (masterCode m) 2)

/-- COUNT_READ. -/
def execCountRead (m : Master) (s : State) : Host.Outcome State Fault Refusal := finish (s.nvCommand (masterCode m) 3)

/-- BP_SET: a guarded write, proposed or countersigned. -/
def execBpSet (m : Master) (s : State) : Host.Outcome State Fault Refusal := finish (s.nvCommand (masterCode m) 4)

/-- LOG_CLEAR. -/
def execLogClear (m : Master) (s : State) : Host.Outcome State Fault Refusal := finish (s.nvCommand (masterCode m) 5)

/-- LOG_APPEND. -/
def execLogAppend (s : State) : Host.Outcome State Fault Refusal := finish s.logAppend

/-- The power state counts RUN_HOURS. -/
def PState.runs (p : PState) : Bool := p == .run || p == .reduced || p == .survival

/-- RUN_HOURS. -/
def execRunHours (s : State) : Host.Outcome State Fault Refusal :=
  finish (if s.budget.pstate.runs then s.deviceCounter 1 else s)

/-- NV_SCRUB of word `w`. -/
def execNvScrub (w : Nat) (err : ScrubResult) (s : State) : Host.Outcome State Fault Refusal :=
  finish <| match err with
    | .clean => s
    | .corrected => (s.nvReact 0 0).raise nvPage 0
    | .uncorrectable => (s.nvReact 1 w).raise nvPage 1

/-- NV_HOLDUP_LOW: the 1 ms check of the reserve; the fault is raised when the reserve is first found low. -/
def execNvHoldupLow (low : Bool) (s : State) : Host.Outcome State Fault Refusal :=
  let was := s.nv.holdupOk
  let s := s.setNv fun n => { n with holdupSeen := true, holdupOk := !low }
  finish (if low && was then s.raise nvPage 4 else s)

end Sys2Proof.Machine
end

