-- ==== Sys2Proof/Machine/Line.lean ====
section
/-! DEFINITION. The line code of the Vilcia link (R254, R255): 8b/10b code groups and running disparity. The spec names the
code and its clause; the tables are the family's (PRESUMED, log entry 71). A code group is a number of ten bits whose most
significant one is bit `a`, the first on the line. -/

namespace Sys2Proof.Machine

/-- The characters of the link (R255). -/
inductive LineChar where
  /-- K28.5, idle -/
  | k285
  /-- K28.1, on-time marker -/
  | k281
  /-- K27.7, start of frame -/
  | k277
  /-- K29.7, end of frame -/
  | k297
  /-- K30.7, abort -/
  | k307
  | data (byte : Nat)
  deriving DecidableEq, Repr

/-- The six bits abcdei of D.x with negative running disparity before them. -/
def fiveSix : List Nat :=
  [0b100111, 0b011101, 0b101101, 0b110001, 0b110101, 0b101001, 0b011001, 0b111000,
   0b111001, 0b100101, 0b010101, 0b110100, 0b001101, 0b101100, 0b011100, 0b010111,
   0b011011, 0b100011, 0b010011, 0b110010, 0b001011, 0b101010, 0b011010, 0b111010,
   0b110011, 0b100110, 0b010110, 0b110110, 0b001110, 0b101110, 0b011110, 0b101011]

/-- The four bits fghj of D.x.y with negative running disparity before them; y = 7 in its primary form. -/
def threeFour : List Nat := [0b1011, 0b1001, 0b0101, 0b1100, 0b1101, 0b1010, 0b0110, 0b1110]

/-- The ones among the low `k` bits. -/
def ones (k w : Nat) : Nat := ((List.range k).filter w.testBit).length

/-- A block of `k` bits after running disparity `rd`: `w` is its form after negative disparity, and its complement is the
form after positive disparity, where they differ in weight or the block is one of the two balanced pairs. -/
def lineBlock (k w : Nat) (pair rd : Bool) : Nat × Bool :=
  let even := ones k w * 2 == k
  (if rd && (!even || pair) then 2 ^ k - 1 - w else w, if even then rd else !rd)

/-- The alternate form of D.x.7, which avoids a run of five. -/
def altSeven (x : Nat) (rd : Bool) : Bool := if rd then x == 11 || x == 13 || x == 14 else x == 17 || x == 18 || x == 20

/-- The code group of a data byte after running disparity `rd` (false negative), and the disparity after it. -/
def encodeByte (byte : Nat) (rd : Bool) : Nat × Bool :=
  let x := byte % 32
  let y := byte / 32 % 8
  let (six, rd) := lineBlock 6 ((fiveSix[x]?).getD 0) (x == 7) rd
  let four := if y = 7 ∧ altSeven x rd then 0b0111 else (threeFour[y]?).getD 0
  let (four, rd) := lineBlock 4 four (y == 3) rd
  (six * 16 + four, rd)

/-- The code group of a character. -/
def encodeChar (c : LineChar) (rd : Bool) : Nat × Bool :=
  match c with
  | .data b => encodeByte b rd
  | .k285 => (if rd then 0b1100000101 else 0b0011111010, !rd)
  | .k281 => (if rd then 0b1100000110 else 0b0011111001, !rd)
  | .k277 => (if rd then 0b0010010111 else 0b1101101000, rd)
  | .k297 => (if rd then 0b0100010111 else 0b1011101000, rd)
  | .k307 => (if rd then 0b1000010111 else 0b0111101000, rd)

/-- The code groups of characters in turn, and the running disparity after them. -/
def encodeLine : Bool → List LineChar → List Nat × Bool
  | rd, [] => ([], rd)
  | rd, c :: cs =>
    let (g, rd) := encodeChar c rd
    let (gs, rd) := encodeLine rd cs
    (g :: gs, rd)

end Sys2Proof.Machine
end

