-- ==== Sys2Proof/Machine/Vilcia.lean ====
section
/-! DEFINITION. The Vilcia time link (R253 to R272): frame content, ticks, the safe sequence. -/

namespace Sys2Proof.Machine

/-- The host area: HOST_TLV_LEN bytes, each word most significant byte first (R270). -/
def State.hostArea (s : State) : List Nat :=
  let n := min (bits (s.cfg 0x0A 0x20) 7 0) 128
  ((List.range 32).flatMap fun w => beBytes 4 (s.cfg 0x0A (0x80 + 4 * w)).toNat).take n

/-- The area splits into whole items of types 0x80 to 0xFE (R261); `k` bounds the items. -/
def itemsOk : Nat → List Nat → Bool
  | _, [] => true
  | 0, _ => false
  | k + 1, ty :: len :: rest =>
    decide (0x80 ≤ ty) && decide (ty ≤ 0xFE) && decide (len ≤ rest.length) && itemsOk k (rest.drop len)
  | _, _ => false

/-- CFG_ERR of an enabled link (R263): a code that stops the frames is shown before one that does not. -/
def State.linkError (s : State) (v : Nat) : Nat :=
  let d := s.linkDom v
  if bit (s.linkCfg v) 0 = false then 0
  else if s.member d (s.out (32 + v)).cfg.syn = false then 1
  else if (s.syn (s.dom d).fbSyn).plan.timePlanOk = false then 3
  else if bit (s.linkCfg v) 14 ∧ itemsOk 64 s.hostArea = false then 2 else 0

/-- Link `v` at a boundary; `swap` at a swap boundary. -/
def State.linkBoundary (swap : Bool) (s : State) (v : Nat) : State :=
  let s := s.linkSync v
  let err := s.linkError v
  let s := s.eventIf (err != 0 && err != (s.link v).cfgErr) 0x0A (8 + v)
  let ok := if swap then itemsOk 64 s.hostArea else (s.link v).hostOk
  let s := s.setLink v fun l => { l with
    cfgErr := err, hostOk := ok, withhold := false, idled := l.state == .idle || l.idled }
  if swap ∧ (s.link v).state = .sending ∧ (bit (s.linkCfg v) 0 = false ∨ err = 1 ∨ err = 3) then s.linkTo v .idle else s

/-- What ends with the ending round: the scale before a change of T, and the frame in flight. -/
def State.linkEnds (s : State) (v : Nat) : State := s.setLink v fun l => { l with old := none, flight := none }

/-! ### Content (R257 to R261) -/

/-- The role in SENDER. -/
def Role.code : Role → Nat
  | .solo => 0
  | .active => 1
  | .standby => 2
  | .syncing => 3

/-- DOM_STATUS.STATE of a domain state (R192). -/
def DState.code : DState → Nat
  | .init => 0
  | .freeRun => 1
  | .acquire => 2
  | .locked => 3
  | .holdover => 4
  | .holdoverLimited => 5

/-- FREQ_OFS (R260). -/
def State.freqOfs (s : State) (d : Nat) : Nat :=
  let x := s.dom d
  match x.eHist[0]?, x.eHist[8000]? with
  | some a, some b =>
    if x.state = .acquire ∨ x.state = .locked then
      (iclamp (roundDiv (-(a - b) * 3125) 262144) (-2147483647) 2147483647 % 2 ^ 32).toNat
    else 0x80000000
  | _, _ => 0x80000000

/-- HO_ELAPSED in seconds (R191). -/
def Dom.hoSeconds (x : Dom) : Nat := x.hoRounds / 8000

/-- The domain holds over. -/
def Dom.holding (x : Dom) : Bool := x.state == .holdover || x.state == .holdoverLimited

/-- The TLV area of link `v` (R261). -/
def State.linkTlv (s : State) (v : Nat) : List Nat :=
  let w := s.linkCfg v
  let d := s.linkDom v
  let sel := (s.dom d).sel
  let cand := if sel.valid then (s.slotCand d sel.slot).getD 0xFF else 0xFF
  (if bit w 12 then [1, 6, 0x32, 0x40, 0xB1, 0, s.pair.role.code, 0] else [])
    ++ (if bit w 13 then [2, 2, cand, (if sel.ens then 0x80 else 0) + sel.rank % 16] else [])
    ++ (if bit w 14 ∧ (s.link v).hostOk then s.hostArea else [])

/-- The content of link `v` as the board builds it in a round. -/
def State.linkContent (s : State) (v : Nat) : Content :=
  let d := s.linkDom v
  let x := s.dom d
  { version := 0x10 + s.board.run.proto / 65536 % 16
    flags := 32 * b2n x.holding + 64 * b2n s.standby
    src := d * 64 + bits (s.linkCfg v) 9 4
    dstate := x.state.code
    ql := x.qlOut
    utc := s.dir 0x09 (utcReg d)
    leap := s.dir 0x09 (leapReg d)
    armed := (s.tdom d).armed
    inLeap := (s.tdom d).inLeap
    loop := b2n x.sluClamp + 2 * b2n x.sel.steering + 4 * b2n x.sel.bridging + 8 * b2n x.frozen
    freqOfs := s.freqOfs d
    hoSec := if x.holding then min x.hoSeconds 65535 else 0
    tlv := s.linkTlv v }

/-- The content of a frame of the safe sequence (R264). -/
def Content.dnu (c : Content) : Content :=
  { c with flags := c.flags / 64 % 2 * 64, dstate := 7, ql := 15, freqOfs := 0x80000000 }

/-- Stage the content that the board built in the ending round, `ends` being its end; a domain that the variant did not run
repeats the last one (R257, R264), and so does one whose group did not close (`kept`, R26). -/
def State.stageLink (kept : Bool) (ends s : State) (v : Nat) : State :=
  let old := (s.link v).content
  let c := if (ends.dom (ends.linkDom v)).frozen ∨ kept then 
      (if kept then old else { old with loop := old.loop / 16 * 16 + old.loop % 8 + 8 })
    else ends.linkContent v
  let c := if (s.link v).state = .dnu then c.dnu else c
  s.setLink v fun l => { l with prevContent := l.content, content := c }

/-- The ticks follow the domain of the staged content: the character grid is kept on its T from the boundary on (R256). -/
def State.linkDomain (s : State) (v : Nat) : State :=
  let l := s.link v
  let d := l.content.src / 64
  if l.state = .off ∨ l.dom = d then s
  else
    let dt := roundDiv ((s.tdom d).t - (s.tdom l.dom).t) 1280
    s.setLink v fun l => { l with
      dom := d, grid := (((l.grid : Int) + dt) % 524288).toNat, tick := -1, lineEnd := l.lineEnd.map (· + dt) }

/-! ### Ticks (R256, R257) -/

/-- 125 µs of T. -/
def tickUnits : Int := 125000 * nsUnits

/-- The delay from the feedback tap to the ball of output `j`, in units of T (R205). -/
def State.ballDelay (s : State) (j : Nat) : Int :=
  let o := s.out j
  let f := (s.syn o.cfg.syn).plan.fvco
  roundDiv (o.pathDly * nsUnits) 256000 + roundDiv (o.cfg.fine * nsUnits) 1000
    + roundDiv (o.cfg.coarse * 2 ^ 48 * secUnits) f

/-- UTC offset, LEAP.ARM, IN_LEAP at a tick of T, as R242 leaves them there, from the words that the board read. -/
def Content.leapView (c : Content) (x : TimeDom) (valid : Bool) (v : Int) : Nat × Bool × Bool :=
  let i := leapInstantOf c.leap c.utc
  let ofs := bits c.utc 15 0
  if bit c.leap 24 ∧ c.armed ∧ valid ∧ bit c.utc 16 ∧ i ≤ v then
    (((signed 16 ofs + (if bit c.leap 25 then -1 else 1)) % 65536).toNat, false, !bit c.leap 25 && decide (v < i + secUnits))
  else (ofs, bit c.leap 24, c.inLeap && decide (v < x.leapEnd))

/-- The tick that a frame marks: its number, MARK_OFS and VALID on the scale that it falls on, and the content that the
frame carries; `old` on the scale before a change of T (R257, R265). -/
structure Due where
  n : Int
  mark : Nat
  valid : Bool
  content : Content
  old : Bool
  deriving DecidableEq, Repr

/-- The next tick of link `v` in the present round: the first after the boundary, and after the last one sent. After a
change of T at the boundary the new scale begins 2 µs after it (R265). -/
def State.nextTick (s : State) (v : Nat) : Int :=
  let l := s.link v
  let t := (s.tdom l.dom).t
  let from_ := if l.old.isSome then t + 2000 * nsUnits - s.ballDelay (32 + v) - 1 else t
  let n := floorDiv from_ tickUnits + 1
  if l.tick < n then n else l.tick + 1

/-- The ideal instant of tick `n` lies less than 2 µs after the boundary, at which T was `t`. -/
def State.earlyTick (s : State) (v : Nat) (t n : Int) : Bool :=
  decide (n * tickUnits + s.ballDelay (32 + v) - t < 2000 * nsUnits)

/-- The tick of link `v` that is due. -/
def State.due (s : State) (v : Nat) : Due :=
  let l := s.link v
  let n := s.nextTick v
  let new : Due := { n, mark := l.grid % 524288, valid := (s.tdom l.dom).valid, old := false
                     content := if s.earlyTick v (s.tdom l.dom).t n then l.prevContent else l.content }
  match l.old with
  | some o =>
    let m := floorDiv o.t tickUnits + 1
    if o.sent = false ∧ o.tick < m ∧ s.earlyTick v o.t m then
      { n := m, mark := o.grid % 524288, valid := o.valid, content := l.prevContent, old := true }
    else new
  | none => new

/-- The payload of a frame (R258, R259). -/
def State.payload (s : State) (v : Nat) (d : Due) : List Nat :=
  let c := d.content
  let valid := d.valid && c.dstate != 7
  let (ofs, arm, inLeap) := c.leapView (s.tdom (s.link v).dom) d.valid (d.n * tickUnits)
  let flags := b2n valid + 2 * b2n (bit c.utc 16) + 4 * b2n arm + 8 * b2n (bit c.leap 25) + 16 * b2n inLeap + c.flags / 32 % 4 * 32
  [c.version, flags] ++ beBytes 2 (d.n % 65536).toNat ++ [c.src, c.dstate * 16 + c.ql]
    ++ beBytes 6 (d.n / 8000).toNat ++ beBytes 4 ((d.n % 8000).toNat * 125000) ++ beBytes 4 d.mark
    ++ beBytes 2 ofs ++ beBytes 3 (bits c.leap 23 0) ++ [c.loop] ++ beBytes 4 c.freqOfs ++ beBytes 2 c.hoSec
    ++ beBytes 2 c.tlv.length ++ c.tlv

/-- Running disparity before the next frame, `mark` being T at its marker in 2^-16 ns: each idle character between turns
it. How many idles came before the first frame, no command says: a free value (R254; log entry 71). -/
def State.disparity (s : State) (v : Nat) (mark : Int) : Bool :=
  let l := s.link v
  match l.lineEnd with
  | some e => xor l.rd (((mark - e) / 524288) % 2 == 1)
  | none => Config.freeInt (0x780 + v) s.free % 2 == 1

/-- Put a frame on the line: its code groups, the running disparity after it, and where it ends. -/
def Link.onLine (l : Link) (rd : Bool) (mark : Int) (chars : List LineChar) : Link :=
  let (gs, after) := encodeLine rd chars
  { l with line := gs, rdFrom := rd, rd := after, lineEnd := some (mark + 524288 * chars.length) }

/-- The characters of a whole frame, and of one that is aborted in place of its CRC (R255, R272). -/
def frameChars (body : List Nat) : List LineChar := [.k281, .k277] ++ (body ++ leBytes 4 (crc32 body)).map .data ++ [.k297]
def abortedChars (frame : List Nat) : List LineChar := [.k281, .k277] ++ (frame.take (frame.length - 4)).map .data ++ [.k307]

/-- T at the marker of a frame, 2^-16 ns (R256). -/
def Due.markAt (d : Due) : Int := roundDiv (d.n * tickUnits) 1280 + d.mark

/-- The tick is past: on its own scale it has been dealt with. -/
def Link.passed (l : Link) (d : Due) : Link :=
  if d.old then { l with old := l.old.map fun o => { o with sent := true } } else { l with tick := d.n }

/-- Send the frame of a tick: counted, shown in LAST_TX, and on the line as R254 and R255 fix. -/
def State.sendFrame (s : State) (v : Nat) (d : Due) : State :=
  let p := s.payload v d
  let c := d.content
  let s := s.bump 0x0A (0xA00 + 8 * v)
  let s := if c.ql = 15 then s.bump 0x0A (0xA40 + 8 * v) else s
  let shift : Int := match d.old, (s.link v).old with
    | true, some o => roundDiv ((s.tdom (s.link v).dom).t - o.t) 1280
    | _, _ => 0
  let mark := d.markAt + shift
  let rd := s.disparity v mark
  (s.setLink v fun l => { (((l.onLine rd mark (frameChars p)).passed d)) with
    flight := some ((l.lastSeq, l.lastQl, l.lastState), c.ql == 15)
    lastSeq := (d.n % 65536).toNat, lastQl := c.ql, lastState := c.dstate, markOfs := d.mark
    frame := p ++ leBytes 4 (crc32 p) }).nextFree

/-- A tick without a frame, or with an aborted one (R272). -/
def State.withheld (s : State) (v : Nat) : State := s.bump 0x0A (0xA80 + 8 * v)

/-- The tick is sent as idles (R272). -/
def State.skipTick (s : State) (v : Nat) (d : Due) : State := (s.withheld v).setLink v fun l => l.passed d

/-- One tick of link `v`. -/
def State.linkTick (s : State) (v : Nat) : State :=
  let l := s.link v
  let d := s.due v
  match l.state with
  | .idle =>
    if bit (s.linkCfg v) 0 ∧ (l.cfgErr = 0 ∨ l.cfgErr = 2) ∧ l.idled ∧ (s.out (32 + v)).state = .run then
      (if l.withhold then s.skipTick v d else (s.linkTo v .sending).sendFrame v d)
    else s
  | .sending => if l.withhold then s.skipTick v d else s.sendFrame v d
  | .dnu =>
    let s := if l.withhold then s.skipTick v d else s.sendFrame v d
    if d.content.dstate = 7 then
      let s := s.setLink v fun l => { l with dnuLeft := l.dnuLeft - 1 }
      if (s.link v).dnuLeft = 0 then s.linkTo v .safeIdle else s
    else s
  | _ => s

/-- TICK. -/
def execTick (v : Fin 8) (s : State) : Host.Outcome State Fault Refusal := finish (s.linkTick v)

/-- The frame in flight ends with K30.7 in place of its CRC and K29.7: it is no frame sent, and counts in WITHHELD (R272). -/
def State.abortFrame (s : State) (v : Nat) : State :=
  match (s.link v).flight with
  | none => s
  | some (tx, dnu) =>
    let s := (s.withheld v).addCtr 0x0A (0xA00 + 8 * v) (2 ^ 64 - 1)
    let s := if dnu then s.addCtr 0x0A (0xA40 + 8 * v) (2 ^ 64 - 1) else s
    s.setLink v fun l =>
      let chars := abortedChars l.frame
      let start := (l.lineEnd.getD 0) - 524288 * l.line.length
      { (l.onLine l.rdFrom start chars) with
        flight := none, frame := [], lastSeq := tx.1, lastQl := tx.2.1, lastState := tx.2.2 }

/-- The first reactions of R272 on link `v`: frames withheld; a frame in flight is aborted. -/
def State.linkReact (s : State) (v b : Nat) : State :=
  if b < 2 then s.setLink v fun l => { l with withhold := true }
  else if b = 2 then s.abortFrame v else s

end Sys2Proof.Machine
end

