-- ==== Sys2Proof/Machine/PairRecord.lean ====
section
/-! DEFINITION. Relnan mirror records (R313 to R318): building one, checking one that arrives, and what the castling
link measures (R312, R319, R320). -/

namespace Sys2Proof.Machine

/-! ### Building (R314 to R317) -/

/-- Relnan major and minor of the book in effect. -/
def State.relnanMajor (s : State) : Nat := nbits s.board.run.proto 15 8
def State.relnanMinor (s : State) : Nat := s.board.run.proto % 256

/-- CFG_DIGEST: CRC-32 over the active sets of the TIME, DOM and SYN pages in page order (R314). -/
def State.cfgDigest (s : State) : Nat :=
  let pages := [0x09] ++ (List.range 12).map (0x70 + ·) ++ (List.range 8).map (0x80 + ·)
  crc32 (pages.flatMap fun p => (List.range 256).flatMap fun i => leBytes 4 (s.cfg p (4 * i)).toNat)

/-- Byte 16 of the header. -/
def State.recFlags (s : State) : Nat :=
  let p := s.pair
  p.role.code + 4 * b2n p.castleReq + 8 * b2n (p.takenLeft != 0) + 16 * b2n (s.budget.pstate == .survival)
    + 32 * b2n p.lost + 64 * b2n p.aligned + 128 * b2n p.quiet + p.cause % 16 * 256 + s.budget.headroom % 256 * 65536

/-- Coarse count and fine field of an instant in fine units. -/
def splitFine (t : Int) : Nat × Nat := ((floorDiv t finePeriod).toNat, (t % finePeriod).toNat)

/-- T as the three words of TOD_BND: seconds low; seconds high with the fraction; nanoseconds (R249). -/
def todWords (v : Int) : Nat × Nat × Nat :=
  let u := (floorDiv v 1280).toNat
  let ns := u / 65536
  let sec := ns / 1000000000
  (sec % 2 ^ 32, sec / 2 ^ 32 % 65536 + u % 65536 * 65536, ns % 1000000000)

/-- A word of optional slot numbers: value, set. -/
def optSlot (o : Option Nat) : Nat := match o with | some v => v % 8 + 8 | none => 0

/-- The DOMAIN item of domain `d`: its 22 words (R316). -/
def State.domItem (s : State) (d : Nat) : List Nat :=
  let x := s.dom d
  let l := x.sel
  let time := decide (d < 4)
  let t := s.tdom d
  let w0 := d + x.state.code * 16 + b2n x.safe * 128 + x.qlOut % 16 * 256 + b2n x.forcedHo * 4096 + b2n x.frozen * 8192
    + b2n (time && t.stepped) * 16384 + b2n (time && t.valid) * 32768 + l.slot % 8 * 65536 + b2n l.valid * 524288
    + l.src % 4 * 1048576
  let parked := (List.range 8).foldl (fun a i => a + b2n (l.slotAt i).parked * 2 ^ i) 0
  let ep := ((s.syn x.fbSyn).epochs.head?).getD 0
  let (c, f) := splitFine ep
  let (t0, t1, t2) := if time then todWords (s.timeAt d ep) else (0, 0, 0)
  [w0, optSlot l.manual + optSlot l.forced * 16 + parked * 256,
    if l.wtrRun then (bits (s.cfg (0x70 + d) 0x104) 15 0 * 1000 - l.wtrLeft) % 2 ^ 26 else 0]
    ++ (List.range 8).map (fun i => (l.slotAt i).w)
    ++ [c % 2 ^ 32, c / 2 ^ 32 % 65536, f, t0, t1, t2,
        if time then (s.dir 0x09 (utcReg d)).toNat else 0, if time then (s.dir 0x09 (leapReg d)).toNat else 0,
        x.hoSeconds, if time then t.epoch else 0, 0]

/-- An item: TYPE, LENGTH and value. -/
def item (type : Nat) (ws : List Nat) : List Nat := (type + 4 * ws.length * 65536) :: ws

/-- The QUAL item: the candidates in FORCED_OUT. -/
def State.qualItem (s : State) : List Nat :=
  let v := (List.range 40).foldl (fun a i => a + b2n ((s.qual i).state == .forcedOut) * 2 ^ i) 0
  [v % 2 ^ 32, v / 2 ^ 32]

/-- The PCLK item: the last marked event stamped, their number, and the arrival of the partner's ordered set. -/
def State.pclkItem (s : State) : List Nat :=
  let (c, f) := splitFine s.pair.pclkLast
  [c % 2 ^ 32, c / 2 ^ 32, f, s.pair.pclkCount % 65536, s.pair.arrival % 2 ^ 32, s.pair.arrival / 2 ^ 32]

/-- The SVC item: key slots, and the number of the grant-table pass. -/
def State.svcItem (s : State) : List Nat :=
  let valid := (List.range 4).foldl (fun a k => a + b2n (s.keySlot k).valid * 2 ^ k) 0
  [s.svc.keyCur % 4 + valid * 16, s.pair.grantPass % 65536]

/-- A signed byte. -/
def sbyte (i : Int) : Nat := (i % 256).toNat

/-- A grant entry: eight words (R317); a free context shows VALID 0. -/
def grantEntry (ctx : Nat) (g : Option Grant) : List Nat :=
  match g with
  | none => [ctx, 0, 0, 0, 0, 0, 0, 0]
  | some g =>
    let a := (List.replicate (16 - g.addr.length) 0 ++ g.addr).take 16
    [ctx + g.port % 4 * 2048 + 8192 + b2n g.ipv6 * 16384,
     sbyte g.sync + sbyte g.announce * 256 + sbyte g.dresp * 65536 + g.mask % 256 * 2 ^ 24, g.secs % 2 ^ 32,
     g.seqSync % 65536 + g.seqAnn % 65536 * 65536,
     leNat (slice a 0 4), leNat (slice a 4 4), leNat (slice a 8 4), leNat (slice a 12 4)]

/-- Contexts that changed since they were last sent, oldest change first, at most 64. -/
def State.changedGrants (s : State) : List Nat :=
  let l := (s.svc.grants.filterMap fun (c, g) => match g with
    | some g => g.changed.map fun n => (n, c)
    | none => none) ++ s.svc.freed
  let sorted := l.foldl (fun (acc : List (Nat × Nat)) p => acc.filter (fun q => q.1 < p.1) ++ [p] ++ acc.filter fun q => p.1 < q.1) []
  (sorted.map (·.2)).take 64

/-- The contexts of a record: the changed ones, then the rotation, 128 in all (R317). -/
def State.grantContexts (s : State) : List Nat :=
  let ch := s.changedGrants
  ch ++ (List.range (128 - ch.length)).map fun i => (s.pair.grantNext + i) % 2048

/-- The items of a record: an ACTIVE device sends all five types, a STANDBY or SYNCING one only PCLK; a SOLO device
sends the DOMAIN items that the start rule of R309 counts (R315, log entry 30). -/
def State.recItems (s : State) : List Nat :=
  let doms := (List.range 12).flatMap fun d => if !s.isInit d || (s.dom d).safe then item 1 (s.domItem d) else []
  if s.pair.role = .active then
    let cs := s.grantContexts
    doms ++ item 2 s.qualItem ++ item 3 s.pclkItem ++ item 4 s.svcItem
      ++ item 5 (cs.length :: cs.flatMap fun c => grantEntry c (s.grant c))
  else (if s.pair.role = .solo then doms else []) ++ item 3 s.pclkItem

/-- The record of the round, in bytes. -/
def State.buildRecord (s : State) : List Nat :=
  let its := s.recItems
  let len := 40 + 4 * its.length + 4
  let hdr := [0x524D0000 + s.board.run.proto % 65536, s.pair.rseq, s.osc.bnd % 2 ^ 32, s.osc.bnd / 2 ^ 32, s.recFlags, len,
    s.cfgDigest, s.pair.recLast % 65536, s.sec.ownUid % 2 ^ 32, s.sec.ownUid / 2 ^ 32]
  let bs := (hdr ++ its).flatMap (leBytes 4)
  bs ++ leBytes 4 (crc32 bs)

/-- The grants of a record count as sent, and the rotation goes on. -/
def State.grantsSent (s : State) : State :=
  if s.pair.role = .active then
    let ch := s.changedGrants
    let n := s.pair.grantNext + (128 - ch.length)
    let s := ch.foldl (fun s c => s.setGrant c ((s.grant c).map fun g => { g with changed := none })) s
    let s := s.setSvc fun v => { v with freed := v.freed.filter fun q => !ch.contains q.2 }
    s.setPair fun p => { p with
      grantNext := n % 2048, grantPass := if 2048 ≤ n then (p.grantPass + 1) % 65536 else p.grantPass }
  else s

/-! ### The castling link (R310, R311) -/

/-- The data blocks of one lane: 8-byte groups, and the group with which the packet ends. -/
def laneData (last : Nat) (l : List (List Nat × Nat)) : List LaneBlock :=
  l.flatMap fun g =>
    if g.2 = last then (if g.1.length = 8 then [.data g.1, .stop []] else [.stop g.1]) else [.data g.1]

/-- A packet on the two lanes: group g on lane g mod 2, start blocks in one block period, a terminate block on the lane of
the last group and idle beside it (R310). A last group of 8 bytes is followed by an empty terminate block (log entry 72). -/
def laneBlocks (bs : List Nat) : List (List LaneBlock) :=
  let n := (bs.length + 7) / 8
  let gs := (List.range n).map fun g => (slice bs (8 * g) 8, g)
  let lane (k : Nat) : List LaneBlock := .start :: laneData (n - 1) (gs.filter fun g => g.2 % 2 == k)
  let a := lane 0
  let b := lane 1
  let fill (l : List LaneBlock) : List LaneBlock := l ++ List.replicate (max a.length b.length - l.length) .idle
  [fill a, fill b]

/-- The partner clock that the device sends, at a coarse count: high for half of each 8 counts, and for a quarter in the
marked cycle of every 1,000 counts (R311). -/
def partnerClock (coarse : Nat) : Bool := decide (coarse % 8 < if coarse % 1000 < 8 then 2 else 4)

/-- Build and send the record of a round; a bound SOLO device sends them while its link is up, so that the start rule of
R309 can meet (log entry 30). -/
def State.sendRecord (s : State) : State :=
  let s := s.setPair fun p => { p with lanes := [] }
  if s.pair.skip then s.setPair fun p => { p with skip := false }
  else if s.pair.bound = true ∧ s.pair.fenced = false ∧ (s.pair.role ≠ .solo ∨ s.pair.linkUp = true) ∧ s.boardRuns = true then
    let r := s.buildRecord
    let s := s.setPair fun p => { p with
      sent := r, lanes := laneBlocks r, recSize := r.length, rseq := (p.rseq + 1) % 2 ^ 32, quiet := false }
    s.grantsSent.bump 0x07 0xA08
  else s

/-! ### Arrival (R318) -/

/-- Words of a record. -/
def recWords : List Nat → List Nat
  | a :: b :: c :: d :: t => leNat [a, b, c, d] :: recWords t
  | _ => []

/-- Items of a record: type and words; `none` when one runs past the end. The first argument bounds them. -/
def splitItems : Nat → List Nat → Option (List (Nat × List Nat))
  | _, [] => some []
  | 0, _ => none
  | k + 1, h :: t =>
    let n := h / 65536 / 4
    if h / 65536 % 4 ≠ 0 ∨ t.length < n then none
    else (splitItems k (t.drop n)).map ((h % 65536, t.take n) :: ·)

/-- Eight words at a time, `n` times. -/
def chunks8 : Nat → List Nat → List (List Nat)
  | 0, _ => []
  | k + 1, l => l.take 8 :: chunks8 k (l.drop 8)

/-- A known item is not shorter than in minor 0. -/
def itemLong (i : Nat × List Nat) : Bool :=
  match i.1 with
  | 1 => decide (22 ≤ i.2.length)
  | 2 | 4 => decide (2 ≤ i.2.length)
  | 3 => decide (6 ≤ i.2.length)
  | 5 => decide (1 ≤ i.2.length) && decide (8 * ((i.2[0]?).getD 0 % 256) + 1 ≤ i.2.length)
  | _ => true

/-- The record in a list of words (CRC excluded); `none` when an item is malformed. -/
def parseRecord (ws : List Nat) : Option Record :=
  let g (i : Nat) := (ws[i]?).getD 0
  match splitItems ws.length (ws.drop 10) with
  | none => none
  | some its =>
    if its.all itemLong then
      let find (t : Nat) := (its.find? fun i => i.1 == t).map (·.2)
      some
        { major := nbits (g 0) 15 8, minor := g 0 % 256, rseq := g 1, coarse := g 2 + g 3 * 2 ^ 32, flags := g 4
          digest := g 6, uid := g 8 + g 9 * 2 ^ 32
          doms := its.filterMap fun i => if i.1 = 1 then some ((i.2[0]?).getD 0 % 16, { words := i.2.take 22 }) else none
          qual := (find 2).map fun w => (w[0]?).getD 0 + (w[1]?).getD 0 % 256 * 2 ^ 32
          pclk := (find 3).map (·.take 6), svc := (find 4).map (·.take 2)
          grants := match find 5 with
            | some w => chunks8 ((w[0]?).getD 0 % 256) (w.drop 1)
            | none => [] }
    else none

/-- A discarded record. -/
def State.rejectRecord (s : State) : State := s.bump 0x07 0xA18

/-- The off_c of R312 from an accepted record: our arrival stamp of the ordered set that left with it against its
sender's boundary, and the sender's arrival stamp of our own. -/
def State.coarseOffset (s : State) (r : Record) : State :=
  match r.pclk with
  | some w =>
    let one : Int := s.pair.arrival - (r.coarse + roundLen : Nat)
    let arr : Int := ((w[4]?).getD 0 + (w[5]?).getD 0 * 2 ^ 32 : Nat)
    let len : Int := roundLen
    let n := roundDiv (arr + one - s.osc.bnd) len
    let two := s.osc.bnd + n * len - arr
    if s.pair.arrival = 0 ∨ arr = 0 then s
    else s.setPair fun p => { p with offOne := one, offC := some (floorDiv (one + two) 2) }
  | none => s

/-- RECORD_ARRIVAL: the checks of R318; the newest accepted record waits for the boundary. -/
def State.recordArrives (s : State) (bs : List Nat) : State :=
  let n := bs.length
  let ws := recWords (bs.take (n - 4))
  let g (i : Nat) := (ws[i]?).getD 0
  if s.pair.fenced then s
  else if n < 44 ∨ crc32 (bs.take (n - 4)) ≠ leNat (bs.drop (n - 4)) then (s.rejectRecord).raise 0x07 0
  else if g 0 / 65536 ≠ 0x524D ∨ g 5 ≠ n ∨ n % 4 ≠ 0 ∨ 6144 < n then s.rejectRecord
  else if s.pair.bound = false ∨ g 8 + g 9 * 2 ^ 32 ≠ s.pair.boundUid then s.rejectRecord
  else
    let major := nbits (g 0) 15 8
    let minor := g 0 % 256
    let quiet := (g 4).testBit 7
    let s := s.setPair fun p => { p with silent := 0 }
    if major ≠ s.relnanMajor ∨ 1 < ((minor : Int) - s.relnanMinor).natAbs then
      (s.event 0x07 5).rejectRecord.setPair fun p => { p with
        verOk := false, verOnly := some (g 4 % 4, g 8 + g 9 * 2 ^ 32), inbox := none }
    else
      match parseRecord ws with
      | none => s.rejectRecord
      | some r => (s.coarseOffset r).setPair fun p => { p with
          inbox := some r, verOnly := none, quietLeft := if quiet then 24 else p.quietLeft }

/-! ### Offsets (R319, R320) -/

/-- PCLK_ASYM in fine units. -/
def State.asym (s : State) : Int := fineOfPs (signed 16 (bits (s.cfg 0x07 4) 15 0))

/-- The raw offset of R319. -/
def rawOffset (sb sa offc asym : Int) : Int :=
  let m : Int := 1000 * finePeriod
  let m0 : Int := 8 * finePeriod
  let na := m0 + m * roundDiv (sb - offc - m0) m
  let nb := m0 + m * roundDiv (sa + offc - m0) m
  floorDiv ((sb - na) + (nb - sa) - asym) 2

/-- One round of the offset (R319): `sb` is the own stamp of the last marked event, when one was stamped and a record
of the round brings one that the partner stamped; without both, the line is extrapolated. -/
def State.offsetRound (s : State) (sb : Option Int) : State :=
  let new := match sb, s.pair.offC, s.pair.applied.bind (·.pclk) with
    | some sb, some oc, some w =>
      if (w[3]?).getD 0 % 65536 = 0 then [] else
      let sa : Int := ((w[0]?).getD 0 + (w[1]?).getD 0 * 2 ^ 32 : Nat) * finePeriod + ((w[2]?).getD 0 % 262144 : Nat)
      [(0, rawOffset sb sa (oc * finePeriod) s.asym)]
    | _, _, _ => []
  let raws := new ++ s.pair.raws.filterMap fun p => if p.1 + 1 < 1024 then some (p.1 + 1, p.2) else none
  let line := lineAt 1 (raws.map fun p => (-(p.1 : Int) * fineRound, p.2))
  s.setPair fun p => { p with raws, off := if raws = [] then p.off else roundDiv line 256 }

/-- The element of a list of instants nearest to `t`. -/
def nearest (t : Int) : List Int → Option Int
  | [] => none
  | a :: l => match nearest t l with
    | some b => if (a - t).natAbs ≤ (b - t).natAbs then some a else some b
    | none => some a

/-- A word of a DOMAIN item. -/
def DomItem.word (i : DomItem) (k : Nat) : Nat := (i.words[k]?).getD 0

/-- The item's epoch stamp in partner time, fine units, and T at it, 2^-16 ns. -/
def DomItem.epoch (i : DomItem) : Int :=
  (i.word 11 + i.word 12 % 65536 * 2 ^ 32 : Nat) * finePeriod + (i.word 13 % 262144 : Nat)
def DomItem.time (i : DomItem) : Int :=
  ((i.word 14 + i.word 15 % 65536 * 2 ^ 32 : Nat) * 1000000000 + (i.word 16 % 2 ^ 30 : Nat)) * 65536 + (i.word 15 / 65536 : Nat)

/-- The phase error of R320 of domain `d` against its item, 2^-8 fine units. -/
def State.alignError (s : State) (d : Nat) (i : DomItem) : Option Int :=
  let y := s.syn (s.dom d).fbSyn
  let target := i.epoch + s.pair.off
  match nearest target y.epochs with
  | none => none
  | some b =>
    let df := b - target
    if d < 4 then some (256 * (df - (floorDiv (s.timeAt d b) 1280 - i.time) * 5))
    else
      let e := roundDiv (y.plan.epochs * y.plan.num * finePeriod) y.plan.den
      some (256 * (if e ≤ 0 then df else df - e * floorDiv (2 * df + e) (2 * e)))

end Sys2Proof.Machine
end

