-- ==== Sys2Proof/Machine/Qual.lean ====
section
/-! DEFINITION. The reference candidates and their qualification (chapter 04): monitors, votes, quality levels, the
state machine of R111, and the QUAL commands. -/

namespace Sys2Proof.Machine


/-- The ratio has a value. -/
def State.nomOk (s : State) (i : Nat) : Bool := (s.nomOf i).1 != 0 && (s.nomOf i).2 != 0

/-- One nominal period in fine units times NOM_DEN. -/
def State.nomStep (s : State) (i : Nat) : Int := (s.nomOf i).1 * finePeriod

/-- The candidate is the selected reference or an ensemble member of an essential domain (R114). -/
def State.essentialUse (s : State) (i : Nat) : Bool := (List.range 12).any fun d => s.domFollows d i && s.essential d

/-- The candidate is frozen: by the variant in effect, or because the board runs no round (R114, R296). -/
def State.candFrozen (s : State) (i : Nat) : Bool := !s.boardRuns || (s.board.varNow == 3 && !s.essentialUse i)

/-! ### States (R111) -/

/-- Monitors cleared. -/
def Qual.clear (q : Qual) : Qual :=
  { Qual.zero with
    state := q.state, reason := q.reason, fenced := q.fenced, frozen := q.frozen, phLast := q.phLast, fresh := true
    freq := q.freq, majAgree := q.majAgree, majVoters := q.majVoters, disagree := q.disagree, rank := q.rank
    qlRx := q.qlRx, qlEnh := q.qlEnh, qlTimeout := q.qlTimeout, esmcAge := q.esmcAge }

/-- Change the state; STATE_CHANGE is noted by the caller, once a round. Entries into DISQUALIFIED count. -/
def State.qualTo (s : State) (i : Nat) (st : QState) (reason : Nat) : State :=
  let was := (s.qual i).state
  let s := s.setQual i fun q => { q with
    state := st, reason
    suspect := q.suspect && st == .qualified
    guard := if st = .qualified then q.guard else 0
    soak := if st = .soaking then bits (s.qcfg i 0x14) 15 0 * 1000 else 0 }
  if st = .disqualified ∧ was ≠ .disqualified then s.bump (qualPage i) 0xA00 else s

/-- A fenced candidate is led to DISQUALIFIED with REASON FAULT in place of SOAKING (R130). -/
def State.qualSoak (s : State) (i : Nat) : State :=
  if (s.qual i).fenced then s.qualTo i .disqualified 10 else s.qualTo i .soaking (s.qual i).reason

/-- The lowest reason code of a FAIL_SET. -/
def lowestReason (f : Nat) : Nat := ((List.range 11).find? fun r => f.testBit r).getD 0

/-- STATE_CHANGE when the state differs from what it was. -/
def State.qualNote (old : State) (i : Nat) (s : State) : State :=
  s.eventIf ((s.qual i).state != (old.qual i).state) (qualPage i) 0

/-- A configuration change of R109 or R120: back to MONITOR with the monitors cleared; a fenced candidate stays
DISQUALIFIED (R130). -/
def State.qualRestart (s : State) (i : Nat) : State :=
  match (s.qual i).state with
  | .disabled => s
  | .forcedOut => s.setQual i Qual.clear
  | _ =>
    let s := s.setQual i Qual.clear
    if (s.qual i).fenced then s.qualTo i .disqualified 10 else s.qualTo i .monitor 0

/-- The restart of a candidate at a swap boundary; a frozen one makes no transition, and restarts when it runs again
(R114). -/
def State.qualReconf (s : State) (i : Nat) : State :=
  if s.candFrozen i then s.setQual i fun q => { q with restart := q.state != .disabled }
  else State.qualNote s i (s.qualRestart i)

/-- The fused skew of input `k` for its present electrical mode (R109). -/
def State.loadSkew (s : State) (k : Nat) : State :=
  let m := bits (s.qcfg k 4) 2 0
  let v := tget (fun _ => (0 : Int)) s.sec.skews (4 * k + (if k < 32 ∧ m < 3 then m else 0))
  s.setChan k fun c => { c with skew := v }

/-- What a swap does to candidate `i` (R107, R109, R120, R122); `old` is the state before the exchange. -/
def State.qualSwap (old s : State) (i : Nat) : State :=
  let diff (x : Nat) : Bool := old.qcfg i x != s.qcfg i x
  let s := if i < 32 ∧ diff 4 = true then s.loadSkew i else s
  let nom := if i < 36 then diff 8 || diff 0xC else old.sampleLog (i - 36) != s.sampleLog (i - 36)
  let mask := diff 0x28 || (List.range 16).any fun n => diff (0x30 + 4 * n)
  let s := if bits (old.qcfg i 0) 6 4 ≠ bits (s.qcfg i 0) 6 4 then s.setQual i fun q => { q with majFail := false } else s
  if (decide (i < 32) && diff 4) || nom || mask then s.qualReconf i else s

/-! ### Activity and phase hits (R117, R118, R120) -/

/-- What the event monitors need: packet candidate, judged round, scaled nominal period, NOM_DEN, ACT_LIM, PH_LIM and y. -/
structure EvCtx where
  packet : Bool
  judge : Bool
  step : Int
  den : Int
  actLim : Nat
  phLim : Nat
  y : Int
  deriving DecidableEq, Repr

/-- An event of a candidate, everything scaled by NOM_DEN: when it came, the instant that the frequency fit takes, whether
the entry carried MISS, and for a packet candidate the step number and the supplied time error (R107). -/
structure CandEv where
  came : Int
  t : Int
  miss : Bool
  idx : Int
  err : Int
  deriving DecidableEq, Repr

/-- The residual h of R120 times NOM_DEN × 2^64, from the spacing and its whole steps; for a packet candidate from the
change of the supplied time error. -/
def EvCtx.residual (c : EvCtx) (dt k derr : Int) : Int :=
  if c.packet then derr * 2 ^ 64 - c.step * c.y else dt * 2 ^ 64 - k * c.step * (2 ^ 64 - c.y)

/-- One event: the activity verdict, and the residual when it is a phase hit. -/
def qualEvent (c : EvCtx) (a : Qual × List Int) (e : CandEv) : Qual × List Int :=
  let q := { a.1 with lastEv := some e.came, sinceEv := 0, quiet := 0, pktIdx := e.idx, pktErr := e.err }
  if c.judge = false then (q, a.2)
  else
    match a.1.lastEv with
    | none =>
      ({ q with actFail := q.actFail || e.miss, actRun := if e.miss then 0 else q.actRun, skipped := false }, a.2)
    | some l =>
      let dt := e.came - l
      let h := c.residual dt (stepsOf c.step dt).1 (e.err - a.1.pktErr)
      let above := a.1.skipped
      let bad := e.miss || (!above && decide (2 * dt < c.step))
      let run := if bad ∨ (above = false ∧ 3 * c.step < 2 * dt) then 0 else q.actRun + 1
      let hit := !above && decide ((c.phLim * 32768 : Nat) * c.den * 2 ^ 64 < h.natAbs)
      ({ q with actFail := bad || (q.actFail && decide (run < c.actLim)), actRun := run, skipped := false
                phFail := q.phFail || hit },
        if hit then h :: a.2 else a.2)

/-- No event for more than ACT_LIM nominal periods (R118); rounds in which the candidate was frozen do not count
(DEDUCED, log entry 25). -/
def Qual.silent (q : Qual) (c : EvCtx) (b : Int) : Bool :=
  match q.lastEv with
  | some l =>
    if c.packet then decide (c.actLim * c.step < q.sinceEv * fineRound * c.den)
    else decide (c.actLim * c.step < (b - q.quiet * fineRound) * c.den - l)
  | none => decide (c.actLim * c.step < q.sinceEv * fineRound * c.den)

/-- A sample of a packet candidate becomes an event: it comes at the boundary `b`, its step number follows from the
spacing, and its time error is the one supplied (R107). -/
def packetEvent (step b : Int) (a : Option Int × Int × List CandEv) (err : Int) : Option Int × Int × List CandEv :=
  let n := match a.1 with | some l => a.2.1 + (stepsOf step (b - l)).1 | none => 0
  (some b, n, a.2.2 ++ [{ came := b, t := n * step + err, miss := false, idx := n, err }])

/-- The events of the drained round, oldest first. -/
def State.candEvents (s : State) (i : Nat) : List CandEv :=
  let den : Int := (s.nomOf i).2
  let q := s.qual i
  if i < 36 then (s.chan i).drained.map fun e => { came := e.t * den, t := e.t * den, miss := e.miss, idx := 0, err := 0 }
  else ((q.samples.map (· * den)).foldl (packetEvent (s.nomStep i) (s.osc.bnd * finePeriod * den))
    (q.lastEv, q.pktIdx, [])).2.2

/-- A phase hit is noted (R120). -/
def State.phaseHit (i : Nat) (s : State) (h : Int) : State :=
  let ps := roundDiv (h * 100) ((s.nomOf i).2 * 2 ^ 64 * 32768)
  ((s.setQual i fun q => { q with phLast := ps }).event (qualPage i) 1).bump (qualPage i) 0xA08

/-- The activity and phase-hit monitors of one round, with its events. -/
def State.qualEvents (s : State) (i : Nat) (evs : List CandEv) : State :=
  let incomplete := decide (i < 36) && (s.chan i).incomplete
  let w := s.qcfg i 0x10
  let c : EvCtx :=
    { packet := decide (36 ≤ i), judge := !incomplete, step := s.nomStep i, den := (s.nomOf i).2
      actLim := max 2 (bits w 7 0), phLim := bits (s.qcfg i 0x20) 15 0
      y := if (s.qual i).fwValid then (s.qual i).freq else 0 }
  let q0 := { s.qual i with sinceEv := (s.qual i).sinceEv + 1, phFail := if incomplete then (s.qual i).phFail else false }
  let (q, hits) := evs.foldl (qualEvent c) (q0, [])
  let q := if incomplete then { q with skipped := true } else q
  let lost := c.judge && q.silent c (s.osc.bnd * finePeriod)
  let q := if lost then { q with actFail := true, actRun := 0 } else q
  hits.reverse.foldl (State.phaseHit i) (s.setQual i fun _ => q)

/-! ### The frequency window (R119) -/

/-- The verdict on a posted y: FW_LIM in ppb with 8 fractional bits. -/
def fwVerdict (lim : Nat) (was : Bool) (y : Int) : Bool :=
  let m := y.natAbs * 256 * 1000000000
  if lim = 0 then false
  else if lim * 2 ^ 64 < m then true
  else if 8 * m ≤ 7 * lim * 2 ^ 64 then false else was

/-- The gate of candidate `i` ends: posted and judged, or nothing posted. -/
def State.fwEnd (s : State) (i : Nat) : State :=
  let q := s.qual i
  let y := if q.fwBad then none else fitRatio (s.nomStep i) q.fwGate
  let lim := (s.qcfg i 0x18).toNat
  s.setQual i fun q =>
    let q := { q with fwGate := [], fwRounds := 0, fwBad := false, fwPosted1 := q.fwPosted, fwPosted := y.isSome
                      fwNew := q.fwNew || y.isSome }
    match y with
    | some r =>
      let v := ratioBits 64 r
      { q with freq := v, fwValid := true, fwFail := fwVerdict lim q.fwFail v }
    | none => q

/-- The frequency window of one round, with its events. A limit of 0 never fails, whenever it is set. -/
def State.fwRound (s : State) (i : Nat) (evs : List CandEv) : State :=
  let bad := decide (i < 36) && (s.chan i).incomplete
  let s := s.setQual i fun q => { q with
    fwGate := q.fwGate ++ evs.map (·.t), fwRounds := q.fwRounds + 1, fwBad := q.fwBad || bad
    fwFail := q.fwFail && s.qcfg i 0x18 != 0 }
  if bits (s.qcfg i 0x1C) 19 0 + 1 ≤ (s.qual i).fwRounds then s.fwEnd i else s

/-! ### Time errors (R85, R133) and masks (R121) -/

/-- Rounds of time errors that R133 may ask for. -/
def errRounds : Nat := 1024

/-- The time errors of the drained round join those kept for the phase estimates; what a domain needs of them does not
freeze with the candidate's monitors (R114, R133). -/
def State.errRound (s : State) (i : Nat) (evs : List CandEv) : State :=
  let q := s.qual i
  let den : Int := (s.nomOf i).2
  let b := s.osc.bnd * finePeriod * den
  let (tr, l) :=
    if i < 36 then trackFeed (s.nomStep i) q.track (evs.map (·.t))
    else (evs.foldl (fun _ e => some { anchor := 0, lastT := b, idx := 0, err := e.err, fresh := true }) q.track,
      evs.map fun e => (b, e.err))
  s.setQual i fun q => { q with
    track := tr
    errs := (l.map fun p => (0, p.1, p.2)).reverse
      ++ (q.errs.filterMap fun e => if e.1 + 1 < errRounds then some (e.1 + 1, e.2) else none) }

/-- Units of 2^-8 fine units times 100 in one ps. -/
def ps8 : Nat := 8388608

/-- The level and the limit of a mask point. -/
def maskPoint (w : Word) : Nat × Nat := (min (bits w 4 0) 19, bits w 31 8)

/-- A new second difference `d` (2^-8 fine units) enters an averaged point; `a` is the averaging exponent (R121). -/
def TdevPt.average (a : Nat) (d : Int) (p : TdevPt) : TdevPt :=
  let q := d.natAbs * d.natAbs
  { p with p := if p.n = 0 then q else ((p.p : Int) + floorDiv ((q : Int) - p.p) (2 ^ a : Nat)).toNat, n := min (p.n + 1) (2 ^ a) }

/-- A sample at level `m`; sums are scaled by `den`. -/
def TdevPt.sample (m a : Nat) (den : Int) (x : Option Int) (p : TdevPt) : TdevPt :=
  let p := { p with cnt := p.cnt + 1, sum := p.sum + x.getD 0, bad := p.bad || x.isNone }
  if p.cnt < 2 ^ m then p
  else
    let r := { p with cnt := 0, sum := 0, bad := false, s1 := none, s2 := none }
    if p.bad then r
    else
      let r := { r with s1 := some p.sum, s2 := p.s1 }
      match p.s1, p.s2 with
      | some x, some y => r.average a (roundDiv (256 * (p.sum - 2 * x + y)) ((2 ^ m : Nat) * den))
      | _, _ => r

/-- The TDEV estimate in ps. -/
def TdevPt.ps (p : TdevPt) : Nat := sqrtRatio (10000 * p.p) (6 * ps8 * ps8)

/-- The verdict of a TDEV point against its limit in ps. -/
def TdevPt.judge (a lim : Nat) (p : TdevPt) : TdevPt :=
  let v := 10000 * p.p
  { p with fail :=
      if lim = 0 ∨ p.n < 2 ^ a then false
      else if 6 * (ps8 * lim) ^ 2 < v then true
      else if 64 * v ≤ 49 * 6 * (ps8 * lim) ^ 2 then false else p.fail }

/-- A detrended sample (2^-8 fine units) at an MTIE point. -/
def MtiePt.sample (m lim : Nat) (x : Option Int) (p : MtiePt) : MtiePt :=
  let v := x.getD 0
  match p.span with
  | none => { p with span := some (1, v, v), bad := p.bad || x.isNone }
  | some (n, lo, hi) =>
    let p := { p with bad := p.bad || x.isNone }
    let (lo, hi) := if x.isNone then (lo, hi) else (min lo v, max hi v)
    if n < 2 ^ m then { p with span := some (n + 1, lo, hi) }
    else
      let pp := (hi - lo).toNat
      let above := decide (ps8 * lim < 100 * pp)
      let low := decide (800 * pp ≤ 7 * ps8 * lim)
      let r := { p with span := some (1, v, v), bad := x.isNone }
      if p.bad then r
      else
        let good := if low then p.good + 1 else 0
        { r with valid := true, peak := max p.peak pp, good := min good 4
                 fail := lim != 0 && (above || (p.fail && decide (good < 4))) }

def Qual.tp (q : Qual) (n : Nat) : TdevPt := tget (fun _ => TdevPt.zero) q.tdev n
def Qual.mp (q : Qual) (n : Nat) : MtiePt := tget (fun _ => MtiePt.zero) q.mtie n

/-- MASK_AVG as used (R121). -/
def State.maskAvg (s : State) (i : Nat) : Nat := clamp (bits (s.qcfg i 0x28) 27 24) 2 10

/-- A mask sample instant (R121): both masks take the time error of the last event of the interval. -/
def State.maskTake (s : State) (i : Nat) : State :=
  let q := s.qual i
  let den : Int := (s.nomOf i).2
  let tau0 := bits (s.qcfg i 0x28) 19 0 + 1
  let x := match q.track with | some r => if r.fresh then some r.err else none | none => none
  let k := q.maskK + 1
  let z := x.map fun v => roundDiv (256 * v) den - roundDiv (k * tau0 * (256 * fineRound) * q.freq) (2 ^ 64)
  s.setQual i fun q => { q with
    maskK := k, maskSince := 0, track := q.track.map fun r => { r with fresh := false }
    tdev := (List.range 8).foldl (fun t n =>
      let (m, lim) := maskPoint (s.qcfg i (0x30 + 4 * n))
      tmod (fun _ => TdevPt.zero) t n fun p => (p.sample m (s.maskAvg i) den x).judge (s.maskAvg i) lim) q.tdev
    mtie := (List.range 8).foldl (fun t n =>
      let (m, lim) := maskPoint (s.qcfg i (0x50 + 4 * n))
      tmod (fun _ => MtiePt.zero) t n fun p => p.sample m lim z) q.mtie }

/-- Blocks in progress are spoilt: all of them, or only those of levels with 64 s and more. -/
def State.maskSpoil (s : State) (i : Nat) (long : Bool) : State :=
  let tau0 := bits (s.qcfg i 0x28) 19 0 + 1
  let hit (x : Nat) : Bool := !long || decide (512000 ≤ 2 ^ (maskPoint (s.qcfg i x)).1 * tau0)
  s.setQual i fun q => { q with
    tdev := (List.range 8).foldl (fun t n =>
      if hit (0x30 + 4 * n) then tmod (fun _ => TdevPt.zero) t n fun p => { p with bad := true } else t) q.tdev
    mtie := (List.range 8).foldl (fun t n =>
      if hit (0x50 + 4 * n) then tmod (fun _ => MtiePt.zero) t n fun p => { p with bad := true } else t) q.mtie }

/-- The masks of one round. -/
def State.maskRound (s : State) (i : Nat) : State :=
  let s := if i < 36 ∧ (s.chan i).incomplete = true then s.maskSpoil i false else s
  let s := if 1 ≤ s.board.varNow then s.maskSpoil i true else s
  let s := s.setQual i fun q => { q with maskSince := q.maskSince + 1 }
  if bits (s.qcfg i 0x28) 19 0 + 1 ≤ (s.qual i).maskSince then s.maskTake i else s

/-- CLEAR_MASK: the estimators only. -/
def Qual.clearMask (q : Qual) : Qual := { q with tdev := [], mtie := [], maskSince := 0, maskK := 0 }

/-! ### Quality (R123, R124) -/

/-- Ranks of the SSM codes, option 1 and option 2. -/
def rankSsm (option2 : Bool) (c : Nat) : Nat :=
  if option2 then
    match c with
    | 0x1 => 1 | 0x0 => 2 | 0x7 => 3 | 0x4 => 4 | 0xD => 5 | 0xA => 6 | 0xC => 7 | 0xE => 8 | _ => 15
  else match c with | 0x2 => 1 | 0x4 => 3 | 0x8 => 5 | 0xB => 7 | _ => 15

/-- Ranks of the enhanced ESMC codes. -/
def rankEnhanced (c : Nat) : Nat := match c with | 0x21 => 0 | 0x20 | 0x23 => 1 | 0x22 => 7 | _ => 15

/-- Ranks of clockClass. -/
def rankClass (c : Nat) : Nat :=
  match c with | 6 => 1 | 7 | 135 => 3 | 140 => 4 | 150 => 5 | 160 | 165 => 6 | 248 => 8 | _ => 15

/-- Rounds without a valid ESMC PDU until the rank is 15. -/
def esmcRounds : Nat := 40000

/-- QL_SRC as used: an illegal source is treated as 0. -/
def State.qlSrc (s : State) (i : Nat) : Nat :=
  match bits (s.qcfg i 0) 2 1 with
  | 1 => if 32 ≤ i ∧ i < 36 then 1 else 0
  | 2 => if 36 ≤ i then 2 else 0
  | _ => 0

/-- The rank that the present quality information gives. -/
def State.rankOf (s : State) (i : Nat) : Nat :=
  let q := s.qual i
  let o2 := bit (s.qcfg i 0) 3
  match s.qlSrc i with
  | 0 => rankSsm o2 (bits (s.dir (qualPage i) 0x914) 3 0)
  | 1 => if esmcRounds ≤ q.esmcAge then 15 else if q.qlEnh then rankEnhanced q.qlRx else rankSsm o2 q.qlRx
  | _ => rankClass q.qlRx

/-- The ESMC information of candidate `i` has timed out. -/
def State.esmcLost (s : State) (i : Nat) : State :=
  s.setQual i fun q => { q with esmcAge := esmcRounds, qlTimeout := true }

/-- The age of a port's ESMC information, which runs whatever becomes of the candidate (R123). -/
def State.esmcRound (s : State) (i : Nat) : State :=
  if esmcRounds ≤ (s.qual i).esmcAge then s
  else if (s.qual i).esmcAge + 1 = esmcRounds then s.esmcLost i
  else s.setQual i fun q => { q with esmcAge := q.esmcAge + 1 }

/-- The quality level of one round: QL_CHANGE on a change of rank. -/
def State.rankRound (s : State) (i : Nat) : State :=
  let r := s.rankOf i
  if r = (s.qual i).rank then s
  else ((s.setQual i fun q => { q with rank := r }).bump (qualPage i) 0xA20).event (qualPage i) 2

/-! ### The vote (R122) -/

/-- CMP_GRP of an enabled candidate. -/
def State.voteGroup (s : State) (i : Nat) : Nat := if (s.qual i).state = .disabled then 0 else bits (s.qcfg i 0) 6 4

/-- The candidate is a voter. -/
def Qual.voter (q : Qual) : Bool :=
  (q.state == .soaking || q.state == .qualified || (q.state == .disqualified && q.reason == 7))
    && (q.fwPosted || q.fwPosted1)

/-- Two voters agree: their results differ by at most the larger MAJ_LIM. -/
def State.agree (s : State) (a b : Nat) : Bool :=
  let l := max (s.qcfg a 0x24).toNat (s.qcfg b 0x24).toNat
  decide (((s.qual a).freq - (s.qual b).freq).natAbs * 256 * 1000000000 ≤ l * 2 ^ 64)

/-- The vote of group `g` in a round in which a voter posted (`posted`). -/
def State.voteIn (posted : List Nat) (s : State) (g : Nat) : State :=
  let vs := (List.range 40).filter fun i => s.voteGroup i == g && (s.qual i).voter
  if vs.any posted.contains then
    let n := vs.length
    vs.foldl (fun (s' : State) (i : Nat) =>
      let a := (vs.filter fun j => s.agree i j).length
      let dis := decide (n < 3) && decide (a < n)
      let s' := s'.setQual i fun q => { q with
        majFail := decide (3 ≤ n) && decide (2 * a ≤ n), majAgree := min a 15, majVoters := min n 15, disagree := dis }
      s'.eventIf dis (qualPage i) 3) s
  else s

/-- The votes of every group. -/
def State.voteRound (s : State) (posted : List Nat) : State :=
  ((List.range 7).map (· + 1)).foldl (State.voteIn posted) s

/-! ### FAIL_SET and the transitions of a round (R112, R116) -/

/-- The client instance receives: enabled, its port up and not stopped, and a parent (R125, R347, R366). -/
def State.clientReceives (s : State) (n : Nat) : Bool :=
  let w := s.cfg 0x0B (0x60 + 16 * n)
  let p := s.port (bits w 2 1)
  bit w 0 && p.linkUp && !p.svcStop && ((s.client n).state == .uncalibrated || (s.client n).state == .slave)

/-- The monitors that rounds of V3 leave frozen even for a candidate that runs (R114). -/
def heldInV3 : Nat := 2 ^ 1 + 2 ^ 5 + 2 ^ 6 + 2 ^ 7 + 2 ^ 8 + 2 ^ 9

/-- FAIL_SET from the verdicts as they stand. -/
def State.failsOf (s : State) (i : Nat) : Nat :=
  let q := s.qual i
  let w := s.qcfg i 0
  let st := (s.chan i).state
  let deg := decide (i < 36) && st == .degraded
  let ch := if i < 36 then !(st == .run || st == .degraded) else !s.clientReceives (i - 36)
  let held := if s.board.varNow = 3 then q.failSet.land heldInV3 else
    2 ^ 1 * b2n ch + 2 ^ 5 * b2n ((List.range 8).any fun n => (q.tp n).fail)
      + 2 ^ 6 * b2n ((List.range 8).any fun n => (q.mp n).fail) + 2 ^ 7 * b2n q.majFail
      + 2 ^ 8 * b2n (decide (bits w 23 20 < q.rank)) + 2 ^ 9 * b2n (deg && bit w 9)
  held + 2 ^ 2 * b2n q.actFail + 2 ^ 3 * b2n q.fwFail + 2 ^ 4 * b2n (q.phFail && bit w 8)

/-- Activity and frequency window: the failures that GUARD covers. -/
def guarded : Nat := 2 ^ 2 + 2 ^ 3

/-- DISQUALIFIED with the lowest failing reason. -/
def State.qualFail (s : State) (i : Nat) : State := s.qualTo i .disqualified (lowestReason (s.qual i).failSet)

/-- SUSPECT is set: the guard timer starts (R111, R129). -/
def State.qualSuspect (s : State) (i : Nat) : State :=
  (s.setQual i fun q => { q with suspect := true, guard := bits (s.qcfg i 0x10) 31 16 }).event (qualPage i) 4

/-- The state machine of one round, after the verdicts: failures first, then the timers (R112); `entered` says that
SOAKING was entered by RESTORE at this boundary. -/
def State.qualStep (s : State) (i : Nat) (entered : Bool) : State :=
  let q := s.qual i
  let f := q.failSet
  match q.state with
  | .disabled | .forcedOut => s
  | .monitor => if f = 0 ∧ q.fwValid = true ∧ bit (s.qcfg i 0) 0 = false then s.qualSoak i else s
  | .soaking =>
    if f ≠ 0 then s.qualFail i
    else if entered then s
    else
      let s := s.setQual i fun q => { q with soak := q.soak - 1 }
      if (s.qual i).soak = 0 then s.qualTo i .qualified 0 else s
  | .qualified =>
    if f.land (2047 - guarded) ≠ 0 then s.qualFail i
    else if q.suspect then
      if f = 0 then (s.setQual i fun q => { q with suspect := false, guard := 0 }).bump (qualPage i) 0xA10
      else
        let s := s.setQual i fun q => { q with guard := q.guard - 1 }
        if (s.qual i).guard = 0 then s.qualFail i else s
    else if f ≠ 0 then (if bits (s.qcfg i 0x10) 31 16 = 0 then s.qualFail i else s.qualSuspect i)
    else s
  | .disqualified => if f = 0 ∧ q.fresh = false then s.qualSoak i else s

/-- A relock of the receiver of a SyncE candidate, or the return of its link (R108). -/
def State.qualRelock (s : State) (i : Nat) : State :=
  let q := s.qual i
  let s := s.setQual i fun q => { q with relock := false }
  match q.state with
  | .disabled | .forcedOut => s
  | .monitor => if bit (s.qcfg i 0) 0 then s else s.qualTo i .disqualified 2
  | _ => s.qualTo i .disqualified 2

/-- A frozen round: the monitors rest, the samples of a packet candidate in it are not judged, and gates and blocks that
overlap it are lost (R114, R117). -/
def State.qualFreeze (s : State) (i : Nat) : State :=
  (s.setQual i fun q => { q with frozen := true, fwBad := true, skipped := true, quiet := q.quiet + 1, samples := [] }).maskSpoil
    i false

/-- A frozen round of the board. -/
def State.qualFrozen (s : State) (i : Nat) : State :=
  (if s.nomOk i then s.errRound i (s.candEvents i) else s).qualFreeze i

/-- A SyncE receiver is out of lock or its link is down, or the ratio has no value: the activity monitor fails (R108,
R110). -/
def State.qualDead (s : State) (i : Nat) : State :=
  let p := s.port (i - 32)
  if s.nomOk i = false ∨ (32 ≤ i ∧ i < 36 ∧ ¬(p.linkUp = true ∧ p.cdrLock = true)) then
    s.setQual i fun q => { q with actFail := true, actRun := 0 }
  else s

/-- The monitors that judge the drained round. -/
def State.qualJudge (s : State) (i : Nat) : State :=
  if s.nomOk i then
    let evs := s.candEvents i
    let s := ((s.qualEvents i evs).fwRound i evs).errRound i evs
    if s.board.varNow = 3 then s.maskSpoil i false else s.maskRound i
  else s

/-- The monitors of candidate `i` in one round, without the vote. The first round after a start takes no data: those of the
ending round precede it. -/
def State.qualMonitors (s : State) (i : Nat) : State :=
  if (s.qual i).state = .disabled then s.setQual i fun q => { q with frozen := s.candFrozen i, samples := [] }
  else if s.candFrozen i then s.qualFrozen i
  else
    let s := if (s.qual i).restart then s.qualRestart i else s
    let s := s.setQual i fun q => { q with frozen := false, freqHeld := if q.suspect then q.freqHeld else q.freq }
    let s := if (s.qual i).fresh then s else s.qualJudge i
    let s := (s.qualDead i).setQual i fun q => { q with samples := [] }
    if s.board.varNow = 3 then s else s.rankRound i

/-- Rounds spent QUALIFIED count, frozen or not (R127). -/
def State.countQualified (s : State) (i : Nat) : State :=
  if (s.qual i).state = .qualified then s.bump (qualPage i) 0xA18 else s

/-- FAIL_SET and the transitions of candidate `i`; `old` is the state before the round's command. -/
def State.qualTransit (old : State) (s : State) (i : Nat) : State :=
  let q := s.qual i
  if q.state = .disabled ∨ q.frozen = true then State.qualNote old i (s.countQualified i)
  else
    let s := s.setQual i fun q => { q with failSet := s.failsOf i, keep := false }
    let s := if q.keep then (if q.fenced && q.state != .forcedOut then s.qualTo i .disqualified 10 else s)
      else if q.relock then s.qualRelock i else s.qualStep i ((old.qual i).state == .forcedOut)
    let s := s.setQual i fun q => { q with fresh := false }
    State.qualNote old i (s.countQualified i)

/-- The candidates with a window result that no vote has seen. -/
def State.postedNow (s : State) : List Nat := (List.range 40).filter fun i => (s.qual i).fwNew

/-- The votes of a round; no result waits for a later one. -/
def State.voteTake (s : State) : State :=
  let l := s.postedNow
  let s := if s.board.varNow = 3 then s else s.voteRound l
  l.foldl (fun (s : State) (i : Nat) => s.setQual i fun q => { q with fwNew := false }) s

/-- Every candidate in one round (R112, R134); `old` is the state before the round's commands. -/
def State.qualRound (old s : State) : State :=
  let s := ((List.range 4).map (· + 32)).foldl State.esmcRound s
  let s := ((List.range 40).foldl State.qualMonitors s).voteTake
  (List.range 40).foldl (State.qualTransit old) s

/-! ### Commands (R126) -/

/-- Refusals of a QUAL command; `again` leaves out what only the writing asks. -/
def State.qualChecks (s : State) (i code : Nat) (again : Bool) : Checks :=
  let q := s.qual i
  let p := qualPage i
  let busy := s.busy p && !again
  let lock := (s.page p).lockCmd
  let st := (s.chan i).state
  let live := q.state == .monitor || q.state == .soaking || q.state == .qualified || q.state == .disqualified
  match code with
  | 1 => { arg := !again && decide (i < 36) && !s.nomOk i, busy, lock,
           state := q.state != .disabled || (decide (i < 36) && (st == .off || st == .fenced)) }
  | 2 => { busy, lock, state := q.state == .disabled || s.candInUse i }
  | 3 => { busy, role := s.standby, state := !live }
  | 4 => { busy, role := s.standby, state := q.state != .forcedOut }
  | 5 => { busy, lock, role := s.standby, state := q.state != .soaking || (!again && q.failSet != 0) }
  | 6 => { busy, state := q.state == .disabled }
  | _ => { arg := true }

/-- Issue a QUAL command. -/
def State.qualCommand (s : State) (i : Nat) (m : Master) (code : Nat) : State :=
  let m := masterCode m
  s.onWrite (qualPage i) m fun (s : State) =>
    s.submit (qualPage i) m code (s.arg (qualPage i) m) (s.qualChecks i code false)

/-- FORCE_OUT of a candidate. -/
def State.putOut (s : State) (i : Nat) : State := s.qualTo i .forcedOut 0

/-- RESTORE of a candidate: SOAKING when all monitors pass, else DISQUALIFIED. -/
def State.putBack (s : State) (i : Nat) : State :=
  let s := if (s.qual i).failSet = 0 then s.qualSoak i else s.qualFail i
  s

/-- The effect of a QUAL command at its boundary. -/
def State.qualEffect (i : Nat) (q : CmdPend) (s : State) : State :=
  match q.code with
  | 1 => (s.setQual i fun q => { q.clear with fenced := false }).qualTo i .monitor 0
  | 2 => (s.setQual i fun q => { q.clear with fenced := false }).qualTo i .disabled 0
  | 3 => s.putOut i
  | 4 => s.putBack i
  | 5 => s.setQual i fun q => { q with soak := 0 }
  | _ => s.setQual i Qual.clearMask

/-- The pending QUAL command takes effect, unless the candidate is frozen (R509). -/
def State.qualApply (s : State) (i : Nat) : State :=
  match (s.page (qualPage i)).pend with
  | none => s
  | some q =>
    if s.candFrozen i then s
    else s.settleCmd (qualPage i) (s.qualChecks i q.code true).again (State.qualEffect i)

/-! ### Faults (R130) -/

/-- The first reaction to a QUAL fault. -/
def State.qualReact (s : State) (i bit : Nat) : State :=
  if bit = 1 ∨ bit = 3 then
    match (s.qual i).state with
    | .disabled => s
    | .forcedOut => s.setQual i fun q => { q.clear with restart := q.restart }
    | _ => State.qualNote s i ((s.setQual i fun q => { q.clear with restart := q.restart }).qualTo i .disqualified 10)
  else if bit = 2 then s.setQual i fun q => { q with keep := q.state != .disabled }
  else s

/-! ### The rows -/

/-- ENABLE of a candidate. -/
def execQualEnable (i : Fin 40) (m : Master) (s : State) : Host.Outcome State Fault Refusal := finish (s.qualCommand i m 1)

/-- DISABLE of a candidate. -/
def execQualDisable (i : Fin 40) (m : Master) (s : State) : Host.Outcome State Fault Refusal := finish (s.qualCommand i m 2)

/-- FORCE_OUT. -/
def execForceOut (i : Fin 40) (m : Master) (s : State) : Host.Outcome State Fault Refusal := finish (s.qualCommand i m 3)

/-- RESTORE. -/
def execRestore (i : Fin 40) (m : Master) (s : State) : Host.Outcome State Fault Refusal := finish (s.qualCommand i m 4)

/-- SKIP_SOAK. -/
def execSkipSoak (i : Fin 40) (m : Master) (s : State) : Host.Outcome State Fault Refusal := finish (s.qualCommand i m 5)

/-- CLEAR_MASK. -/
def execClearMask (i : Fin 40) (m : Master) (s : State) : Host.Outcome State Fault Refusal := finish (s.qualCommand i m 6)

/-- SOAK_EXPIRY: a SOAKING candidate whose monitors pass becomes QUALIFIED. -/
def execSoakExpiry (i : Fin 40) (s : State) : Host.Outcome State Fault Refusal :=
  finish (if (s.qual i).state = .soaking ∧ (s.qual i).failSet = 0 ∧ s.candFrozen i = false then
    State.qualNote s i (s.qualTo i .qualified 0) else s)

/-- GUARD_EXPIRY: a SUSPECT candidate whose failure is present becomes DISQUALIFIED. -/
def execGuardExpiry (i : Fin 40) (s : State) : Host.Outcome State Fault Refusal :=
  finish (if (s.qual i).state = .qualified ∧ (s.qual i).suspect = true ∧ (s.qual i).failSet ≠ 0
      ∧ s.candFrozen i = false then State.qualNote s i (s.qualFail i) else s)

/-- FW_GATE_END: the gate in progress ends. -/
def execFwGateEnd (i : Fin 40) (s : State) : Host.Outcome State Fault Refusal :=
  finish (if (s.qual i).state = .disabled ∨ s.candFrozen i = true ∨ s.nomOk i = false then s else s.fwEnd i)

/-- MASK_SAMPLE: a mask sample instant comes. -/
def execMaskSample (i : Fin 40) (s : State) : Host.Outcome State Fault Refusal :=
  finish (if (s.qual i).state = .disabled ∨ s.board.varNow = 3 ∨ s.nomOk i = false then s else s.maskTake i)

/-- ESMC_TIMEOUT: the candidate of port `p` has rank 15 from the next evaluation on. -/
def execEsmcTimeout (p : Fin 4) (s : State) : Host.Outcome State Fault Refusal := finish (s.esmcLost (32 + p))

end Sys2Proof.Machine
end

