-- ==== Sys2Proof/Machine/Select.lean ====
section
/-! DEFINITION. Selection and ensembles (chapter 05): the phase estimates of the slots, the choice of PRIORITY and
QUALITY, the build-out, the ensemble with its weights, and the selection commands of the DOM pages. -/

namespace Sys2Proof.Machine

/-- Configuration of domain `d`: the register at shadow offset 0x500 + `x`. -/
def State.dcfg (s : State) (d x : Nat) : Word := s.cfg (domPage d) x

def State.setSel (s : State) (d : Nat) (f : Sel → Sel) : State := s.setDom d fun x => { x with sel := f x.sel }

def Sel.setSlot (l : Sel) (i : Nat) (f : DSlot → DSlot) : Sel :=
  { l with slots := tmod (fun _ => DSlot.zero) l.slots i f }

def State.dslot (s : State) (d i : Nat) : DSlot := (s.dom d).sel.slotAt i
def State.setDslot (s : State) (d i : Nat) (f : DSlot → DSlot) : State := s.setSel d fun l => l.setSlot i f

/-- The slot numbers of a domain. -/
def slotNums : List Nat := List.range 8

/-- SEL_MODE as used: 0 PRIORITY, 1 QUALITY, 2 ENSEMBLE (R132). -/
def State.selMode (s : State) (d : Nat) : Nat := let m := bits (s.dcfg d 0x100) 1 0; if m = 3 then 0 else m

/-- PBO_MODE as used: 0 OFF, 1 HOLD, 2 ABSORB (R143). -/
def State.pboMode (s : State) (d : Nat) : Nat := let m := bits (s.dcfg d 0x100) 5 4; if m = 3 then 1 else m

/-- Rounds of the build-out window (R160). -/
def State.boWin (s : State) (d : Nat) : Nat := 2 ^ min (bits (s.dcfg d 0x100) 12 8) 10

/-- o_s of R143. -/
def State.slotOfs (s : State) (d sl : Nat) : Int := roundDiv (sregister (s.dcfg d (0x144 + 8 * sl)) * 8388608) 100

/-- PRIO of a slot; 0 is treated as 15 (R137). -/
def State.slotPrio (s : State) (d sl : Nat) : Nat :=
  let v := bits (s.dcfg d (0x140 + 8 * sl)) 15 12
  if v = 0 then 15 else v

/-- The candidate's channel is DEGRADED. -/
def State.candDegraded (s : State) (i : Nat) : Bool := decide (i < 36) && (s.chan i).state == .degraded

/-! ### Phase estimates (R133, R135) -/

/-- The slot's phase is measured on the domain's time scale. -/
def State.onScale (s : State) (d sl : Nat) : Bool := decide (d < 4) && s.timeSlot d sl

/-- The time error of an event of candidate `i` on the scale of time domain `d`: instant in fine units, error in 2^-8
fine units, from an event scaled by NOM_DEN. A packet candidate supplies its time error. -/
def State.scaleError (s : State) (d i : Nat) (e : Int × Int) : Int × Int :=
  let den : Int := (s.nomOf i).2
  let t := roundDiv e.1 den
  (t, if i < 36 then reduceBy ((s.nomOf i).1 * (256 * finePeriod)) (s.nomOf i).2 (s.timeAt d t) else roundDiv (256 * e.2) den)

/-- The time errors of a TIME slot take in the events of the drained round; a slot that has none starts from the
candidate's last event. -/
def State.feedScale (s : State) (d sl i : Nat) : State :=
  let q := s.qual i
  let new := (q.errs.filter fun e => e.1 == 0).map fun e => (0, s.scaleError d i e.2)
  let old := (s.dslot d sl).terrs.map fun e => (e.1 + 1, e.2)
  let l := match new ++ old with
    | [] => (match q.track with | some r => [(q.sinceEv, s.scaleError d i (r.lastT, r.err))] | none => [])
    | h :: t => h :: t.filter fun e => decide (e.1 < errRounds)
  s.setDslot d sl fun v => { v with terrs := l }

/-- The measured phase estimate of a slot at the boundary that ends the drained round; `none` without measurements. -/
def State.slotPhase (s : State) (d sl i : Nat) : Option Int :=
  let q := s.qual i
  let b := s.osc.bnd * finePeriod
  let win := s.boWin d
  if s.onScale d sl then
    let l := (s.dslot d sl).terrs
    let near := l.filter fun e => decide (e.1 < win)
    if 2 ≤ near.length then some (lineAt 256 (near.map fun e => (e.2.1 - b, e.2.2)))
    else l.head?.map fun e => e.2.2 - roundDiv (q.freq * (b - e.2.1) * 256) (2 ^ 64)
  else
    let den : Int := (s.nomOf i).2
    let near := q.errs.filter fun e => decide (e.1 < win)
    if 2 ≤ near.length then some (lineAt den (near.map fun e => (e.2.1 - b * den, e.2.2)))
    else q.track.map fun r => roundDiv (256 * r.err) den - roundDiv (q.freq * (b * den - r.lastT) * 256) (den * 2 ^ 64)

/-- The increment that R135 predicts for candidate `i`. -/
def State.predicted (s : State) (i : Nat) : Int := roundDiv (-(s.qual i).freqHeld * round8) (2 ^ 64)

/-- The estimate and the increment of one slot. A SUSPECT candidate is predicted, and so is the round in which SUSPECT
clears: measured increments resume in the next one. Where the slot is selected, what lies between the two phases then is
kept beside the build-out, which stays (R144; DEDUCED, log entry 26). -/
def State.estimateSlot (d : Nat) (s : State) (sl : Nat) : State :=
  match s.slotCand d sl with
  | none => s.setDslot d sl fun v => { v with p := none, dp := 0, bridged := false, terrs := [], sus := false }
  | some i =>
    let s := if s.onScale d sl then s.feedScale d sl i else s
    let v := s.dslot d sl
    let sus := (s.qual i).suspect
    let l := (s.dom d).sel
    match s.slotPhase d sl i with
    | none => s.setDslot d sl fun v => { v with p := none, dp := 0, bridged := false, sus }
    | some m =>
      let was := v.p.getD m
      let bridge := sus || l.hold
      let back := v.sus && !bridge
      let pr := s.predicted i
      let s := s.setDslot d sl fun v => { v with
        p := some (if bridge then was + pr else m), dp := if bridge || back then pr else m - was
        bridged := bridge || back, sus }
      if back ∧ l.valid = true ∧ l.ens = false ∧ l.slot = sl then s.setSel d fun l => { l with brg := l.brg + (pr - (m - was)) }
      else s

/-! ### The continuation phase (R142) -/

/-- The slope of x_ref over the rounds kept, in units of 2^-56. -/
def slopeOf (h : List (Nat × Int)) : Int :=
  let f := h.foldl (fun f p => f.add p.1 p.2) FitSums.zero
  roundDiv (-f.slope.1 * 2 ^ 56) (f.slope.2 * round8)

/-- The latest window results of the members, weighted by their targets. -/
def State.memberMean (s : State) (d : Nat) : Int :=
  let ms := slotNums.filterMap fun sl =>
    match s.slotCand d sl with
    | some i => if (s.dslot d sl).eligible && (s.qual i).fwValid then some ((s.dslot d sl).t, (s.qual i).freq) else none
    | none => none
  let tw := (ms.map (·.1)).sum
  roundDiv (isum (ms.map fun p => (p.1 : Int) * p.2)) ((tw : Int) * 256)

/-- y_ref, in units of 2^-56. -/
def State.yRef (s : State) (d : Nat) : Int :=
  let l := (s.dom d).sel
  if 2 ≤ l.hist.length then slopeOf l.hist
  else if l.ens then s.memberMean d
  else match s.slotCand d l.slot with
    | some i => roundDiv (s.qual i).freq 256
    | none => 0

/-- The continuation phase c. -/
def State.contPhase (s : State) (d : Nat) : Int :=
  let l := (s.dom d).sel
  if l.had = true ∧ l.rejoin = 0 then l.xref + roundDiv (-s.yRef d * round8) (2 ^ 56) else (s.dom d).xfb

/-- A switch is noted: LAST_SWITCH, SWITCHES and the event (R160, R162). -/
def State.selSwitch (s : State) (d new cause : Nat) : State :=
  let w := word ((s.dom d).sel.slot % 8 + new % 8 * 16 + cause * 256 + s.roundNow % 65536 * 65536)
  let s := s.setSel d fun l => { l with lastSwitch := w, ever := true }
  (s.bump (domPage d) 0xB00).event (domPage d) 8

/-- x_ref joins phase `c` (R142, R174, R189, R195). A single slot without build-out keeps its own phase: the difference
reaches the loop whole (R143, R144). -/
def State.rebuild (s : State) (d : Nat) (c : Int) : State :=
  let off := !(s.dom d).sel.ens && s.pboMode d == 0
  s.setSel d fun l =>
    let x := if off then l.xref else c
    { l with bo := if l.ens then l.bo else l.bo + (x - l.xref), xref := x, dxref := 0, hist := [(s.roundNow, x)] }

/-! ### PRIORITY and QUALITY (R136 to R144) -/

/-- Slot `sl` is selectable; `cur` is the current slot (R136). -/
def State.selectable (s : State) (d : Nat) (cur : Option Nat) (sl : Nat) : Bool :=
  match s.slotCand d sl with
  | some i => (s.dslot d sl).p.isSome && (s.qual i).state == .qualified && (cur == some sl || !(s.qual i).suspect)
  | none => false

/-- The rank of a slot's candidate. -/
def State.slotRank (s : State) (d sl : Nat) : Nat := match s.slotCand d sl with | some i => (s.qual i).rank | none => 15

/-- The order of R137 as one number: smaller is better. -/
def State.selKey (s : State) (d sl : Nat) : Nat :=
  let r := if s.selMode d = 1 then s.slotRank d sl else 0
  let g := match s.slotCand d sl with | some i => b2n (s.candDegraded i) | none => 0
  ((r * 16 + s.slotPrio d sl) * 2 + g) * 8 + sl

/-- The automatic choice. -/
def State.autoSlot (s : State) (d : Nat) (cur : Option Nat) : Option Nat :=
  (slotNums.filter (s.selectable d cur)).foldl (fun b sl =>
    match b with
    | none => some sl
    | some x => if s.selKey d sl < s.selKey d x then some sl else some x) none

/-- A forced slot can be followed (R140). -/
def State.forcible (s : State) (d sl : Nat) : Bool :=
  match s.slotCand d sl with
  | some i =>
    (s.dslot d sl).p.isSome && (s.qual i).state != .disabled && (s.qual i).state != .forcedOut
      && !(s.qual i).failSet.testBit 1 && !(s.qual i).failSet.testBit 2
  | none => false

/-- WTR in rounds. -/
def State.wtrRounds (s : State) (d : Nat) : Nat := bits (s.dcfg d 0x104) 15 0 * 1000

/-- What a round selects: the slot, SEL_SRC, the cause of a switch, and the WTR count with its slot. -/
structure Choice where
  slot : Option Nat
  src : Nat
  cause : Nat
  wtr : Option (Nat × Nat) := none
  deriving DecidableEq, Repr

/-- The choice of R137 to R141; `cur` is the current slot. -/
def State.choose (s : State) (d : Nat) (cur : Option Nat) : Choice :=
  let l := (s.dom d).sel
  let auto := s.autoSlot d cur
  match l.forced with
  | some f => if s.forcible d f then { slot := some f, src := 2, cause := 4 } else { slot := none, src := 3, cause := 0 }
  | none =>
    match l.manual.filter (s.selectable d cur) with
    | some m => { slot := some m, src := 1, cause := 3 }
    | none =>
      match cur.filter (s.selectable d cur), auto with
      | some c, some a =>
        if a = c then { slot := some c, src := 0, cause := 0 }
        else if s.selMode d = 1 ∧ s.slotRank d a < s.slotRank d c then { slot := some a, src := 0, cause := 2 }
        else if bit (s.dcfg d 0x100) 2 then
          let left := (if l.wtrSlot = some a then l.wtrLeft else s.wtrRounds d) - 1
          if left = 0 then { slot := some a, src := 0, cause := 1 }
          else { slot := some c, src := 0, cause := 0, wtr := some (a, left) }
        else { slot := some c, src := 0, cause := 0 }
      | _, _ => { slot := auto, src := if auto.isSome then 0 else 3, cause := if cur.isSome then 0 else 6 }

/-- The build-out of a round in which slot `sl` stays selected (R143). -/
def State.absorb (s : State) (d sl : Nat) (l : Sel) : Sel :=
  if s.pboMode d = 2 ∨ l.realign = true then
    let o := s.slotOfs d sl
    let l := { l with bo := l.bo + l.brg, brg := 0 }
    let step : Int := (bits (s.dcfg d 0x108) 15 0 * 10485760 / 1000000 : Nat)
    if ((o - l.bo).natAbs : Int) ≤ step then { l with bo := o, realign := false }
    else { l with bo := if l.bo < o then l.bo + step else l.bo - step }
  else l

/-- The ensemble ends: no weight and no parked slot remains (R152). -/
def State.leaveEnsemble (s : State) (d : Nat) : State :=
  if (s.dom d).sel.ens then
    let was := slotNums.any fun sl => (s.dslot d sl).parked
    let s := slotNums.foldl (fun (s : State) sl => s.setDslot d sl fun v => { v with
      eligible := false, w := 0, t := 0, parked := false, sig := .zero, sigSince := 0, qs := [], age := 0, calm := 0 }) s
    s.eventIf was (domPage d) 12 |>.setSel d fun l => { l with ens := false, steering := false }
  else s

/-- No reference in this round: x_ref keeps its value (R141). -/
def State.selNone (s : State) (d : Nat) : State :=
  s.setSel d fun l => { l with valid := false, src := 3, wtrRun := false, wtrLeft := 0, wtrSlot := none, steering := false }

/-- One round of PRIORITY or QUALITY. -/
def State.selPrio (s : State) (d : Nat) : State :=
  let l := (s.dom d).sel
  let cur := if l.had ∧ l.ens = false then some l.slot else none
  let c := s.contPhase d
  let s := s.leaveEnsemble d
  let ch := s.choose d cur
  match ch.slot with
  | none => s.selNone d
  | some n =>
    let p := ((s.dslot d n).p).getD 0
    let s := s.setSel d fun l => { l with
      valid := true, src := ch.src, wtrRun := ch.wtr.isSome
      wtrLeft := (match ch.wtr with | some w => w.2 | none => 0), wtrSlot := ch.wtr.map (·.1) }
    let join := if s.pboMode d = 0 ∧ l.ens = false then s.slotOfs d n else c - p
    if cur ≠ some n ∨ l.reconf = true ∨ l.rejoin = 2 then
      let s := s.selSwitch d n (if l.rejoin = 2 then 7 else if l.reconf then 5 else ch.cause)
      s.setSel d fun l => { l with slot := n, bo := join, brg := 0, xref := p + join }
    else if l.rejoin ≠ 0 then s.setSel d fun l => { l with bo := join, brg := 0, xref := p + join }
    else
      s.setSel d fun l =>
        let l := s.absorb d n l
        { l with xref := p + l.bo + l.brg }

/-! ### Ensemble weights (R148, R149) -/

/-- The whole weight, Q0.17. -/
def fullWeight : Nat := 131072

/-- The slots of the ensemble. -/
def State.members (s : State) (d : Nat) : List Nat := slotNums.filter fun sl => (s.dslot d sl).eligible

/-- The cap that R148 applies to `ne` slots. -/
def State.weightCap (s : State) (d ne : Nat) : Nat :=
  let v := bits (s.dcfg d 0x114) 17 0
  let cap := if v = 0 then fullWeight else v
  if cap * ne < fullWeight then (fullWeight + ne - 1) / ne else cap

/-- WT_AVG as used. -/
def State.wtAvg (s : State) (d : Nat) : Nat := clamp (bits (s.dcfg d 0x10C) 11 8) 2 10

/-- σ in use for a slot, ps: SIG_INIT until the estimate is valid (R150). -/
def State.sigma (s : State) (d sl : Nat) : Nat :=
  let v := (s.dslot d sl).sig
  if 2 ^ s.wtAvg d ≤ v.n then min v.ps 0xFFFFFF else bits (s.dcfg d 0x11C) 23 0

/-- u[s] of R148. -/
def State.inverseVar (s : State) (d sl : Nat) : Nat :=
  let v := max (max (s.sigma d sl) (bits (s.dcfg d 0x118) 23 0)) 1
  let deg := match s.slotCand d sl with | some i => s.candDegraded i | none => false
  2 ^ 40 / (v * v * (if deg then 4 else 1))

/-- The proportional share, capped, by rounds of clipping: (slot, target). -/
def shareOut (cap : Nat) : Nat → Nat → List (Nat × Nat) → List (Nat × Nat)
  | 0, _, _ => []
  | k + 1, free, op =>
    let tot := (op.map (·.2)).sum
    let ts := op.map fun p => (p.1, p.2, p.2 * free / tot)
    let clip := ts.filter fun p => decide (cap < p.2.2)
    if clip.length = 0 then ts.map fun p => (p.1, p.2.2)
    else
      clip.map (fun p => (p.1, cap))
        ++ shareOut cap k (free - cap * clip.length) ((ts.filter fun p => decide (p.2.2 ≤ cap)).map fun p => (p.1, p.2.1))

/-- Where the remainder goes: the largest weight below the cap, else the largest; lowest slot on ties. -/
def remainderSlot (cap : Nat) (ws : List (Nat × Nat)) : Nat :=
  let low := ws.filter fun p => decide (p.2 < cap)
  let best := (if low.length = 0 then ws else low).foldl (fun (b : Option (Nat × Nat)) p =>
    match b with
    | none => some p
    | some x => if x.2 < p.2 ∨ (x.2 = p.2 ∧ p.1 < x.1) then some p else some x) none
  match best with | some p => p.1 | none => 0

/-- Give the remainder that keeps the sum at 131,072. -/
def giveRest (cap : Nat) (ws : List (Nat × Nat)) : List (Nat × Nat) :=
  let rem : Int := (fullWeight : Int) - ((ws.map (·.2)).sum : Nat)
  let k := remainderSlot cap ws
  ws.map fun p => if p.1 = k then (p.1, (p.2 + rem).toNat) else p

/-- The targets of R148 for the members of domain `d`. -/
def State.targetsOf (s : State) (d : Nat) : List (Nat × Nat) :=
  let ms := s.members d
  match ms with
  | [m] => [(m, fullWeight)]
  | _ =>
    let cap := s.weightCap d ms.length
    giveRest cap (shareOut cap 9 fullWeight (ms.map fun sl => (sl, s.inverseVar d sl)))

/-- Compute the targets. -/
def State.setTargets (s : State) (d : Nat) : State :=
  let ts := s.targetsOf d
  slotNums.foldl (fun (s : State) sl =>
    s.setDslot d sl fun v => { v with t := match ts.find? fun p => p.1 == sl with | some p => p.2 | none => 0 }) s

/-- The weights of the members, with the remainder in its place. -/
def State.levelWeights (s : State) (d : Nat) : State :=
  let ms := s.members d
  let ws := giveRest (s.weightCap d ms.length) (ms.map fun sl => (sl, (s.dslot d sl).w))
  ws.foldl (fun (s : State) p => s.setDslot d p.1 fun v => { v with w := p.2 }) s

/-- Every weight of the listed slots takes its target. -/
def State.weightsToTargets (s : State) (d : Nat) (l : List Nat) : State :=
  l.foldl (fun (s : State) sl => s.setDslot d sl fun v => { v with w := v.t }) s

/-- A slot leaves the ensemble (R149). -/
def State.dropMember (s : State) (d sl : Nat) : State :=
  (s.setDslot d sl fun v => { v with eligible := false, w := 0, t := 0 }).event (domPage d) 10

/-- A slot joins the ensemble with weight 0 and its σ estimator cleared (R149). -/
def State.admitSlot (s : State) (d sl : Nat) : State :=
  let s := s.setDslot d sl fun v => { v with eligible := true, w := 0, sig := .zero, sigSince := 0, age := 0, calm := 0 }
  (s.bump (domPage d) 0xB08).event (domPage d) 9

/-- Park a slot (R151, R152). -/
def State.park (s : State) (d sl : Nat) : State :=
  if (s.dslot d sl).parked then s
  else
    let was := (s.dslot d sl).eligible
    let s := s.setDslot d sl fun v => { v with parked := true, calm := 0 }
    let s := (s.bump (domPage d) 0xB10).event (domPage d) 11
    if was then s.dropMember d sl else s

/-- The parking of a slot ends. -/
def State.unpark (s : State) (d sl : Nat) : State :=
  if (s.dslot d sl).parked then (s.setDslot d sl fun v => { v with parked := false, calm := 0 }).event (domPage d) 12 else s

/-- Targets and weights after a removal: every remaining weight takes its target (R149). -/
def State.afterRemoval (s : State) (d : Nat) (stay : List Nat) : State :=
  ((s.setTargets d).weightsToTargets d (stay.filter fun sl => (s.dslot d sl).eligible)).levelWeights d

/-! ### One round of an ensemble (R146 to R153) -/

/-- The slot's candidate is QUALIFIED and measured. -/
def State.ensReady (s : State) (d sl : Nat) : Bool :=
  match s.slotCand d sl with
  | some i => (s.dslot d sl).p.isSome && (s.qual i).state == .qualified
  | none => false

/-- Parking ends when the slot's candidate leaves QUALIFIED (R152). -/
def State.endParking (d : Nat) (s : State) (sl : Nat) : State :=
  match s.slotCand d sl with
  | some i =>
    let now := (s.qual i).state == .qualified
    (if (s.dslot d sl).fit && !now then s.unpark d sl else s).setDslot d sl fun v => { v with fit := now }
  | none => s.setDslot d sl fun v => { v with fit := false }

/-- An exact sum of ratios. -/
def ratioSum (l : List (Int × Int)) : Int × Int :=
  l.foldl (fun a q => if a.2 = q.2 then (a.1 + q.1, a.2) else (a.1 * q.2 + q.1 * a.2, a.2 * q.2)) (0, 1)

/-- Rounds of the deviation window. -/
def State.devWin (s : State) (d : Nat) : Nat := 2 ^ clamp (bits (s.dcfg d 0x120) 19 16) 4 10

/-- q_s of a slot in this round (R151); 0 when it is bridged or no other slot carries weight. -/
def State.deviation (s : State) (d sl : Nat) : Int × Int :=
  let v := s.dslot d sl
  let ms := (s.members d).filter (· ≠ sl)
  let ow : Int := ((ms.map fun j => (s.dslot d j).w).sum : Nat)
  if v.bridged ∨ ow = 0 then (0, 1)
  else (v.dp * ow - isum (ms.map fun j => ((s.dslot d j).w : Int) * (s.dslot d j).dp), ow)

/-- |D_s| stays within its limit: DEV_LIM in ppb with 8 fractional bits, 40.96 fine units a round (R151). -/
def State.withinDev (s : State) (d : Nat) (v : DSlot) : Bool :=
  let r := ratioSum v.qs
  decide (100 * r.1.natAbs ≤ bits (s.dcfg d 0x120) 15 0 * s.devWin d * 4096 * r.2.natAbs)

/-- The deviation sums of one round. -/
def State.devRound (s : State) (d : Nat) : State :=
  let w := s.devWin d
  let qs := slotNums.map fun sl => (sl, s.deviation d sl)
  qs.foldl (fun (s : State) p =>
    if s.ensReady d p.1 then s.setDslot d p.1 fun v => { v with qs := (p.2 :: v.qs).take w, age := v.age + 1 }
    else s.setDslot d p.1 fun v => { v with qs := [], age := 0, calm := 0 }) s

/-- The deviation check parks slot `sl` (R151). -/
def State.devParks (s : State) (d sl : Nat) : Bool :=
  let v := s.dslot d sl
  let w := s.devWin d
  let short := match s.slotCand d sl with
    | some i => decide (16 * (s.nomOf i).1 ≤ w * roundLen * (s.nomOf i).2)
    | none => false
  bits (s.dcfg d 0x120) 15 0 != 0 && v.eligible && !v.bridged && decide (w ≤ v.age) && short
    && decide (2 ≤ ((s.members d).filter fun j => (s.dslot d j).w != 0).length) && !s.withinDev d v

/-- Parked slots count the rounds within the limit; PARK_TIME ends their parking (R152). -/
def State.calmSlot (d : Nat) (s : State) (sl : Nat) : State :=
  if (s.dslot d sl).parked then
    let s := s.setDslot d sl fun v => { v with calm := if s.withinDev d v then v.calm + 1 else 0 }
    let n := bits (s.dcfg d 0x120) 31 20 * 1000
    if n ≠ 0 ∧ n ≤ (s.dslot d sl).calm then (s.unpark d sl).admitSlot d sl else s
  else s

/-- STEER_SHIFT as used (R160). -/
def State.steerShift (s : State) (d : Nat) : Nat :=
  let v := bits (s.dcfg d 0x10C) 25 20
  if v = 0 then 0 else clamp v 8 30

/-- The total weight of the TIME members. -/
def State.timeWeight (s : State) (d : Nat) : Int :=
  isum (((s.members d).filter fun sl => s.timeSlot d sl).map fun sl => ((s.dslot d sl).w : Int))

/-- The ensemble steers towards its time (R147). -/
def State.ensSteers (s : State) (d : Nat) : Bool := s.steerShift d != 0 && decide (0 < s.timeWeight d)

/-- The advance of R147. -/
def State.ensAdvance (s : State) (d : Nat) : State :=
  let l := (s.dom d).sel
  let ms := s.members d
  let sum (f : Nat → Int) (k : List Nat) : Int := isum (k.map fun sl => ((s.dslot d sl).w : Int) * f sl)
  let x := l.xref + roundDiv (sum (fun sl => (s.dslot d sl).dp) ms) fullWeight
  let tm := ms.filter fun sl => s.timeSlot d sl
  if s.ensSteers d then
    let tgt := floorDiv (sum (fun sl => ((s.dslot d sl).p).getD 0 + s.slotOfs d sl) tm) (s.timeWeight d)
    s.setSel d fun l => { l with steering := true, xref := x + floorDiv (tgt - l.xref) (2 ^ s.steerShift d : Nat) }
  else s.setSel d fun l => { l with steering := false, xref := x }

/-- WT_LEVEL and τ0 as used. -/
def State.wtLevel (s : State) (d : Nat) : Nat := min (bits (s.dcfg d 0x10C) 4 0) 19
def State.wtTau0 (s : State) (d : Nat) : Nat := bits (s.dcfg d 0x110) 19 0 + 1

/-- The σ estimator does not run in this variant (R157). -/
def State.sigPaused (s : State) (d : Nat) : Bool :=
  decide (512000 ≤ s.wtTau0 d * 2 ^ s.wtLevel d) && decide (1 ≤ s.board.varNow)

/-- A sample of the residual of slot `sl` (R150). -/
def State.sigTake (s : State) (d sl : Nat) : State :=
  let v := s.dslot d sl
  let r := (v.p.getD 0) + s.slotOfs d sl - (s.dom d).sel.xref
  s.setDslot d sl fun v => { v with sigSince := 0, sig := v.sig.sample (s.wtLevel d) (s.wtAvg d) 256 (some r) }

/-- The σ estimator of one member in one round; `gap` says that frozen rounds came before it. -/
def State.sigRound (gap : Bool) (d : Nat) (s : State) (sl : Nat) : State :=
  let s := s.setDslot d sl fun v => { v with
    sigSince := v.sigSince + 1, sig := { v.sig with bad := v.sig.bad || v.bridged || gap || s.sigPaused d } }
  if s.wtTau0 d ≤ (s.dslot d sl).sigSince then s.sigTake d sl else s

/-- The weights move towards their targets (R149). -/
def State.mixWeights (s : State) (d : Nat) : State :=
  let k := min (bits (s.dcfg d 0x10C) 16 12) 20
  let s := (s.members d).foldl (fun (s : State) sl => s.setDslot d sl fun v => { v with
    w := ((v.w : Int) + floorDiv ((v.t : Int) - v.w) (2 ^ k : Nat)).toNat }) s
  s.levelWeights d

/-- The slot with the largest weight, lowest on ties (R153). -/
def State.topSlot (s : State) (d : Nat) : Nat :=
  ((s.members d).foldl (fun (b : Option Nat) sl =>
    match b with
    | none => some sl
    | some x => if (s.dslot d x).w < (s.dslot d sl).w then some sl else some x) none).getD 0

/-- The lowest rank that eligible slots of it or better hold with at least 65,536 of the weight (R153). -/
def State.ensRank (s : State) (d : Nat) : Nat :=
  ((List.range 16).find? fun r =>
    decide (65536 ≤ (((s.members d).filter fun sl => s.slotRank d sl ≤ r).map fun sl => (s.dslot d sl).w).sum)).getD 15

/-- Eligibility of the round: removals and admissions; answers whether the ensemble starts (R146, R149). -/
def State.ensMembers (s : State) (d : Nat) (start : Bool) : State × Bool :=
  let s := slotNums.foldl (State.endParking d) s
  let want (sl : Nat) : Bool := s.ensReady d sl && !(s.dslot d sl).parked
  let out := slotNums.filter fun sl => (s.dslot d sl).eligible && !want sl
  let into := slotNums.filter fun sl => !(s.dslot d sl).eligible && want sl
  let s := out.foldl (fun (s : State) sl => s.dropMember d sl) s
  let stay := s.members d
  let s := into.foldl (fun (s : State) sl => s.admitSlot d sl) s
  let fresh := start || (decide (stay.length = 0) && decide (into.length ≠ 0))
  let s := if out.length + into.length = 0 then s else s.setTargets d
  if fresh then ((s.weightsToTargets d (s.members d)).levelWeights d, true)
  else if out.length ≠ 0 then ((s.weightsToTargets d stay).levelWeights d, false)
  else (s, false)

/-- Parking and unparking of the round (R151, R152); `fresh` says that the ensemble started in it, and so does the answer: a
slot whose parking PARK_TIME ends may be the first of an empty ensemble. -/
def State.ensParking (s : State) (d : Nat) (fresh : Bool) : State × Bool :=
  let s := s.devRound d
  let out := if fresh then [] else slotNums.filter fun sl => s.devParks d sl
  let stay := s.members d
  let s := slotNums.foldl (State.calmSlot d) s
  let s := out.foldl (fun (s : State) sl => s.park d sl) s
  if stay.length = 0 ∧ (s.members d).length ≠ 0 then
    (((s.setTargets d).weightsToTargets d (s.members d)).levelWeights d, true)
  else if out.length ≠ 0 then (s.afterRemoval d stay, fresh)
  else if (s.members d).length ≠ stay.length then (s.setTargets d, fresh)
  else (s, fresh)

/-- Every σ returns to SIG_INIT, and weights take their targets (R149, R163). -/
def State.sigRestart (s : State) (d : Nat) : State :=
  let ms := s.members d
  let s := ms.foldl (fun (s : State) sl => s.setDslot d sl fun v => { v with sig := .zero, sigSince := 0 }) s
  ((s.setTargets d).weightsToTargets d ms).levelWeights d

/-- The σ estimators of the members, and new targets where one of them updated. -/
def State.sigmaRound (s : State) (d : Nat) (gap : Bool) : State :=
  let ms := s.members d
  let full (s : State) := ms.map fun sl => ((s.dslot d sl).sig.n, (s.dslot d sl).sig.p)
  let t := ms.foldl (State.sigRound gap d) s
  if full s != full t && ms.any fun sl => decide (2 ^ s.wtAvg d ≤ (t.dslot d sl).sig.n) then t.setTargets d else t

/-- One round of ENSEMBLE. -/
def State.selEns (s : State) (d : Nat) : State :=
  let l := (s.dom d).sel
  let c := s.contPhase d
  let s := s.setSel d fun l => { l with ens := true, wtrRun := false, wtrLeft := 0, wtrSlot := none }
  let (s, fresh) := s.ensMembers d (!l.ens || l.rejoin == 2)
  let (s, fresh) := s.ensParking d fresh
  if (s.members d).length = 0 then s.selNone d
  else
    let s := s.levelWeights d
    let join := fresh || !l.had
    let s := if join || l.ensRestart || l.rejoin != 0 then
        s.setSel d fun l => { l with xref := c, steering := s.ensSteers d }
      else s.ensAdvance d
    let s := if l.ensRestart then s.sigRestart d else s
    let s := (s.sigmaRound d (l.rejoin == 1)).mixWeights d
    let n := s.topSlot d
    let s := if join || l.rejoin == 2 then
        s.selSwitch d n (if l.rejoin = 2 then 7 else if l.had then 5 else 6)
      else s
    s.setSel d fun l => { l with valid := true, src := 0, slot := n }

/-! ### A round of selection (R134) -/

/-- DOM_SEL_MISMATCH: selection, weights and build-out stay, and x_ref advances by the predictions (R163). -/
def State.selHold (s : State) (d : Nat) : State :=
  let l := (s.dom d).sel
  if l.valid then
    let dx := if l.ens then
        roundDiv (isum ((s.members d).map fun sl => ((s.dslot d sl).w : Int) * (s.dslot d sl).dp)) fullWeight
      else (s.dslot d l.slot).dp
    s.setSel d fun l => { l with xref := l.xref + dx }
  else s

/-- INIT: no reference, and no ensemble. -/
def State.selOff (s : State) (d : Nat) : State := (s.leaveEnsemble d).selNone d

/-- Selection frozen by PX1608 fencing: the domain has no reference, and everything else stays until CLEAR_SELECT
(R163). -/
def State.selFenced (s : State) (d : Nat) : State :=
  s.setSel d fun l => { l with valid := false, src := 3, steering := false }

/-- A slot in use is bridged: SUSPECT, or held (R135). -/
def State.bridging (s : State) (d : Nat) : Bool :=
  let l := (s.dom d).sel
  let sus (sl : Nat) : Bool := (s.dslot d sl).sus || l.hold
  l.valid && (if l.ens then (s.members d).any sus else sus l.slot)

/-- What every round of selection ends with: rank, x_ref's record and the bridging count. -/
def State.selClose (s : State) (d : Nat) (old : Sel) : State :=
  let l := (s.dom d).sel
  let n := s.roundNow
  let br := s.bridging d
  let rank := if l.valid = false then 15 else if l.ens then s.ensRank d else s.slotRank d l.slot
  let h := if l.valid = false then []
    else if old.had = true ∧ old.rejoin = 0 then ((n, l.xref) :: l.hist).take (s.boWin d) else [(n, l.xref)]
  let s := s.setSel d fun l => { l with
    bridging := br, rank, hist := h, dxref := if l.valid && old.had && old.rejoin == 0 then l.xref - old.xref else 0
    hold := false, ensRestart := false, reconf := false, rejoin := 0 }
  if br then s.bump (domPage d) 0xB18 else s

/-- A round on a STANDBY or SYNCING device: the selection is the partner's, the phase estimates are its own (R158). -/
def State.selFollow (s : State) (d : Nat) : State :=
  let s := slotNums.foldl (State.estimateSlot d) s
  let l := (s.dom d).sel
  let rank := if l.valid = false then 15 else if l.ens then s.ensRank d else s.slotRank d l.slot
  s.setSel d fun l => { l with
    had := l.valid, rank, bridging := false, hist := [], dxref := 0, hold := false, ensRestart := false, reconf := false }

/-- What selection reads of the configuration of domain `d`. -/
def State.selCfg (s : State) (d : Nat) : SelCfg :=
  { mode := s.selMode d, pbo := s.pboMode d, revert := bit (s.dcfg d 0x100) 2, wtr := s.wtrRounds d
    slots := slotNums.map fun sl =>
      { cand := s.slotCand d sl, time := s.timeSlot d sl, prio := s.slotPrio d sl, ofs := s.slotOfs d sl } }

/-- A slot whose candidate changed: its estimate starts anew, and it leaves the ensemble. Where only its kind of phase
changed, the estimate starts anew and the slot stays; a selected slot is built out again (DESIGN CHOICE, log entry 26). -/
def State.slotReconf (d : Nat) (s : State) (c : Nat × SlotCfg × SlotCfg) : State :=
  let (sl, a, b) := c
  if a.cand = b.cand ∧ a.time = b.time then s
  else
    let l := (s.dom d).sel
    let s := if (s.dslot d sl).eligible = true ∧ a.cand ≠ b.cand then s.dropMember d sl else s
    let s := s.setDslot d sl fun v => { v with p := none, dp := 0, terrs := [], sus := false }
    let s := if a.cand = b.cand then s else s.setDslot d sl fun v => { v with qs := [], age := 0, calm := 0, fit := false }
    if l.valid = true ∧ l.ens = false ∧ l.slot = sl then s.setSel d fun l => { l with reconf := true } else s

/-- A change of configuration since the last round that ran (R155). -/
def State.selReconf (s : State) (d : Nat) (a b : SelCfg) : State :=
  let ms := s.members d
  let s := (slotNums.zip (a.slots.zip b.slots)).foldl (State.slotReconf d) s
  let s := if (s.members d).length ≠ ms.length then s.afterRemoval d (s.members d) else s
  let s := if a.mode ≠ b.mode then s.setSel d fun l => { l with reconf := true } else s
  let l := (s.dom d).sel
  let ofs (c : SelCfg) : Int := match c.slots[l.slot]? with | some v => v.ofs | none => 0
  let s := if l.valid = true ∧ l.ens = false ∧ a.pbo = 0 ∧ b.pbo = 0 then
      s.setSel d fun l => { l with bo := l.bo + (ofs b - ofs a) }
    else s
  if a.slots.map (·.prio) ≠ b.slots.map (·.prio) ∨ a.revert ≠ b.revert ∨ a.wtr ≠ b.wtr then
    s.setSel d fun l => { l with wtrRun := false, wtrLeft := 0, wtrSlot := none }
  else s

/-- The configuration as selection sees it in a round that runs, compared with that of the last such round. -/
def State.selSee (s : State) (d : Nat) : State :=
  let b := s.selCfg d
  let s := match (s.dom d).sel.seen with
    | some a => if a = b then s else s.selReconf d a b
    | none => s
  s.setSel d fun l => { l with seen := some b }

/-- Selection of domain `d` in one round (R134). In frozen rounds everything holds but the phase estimates, which every
round forms (R133, R157). -/
def State.selRound (s : State) (d : Nat) : State :=
  if s.domRuns d = false then slotNums.foldl (State.estimateSlot d) s
  else if s.standby = true ∧ s.isInit d = false then (s.selSee d).selFollow d
  else
    let s := s.selSee d
    let s := s.setSel d fun l => { l with had := l.valid, rejoin := if (s.dom d).frozen && l.rejoin == 0 then 1 else l.rejoin }
    let old := (s.dom d).sel
    let s := slotNums.foldl (State.estimateSlot d) s
    let s :=
      if s.isInit d then s.selOff d
      else if old.fenced then s.selFenced d
      else if old.hold then s.selHold d
      else if s.selMode d = 2 then s.selEns d
      else s.selPrio d
    s.selClose d old

/-- A round that the board does not run: the estimates go on by their predictions. -/
def State.idleSlot (d : Nat) (s : State) (sl : Nat) : State :=
  match s.slotCand d sl with
  | some i =>
    let pr := s.predicted i
    s.setDslot d sl fun v => { v with p := v.p.map (· + pr), dp := pr, terrs := v.terrs.map fun e => (e.1 + 1, e.2) }
  | none => s

/-! ### Commands (R159) -/

/-- Refusals of a selection command with its CMD_ARG; `again` leaves out what only the writing asks. -/
def State.selChecks (s : State) (d code : Nat) (arg : Word) (again : Bool) : Checks :=
  let sl := bits arg 2 0
  let st := (s.dom d).state
  let ens := s.selMode d == 2
  let busy := s.busy (domPage d) && !again
  let lock := (s.page (domPage d)).lockCmd
  let role := s.standby
  let off := (s.slotCand d sl).isNone
  match code with
  | 0x10 => { arg := off, busy, lock, role, state := st == .init || ens }
  | 0x11 => { arg := off, busy, lock, role, state := st == .init || ens || (s.dom d).sel.forced.isSome }
  | 0x12 => { busy, lock, role }
  | 0x13 => { arg := off, busy, role, state := st == .init || !ens }
  | 0x14 => { busy, lock, role, state := st == .init || !ens || !(s.dslot d sl).parked }
  | 0x15 =>
    { busy, lock, role
      state := !(st == .acquire || st == .locked) || ens || s.pboMode d == 0 || !(s.dom d).sel.valid }
  | _ => { arg := true }

/-- The effect of a selection command at its boundary. -/
def State.selEffect (s : State) (d code : Nat) (arg : Word) : State :=
  let sl := bits arg 2 0
  match code with
  | 0x10 => s.setSel d fun l => { l with forced := some sl, manual := none }
  | 0x11 => s.setSel d fun l => { l with manual := some sl }
  | 0x12 => s.setSel d fun l => { l with forced := none, manual := none, fenced := false }
  | 0x13 =>
    let was := (s.dslot d sl).eligible
    let s := s.park d sl
    if was then s.afterRemoval d (s.members d) else s
  | 0x14 => s.unpark d sl
  | 0x15 => s.setSel d fun l => { l with realign := true }
  | _ => s

/-- Issue a selection command. -/
def State.selCommand (s : State) (d : Nat) (m : Master) (code : Nat) : State :=
  let m := masterCode m
  s.onWrite (domPage d) m fun (s : State) =>
    let arg := s.arg (domPage d) m
    s.submit (domPage d) m code arg (s.selChecks d code arg false)

/-! ### The rows -/

/-- FORCE_SELECT. -/
def execForceSelect (d : Fin 12) (m : Master) (s : State) : Host.Outcome State Fault Refusal :=
  finish (s.selCommand d m 0x10)

/-- MANUAL_SELECT. -/
def execManualSelect (d : Fin 12) (m : Master) (s : State) : Host.Outcome State Fault Refusal :=
  finish (s.selCommand d m 0x11)

/-- CLEAR_SELECT. -/
def execClearSelect (d : Fin 12) (m : Master) (s : State) : Host.Outcome State Fault Refusal :=
  finish (s.selCommand d m 0x12)

/-- PARK. -/
def execPark (d : Fin 12) (m : Master) (s : State) : Host.Outcome State Fault Refusal := finish (s.selCommand d m 0x13)

/-- UNPARK. -/
def execUnpark (d : Fin 12) (m : Master) (s : State) : Host.Outcome State Fault Refusal := finish (s.selCommand d m 0x14)

/-- REALIGN_BO. -/
def execRealignBo (d : Fin 12) (m : Master) (s : State) : Host.Outcome State Fault Refusal :=
  finish (s.selCommand d m 0x15)

/-- WTR_EXPIRY: the domain reverts to the slot that its WTR count belongs to; x_ref stands at the round's value. -/
def State.wtrRevert (s : State) (d : Nat) : State :=
  let l := (s.dom d).sel
  match l.wtrSlot with
  | some a =>
    if l.wtrRun = true ∧ l.valid = true ∧ s.domRuns d = true ∧ s.selectable d none a = true then
      let p := ((s.dslot d a).p).getD 0
      let join := if s.pboMode d = 0 then s.slotOfs d a else l.xref - p
      (s.selSwitch d a 1).setSel d fun l => { l with
        slot := a, bo := join, brg := 0, xref := p + join, rank := s.slotRank d a
        wtrRun := false, wtrLeft := 0, wtrSlot := none }
    else s
  | none => s

/-- WTR_EXPIRY. -/
def execWtrExpiry (d : Fin 12) (s : State) : Host.Outcome State Fault Refusal := finish (s.wtrRevert d)

/-- PARK_TIME_EXPIRY: the parking of slot `sl` ends and the slot is admitted. -/
def execParkTimeExpiry (d : Fin 12) (sl : Fin 8) (s : State) : Host.Outcome State Fault Refusal :=
  finish (if (s.dslot d sl).parked = true ∧ s.domRuns d = true ∧ s.ensReady d sl = true then
    ((s.unpark d sl).admitSlot d sl).setTargets d else s)

/-- WT_SAMPLE: the residuals of the members are sampled, unless the variant pauses the estimator (R157). -/
def execWtSample (d : Fin 12) (s : State) : Host.Outcome State Fault Refusal :=
  finish (if (s.dom d).sel.ens = true ∧ s.domRuns d = true ∧ s.sigPaused d = false then
    ((s.members d).foldl (fun (s : State) sl => s.sigTake d sl) s).setTargets d else s)

end Sys2Proof.Machine
end

