-- ==== Sys2Proof/Machine/Loop.lean ====
section
/-! DEFINITION. The domain loops (chapter 06): domain states, loop filter, holdover and its predictor, the learned model
and its records, the sluice, and the loop commands of the DOM pages. -/

namespace Sys2Proof.Machine

/-- The register of R167 in units of 2^-56: PULL_LIM × 0.1 ppm. -/
def State.pullLimit (s : State) (d : Nat) : Int := roundDiv (bits (s.dcfg d 0xC) 15 0 * 2 ^ 56 : Nat) 10000000

/-- BW_CODE as used: reserved codes are treated as 26 (R169). -/
def State.bwCode (s : State) (d : Nat) : Nat :=
  let v := bits (s.dcfg d 0) 4 0
  if v = 31 then 31 else min v 26

/-- The follower form is in use (R172). -/
def State.followerForm (s : State) (d : Nat) : Bool := s.bwCode d == 24 || s.bwCode d == 25 || s.bwCode d == 26

/-- The coefficients of the active codes: those of 1 Hz for the follower form, the custom words for code 31. -/
def State.loopCoefs (s : State) (d : Nat) : Coef × Coef :=
  let w := s.dcfg d 0
  if s.bwCode d = 31 then (coefOf (s.dcfg d 4), coefOf (s.dcfg d 8))
  else coefs (if s.followerForm d then 15 else s.bwCode d) (bits w 6 5)

/-- θ of R178 and R179, 0.01 degC; `none` with TSRC 0. -/
def State.theta (s : State) (d : Nat) : Option Int :=
  match bits (s.dcfg d 0x20) 17 16 with
  | 1 => some (tget (fun _ => Temp.zero) s.budget.temps 0).value
  | 2 => some (signed 16 (bits (s.dir (domPage d) 0x914) 15 0))
  | _ => none

/-! ### The sluice (R184, R185) -/

/-- Slope and length of segment `g`. -/
def State.sluSlope (s : State) (d g : Nat) : Nat := clamp (bits (s.dcfg d (0x80 + 8 * g)) 23 0) 1 10000000
def State.sluDur (s : State) (d g : Nat) : Nat := (s.dcfg d (0x84 + 8 * g)).toNat

/-- The profile restarts at segment 0. -/
def State.sluRestart (s : State) (d : Nat) : State :=
  let n := s.sluDur d 0
  s.setDom d fun x => { x with seg := 0, left := n, acc := 0 }

/-- A segment's length has run out. -/
def State.sluNext (s : State) (d : Nat) : State :=
  let g := (s.dom d).seg
  if g < 15 then
    let n := s.sluDur d (g + 1)
    s.setDom d fun x => { x with seg := g + 1, left := n }
  else s.setDom d fun x => { x with left := 0 }

/-- y_out moves towards y_loop by one round's step. -/
def State.sluice (s : State) (d : Nat) : State :=
  let x := s.dom d
  let num := s.sluSlope d x.seg * 125 * 2 ^ 56 + x.acc
  let step : Int := (num / 1000000000000000000 : Nat)
  let dif := x.yloop - x.yout
  let sign : Int := if step < dif then 1 else if dif < -step then -1 else 0
  let s := s.eventIf (decide (sign ≠ 0) && !x.sluClamp) (domPage d) 4
  let s := if sign ≠ 0 then s.bump (domPage d) 0xA18 else s
  let s := s.setDom d fun x => { x with
    acc := num % 1000000000000000000, clampSign := sign, sluClamp := decide (sign ≠ 0)
    yout := iclamp (x.yout + iclamp dif (-step) step) (-yMax) yMax }
  if s.sluDur d x.seg = 0 ∨ x.left = 0 then s
  else if x.left = 1 then s.sluNext d
  else s.setDom d fun x => { x with left := x.left - 1 }

/-! ### States (R174) -/

/-- Change the state of a domain: its counts restart (R175). -/
def State.domTo (s : State) (d : Nat) (st : DState) : State :=
  if (s.dom d).state = st then s
  else (s.setDom d fun x => { x with state := st, lockCnt := 0, unlockCnt := 0, eHist := [] }).event (domPage d) 0

/-- Entry to ACQUIRE from another state than LOCKED: the sluice restarts. -/
def State.acquire (s : State) (d : Nat) (y : Int) : State :=
  let s := s.setDom d fun x => { x with i := y * 16777216, yHist := [] }
  (s.domTo d .acquire).sluRestart d

/-- x_ref is rebuilt at the phase of zero error; a HOLDOVER exit with a reference that was never lost counts as a
switch of its slot (R142, R160, R174). -/
def State.exitHoldover (s : State) (d : Nat) : State :=
  let l := (s.dom d).sel
  let s := if l.had then s.selSwitch d l.slot 6 else s
  let s := s.rebuild d (s.dom d).xfb
  let s := s.setDom d fun x => { x with err := x.xfb - x.sel.xref }
  s.acquire d (s.dom d).yout

/-- drift() and temp() of R179. -/
def drift (b : Int) (rounds : Int) : Int := roundDiv (b * rounds * 125 * 2 ^ 56) 10000000000000000000000000000
def tempTerm (c dth : Int) : Int := roundDiv (c * dth * 2 ^ 56) 100000000000000000

/-- y_e of R177. -/
def State.holdValue (s : State) (d : Nat) : Int :=
  let x := s.dom d
  let w := s.dcfg d 0x18
  let guard := bits w 23 8
  let win := (x.yHist.drop guard).take (2 ^ clamp (bits w 4 0) 10 26)
  let n := win.length
  let avg := if n = 0 then x.yout else roundDiv (isum win) n
  if x.model.valid then avg + drift x.model.b (n / 2 + guard : Nat) else avg

/-- Entry to HOLDOVER. -/
def State.enterHoldover (s : State) (d : Nat) : State :=
  let y := s.holdValue d
  let th := (s.theta d).getD 0
  let s := s.setDom d fun x => { x with ye := y, thE := th, hoRounds := 0, hoSince := true }
  (((s.domTo d .holdover).bump (domPage d) 0xA08)).event (domPage d) 2

/-- The prediction of HOLDOVER in the present round (R179). -/
def State.predict (s : State) (d : Nat) : Int :=
  let x := s.dom d
  if x.model.valid then x.ye + drift x.model.b x.hoRounds + tempTerm x.model.c ((s.theta d).getD 0 - x.thE) else x.ye

/-- HOLDOVER_LIMITED: the prediction freezes at its present value. -/
def State.limitHoldover (s : State) (d : Nat) : State :=
  let y := s.predict d
  let s := s.setDom d fun x => { x with ye := y }
  (s.domTo d .holdoverLimited).event (domPage d) 3

/-- A limit of R179 is reached. -/
def State.holdoverOver (s : State) (d : Nat) : Bool :=
  let x := s.dom d
  let mx := (s.dcfg d 0x1C).toNat
  let ext : Int := 100 * (bits (s.dcfg d 0x24) 7 0 : Nat)
  (decide (mx ≠ 0) && decide (mx ≤ x.hoSeconds))
    || (match s.theta d with
        | some th => x.model.learned != 0 && (decide (th < x.model.thMin - ext) || decide (x.model.thMax + ext < th))
        | none => false)

/-- LOCKED is left for ACQUIRE: LOCK_LOST; the sluice continues (R174). -/
def State.loseLock (s : State) (d : Nat) : State :=
  let s := (s.domTo d .acquire).setDom d fun x => { x with yHist := [] }
  (s.bump (domPage d) 0xA00).event (domPage d) 1

/-- LOCK_PH against |e| times ten, 2^-8 fine units: 10 ps are 838,860.8 of them. -/
def State.lockPh (s : State) (d : Nat) : Nat := bits (s.dcfg d 0x10) 15 0 * 8388608

/-- The criteria of R175 in one round. -/
def State.lockRound (s : State) (d : Nat) : State :=
  let x := s.dom d
  let e := 10 * x.err.natAbs
  match x.state with
  | .acquire =>
    let n := if e ≤ s.lockPh d ∧ x.sluClamp = false then x.lockCnt + 1 else 0
    let s := s.setDom d fun x => { x with lockCnt := n }
    if bits (s.dcfg d 0x10) 31 16 * 1000 ≤ n then s.domTo d .locked else s
  | .locked =>
    let n := if 4 * s.lockPh d < e then x.unlockCnt + 1 else 0
    let s := s.setDom d fun x => { x with unlockCnt := n }
    if 64 ≤ n then s.loseLock d else s
  | _ => s

/-- The transitions of one round, after selection and before the loop (R174). -/
def State.domStep (s : State) (d : Nat) : State :=
  let x := s.dom d
  let ref := x.sel.valid
  match x.state with
  | .init => s
  | .freeRun => if ref = true ∧ x.forcedHo = false then s.acquire d (s.yRef d) else s
  | .acquire | .locked => if ref = false ∨ x.forcedHo = true then s.enterHoldover d else s.lockRound d
  | .holdover =>
    if ref = true ∧ x.forcedHo = false then s.exitHoldover d else if s.holdoverOver d then s.limitHoldover d else s
  | .holdoverLimited => if ref = true ∧ x.forcedHo = false then s.exitHoldover d else s

/-! ### The loop (R171, R172, R510) -/

/-- The free-run value. -/
def State.freeValue (s : State) (d : Nat) : Int :=
  let m := (s.dom d).model
  if bit (s.dcfg d 0) 12 ∧ m.valid = true then
    let c2 := match m.samples.head? with | some p => p.1 | none => 2 * s.roundNow
    m.a + drift m.b ((2 * s.roundNow - c2) / 2 : Nat) + tempTerm m.c ((match s.theta d with | some t => t | none => m.th0) - m.th0)
      + (s.dom d).ye
  else unitsOfPpt (sregister (s.dcfg d 0x14))

/-- The loop filter on error `e`; `pull` bounds the integrator and y_loop, and PULL_CLAMP shows that it acted. -/
def State.filter (s : State) (d : Nat) (kp ki : Coef) (follower : Bool) (e : Int) : State :=
  let x := s.dom d
  let pull := s.pullLimit d
  let (p, inc) := piTerms kp ki e
  let held := decide (x.clampSign ≠ 0) && decide (inc.sign = x.clampSign)
  let i1 := if held then x.i else x.i + inc
  let i2 := if held then x.i else iclamp i1 (-(pull * 16777216)) (pull * 16777216)
  let ff := if follower then x.ff + roundDiv ((yOfPhase x.sel.dxref - x.ff) * followerAlpha (s.bwCode d)) 131072 else x.ff
  let y := (if follower then ff else 0) + roundDiv (i2 + p) 16777216
  let yl := iclamp y (-pull) pull
  let hit := decide (i1 ≠ i2) || decide (y ≠ yl)
  let s := s.eventIf (hit && !x.pullClamp) (domPage d) 5
  let s := if hit then s.bump (domPage d) 0xA20 else s
  s.setDom d fun x => { x with i := i2, ff, yloop := yl, pullClamp := hit }

/-- y_loop of the round by the domain's state; an open loop filters nothing (R195). -/
def State.command (s : State) (d : Nat) : State :=
  let x := s.dom d
  match x.state with
  | .init => s
  | .freeRun =>
    let y := s.freeValue d
    s.setDom d fun x => { x with yloop := y, pullClamp := false }
  | .acquire | .locked =>
    if x.open_ then s.setDom d fun x => { x with pullClamp := false }
    else s.filter d (coefOf x.kp) (coefOf x.ki) (s.followerForm d) x.err
  | .holdover =>
    let y := s.predict d
    s.setDom d fun x => { x with yloop := y, pullClamp := false }
  | .holdoverLimited => s.setDom d fun x => { x with yloop := x.ye, pullClamp := false }

/-! ### The learned model (R178) -/

/-- The model, its fit and its span are discarded; learning starts afresh from the next sample. -/
def Model.clear (m : Model) : Model := { Model.zero with fenced := m.fenced, cnt := m.cnt, sumY := m.sumY, sumT := m.sumT, bad := m.bad }

/-- Weighted sums of a fit in t (half rounds against the latest sample) and θ; all carry the same scale. -/
structure ModelSums where
  n : Int
  t : Int
  v : Int
  tt : Int
  tv : Int
  vv : Int
  y : Int
  ty : Int
  vy : Int
  deriving DecidableEq, Repr

/-- One sample joins: what stands so far keeps (2^F − 1) / 2^F of its weight; `k` counts the scalings. -/
def ModelSums.add (f : Nat) (t0 : Int) (a : ModelSums × Nat) (p : Nat × Int × Int × Nat) : ModelSums × Nat :=
  let g : Int := 2 ^ f - 1
  let h : Int := 2 ^ (f * a.2) * p.2.2.2
  let t : Int := p.1 - t0
  let y := p.2.1
  let v := p.2.2.1
  let m := a.1
  (⟨m.n * g + h * 2 ^ f, m.t * g + h * 2 ^ f * t, m.v * g + h * 2 ^ f * v, m.tt * g + h * 2 ^ f * t * t,
    m.tv * g + h * 2 ^ f * t * v, m.vv * g + h * 2 ^ f * v * v, m.y * g + h * 2 ^ f * y, m.ty * g + h * 2 ^ f * t * y,
    m.vy * g + h * 2 ^ f * v * y⟩, a.2 + 1)

/-- LRN_TAU_LOG2 and LRN_FORGET as used. -/
def State.lrnTau (s : State) (d : Nat) : Nat := min (bits (s.dcfg d 0x20) 4 0) 20
def State.lrnForget (s : State) (d : Nat) : Nat := clamp (bits (s.dcfg d 0x20) 12 8) 8 24

/-- The fit over the samples: a, b, c and θ0 in their published units. `w` is the rounds of one sample; `two` says that
c is held (TSRC 0, or a span of θ below 1 K). -/
def fitModel (w f : Nat) (two : Bool) (cHeld : Int) (l : List (Nat × Int × Int × Nat)) : Int × Int × Int × Int :=
  match l.head? with
  | none => (0, 0, cHeld, 0)
  | some p0 =>
    let m := (l.reverse.foldl (ModelSums.add f p0.1) (⟨0, 0, 0, 0, 0, 0, 0, 0, 0⟩, 0)).1
    let dtt := m.n * m.tt - m.t * m.t
    let dtv := m.n * m.tv - m.t * m.v
    let dvv := m.n * m.vv - m.v * m.v
    let dty := m.n * m.ty - m.t * m.y
    let dvy := m.n * m.vy - m.v * m.y
    let det := dtt * dvv - dtv * dtv
    let th0 := roundDiv m.v (m.n * w)
    if two ∨ det = 0 then
      -- κ = c × 2^56 / 1e17 per 0.01 degC; θ and y both carry the factor w
      let sty := dty * 100000000000000000 - cHeld * 2 ^ 56 * dtv
      let den := dtt * 100000000000000000
      let b := if dtt = 0 then 0 else roundDiv (sty * 16000 * 10000000000000000000000) (den * w * 2 ^ 56)
      let a := if dtt = 0 then roundDiv m.y (m.n * w) else roundDiv (m.y * den - sty * m.t) (m.n * den * w)
      (a, saturate 32 b, cHeld, th0)
    else
      let bn := dty * dvv - dvy * dtv
      let cn := dvy * dtt - dty * dtv
      (roundDiv (m.y * det - bn * m.t) (m.n * det * w),
        saturate 32 (roundDiv (bn * 16000 * 10000000000000000000000) (det * w * 2 ^ 56)),
        saturate 32 (roundDiv (cn * 100000000000000000) (det * 2 ^ 56)), th0)

/-- The interval in progress ends: a clean one enters the fit. -/
def State.modelSample (s : State) (d : Nat) : State :=
  let m := (s.dom d).model
  let w := s.lrnTau d
  let s := s.setDom d fun x => { x with model := { x.model with cnt := 0, sumY := 0, sumT := 0, bad := false } }
  if m.bad = true ∨ m.fenced = true ∨ m.cnt = 0 then s
  else
    let th := roundDiv m.sumT m.cnt
    let c2 := 2 * s.roundNow + 1 - m.cnt
    let l := (c2, m.sumY * (2 ^ w : Nat) / (m.cnt : Int), m.sumT * (2 ^ w : Nat) / (m.cnt : Int), 1) :: m.samples
    let lo := if m.learned = 0 then th else min m.thMin th
    let hi := if m.learned = 0 then th else max m.thMax th
    let two := (s.theta d).isNone || decide (hi - lo < 100)
    let held := if (s.theta d).isNone then 0 else m.c
    let (a, b, c, th0) := fitModel (2 ^ w) (s.lrnForget d) two held l
    let n := m.learned + m.cnt
    let ok := m.valid || decide (bits (s.dcfg d 0x20) 31 20 * 480000 ≤ n)
    s.setDom d fun x => { x with model := { x.model with
      samples := l, a, b, c, th0, thMin := lo, thMax := hi, learned := n, valid := ok } }

/-- The model in one round. -/
def State.modelRound (s : State) (d : Nat) : State :=
  let x := s.dom d
  let bad := x.state != .locked || x.sel.bridging || s.board.varNow == 3
  let th := (s.theta d).getD 0
  let s := s.setDom d fun x => { x with model := { x.model with
    cnt := x.model.cnt + 1, sumY := x.model.sumY + x.yout, sumT := x.model.sumT + th, bad := x.model.bad || bad } }
  if 2 ^ s.lrnTau d ≤ (s.dom d).model.cnt then s.modelSample d else s

/-! ### Model records (R181, R182, R490) -/

/-- NV address of the two slots. -/
def State.modelAddr (s : State) (d : Nat) : Nat := bits (s.dcfg d 0x2C) 18 0

/-- The place of the records is one that R182 accepts. -/
def State.modelNvOk (s : State) (d : Nat) : Bool :=
  let a := s.modelAddr d
  decide (a % 128 = 0) && decide (a + 128 ≤ nvBytes) && !s.rangeProtected a 128

/-- The sequence number of slot `i`, when its record is valid and of this domain. -/
def State.modelSeq (s : State) (d i : Nat) : Option Nat :=
  let a := s.modelAddr d + 64 * i
  let q := nvWord s.nv.mem (a + 4)
  if nvWord s.nv.mem a = 0x4D440100 + d ∧ nvWord s.nv.mem (a + 60) = 0xFFFFFFFF - q ∧ s.nv.badIn a 64 = false then some q
  else none

/-- The words of a record, the commit word last. -/
def State.modelRecord (s : State) (d seq : Nat) : List Nat :=
  let m := (s.dom d).model
  let h (v : Int) : Nat := (v % 65536).toNat
  [0x4D440100 + d, seq] ++ words64 m.a
    ++ [(m.b % 2 ^ 32).toNat, (m.c % 2 ^ 32).toNat,
        h m.th0 + bits (s.dcfg d 0x20) 17 16 * 65536 + s.tbSrc * 262144, h m.thMin + h m.thMax * 65536,
        min (m.learned / 8000) 0xFFFFFFFF]
    ++ words64 s.osc.bnd ++ [0, 0, 0, 0, 0xFFFFFFFF - seq]

/-- Write a model record, or skip it with DOM_MODEL_NV_FAIL. -/
def State.saveModel (s : State) (d : Nat) : State :=
  if s.modelNvOk d = false then s.raise (domPage d) 6
  else if s.nvWritable = false then s
  else
    let (i, seq) := match newestSlot [s.modelSeq d 0, s.modelSeq d 1] with
      | some (i, q) => (1 - i, (q + 1) % 2 ^ 32)
      | none => (0, 1)
    let s := s.nvWrite (s.modelAddr d + 64 * i) (s.modelRecord d seq)
    (s.bump (domPage d) 0xA28).event (domPage d) 6

/-- The automatic records of a 900 s harvest boundary. -/
def State.saveModels (s : State) : State :=
  (List.range 12).foldl (fun (s : State) d =>
    if bit (s.dcfg d 0x2C) 31 ∧ (s.dom d).state = .locked ∧ (s.dom d).model.valid = true then s.saveModel d else s) s

/-- Take up the record in slot `i`: it stands for 2^(LRN_FORGET − 4) samples on its own line (R182). -/
def State.takeModel (s : State) (d i : Nat) : State :=
  let a := s.modelAddr d + 64 * i
  let w (k : Nat) : Nat := nvWord s.nv.mem (a + k)
  if w 24 / 262144 % 4 ≠ s.tbSrc then s
  else
    let va := signed 64 (w 8 + w 12 * 2 ^ 32)
    let vb := signed 32 (w 16)
    let t0 := signed 16 (w 24)
    let tau := 2 ^ s.lrnTau d
    let n := 2 ^ (s.lrnForget d - 4)
    let now := 2 * s.roundNow
    let back := n * tau
    let pt (c2 : Nat) (y : Int) : Nat × Int × Int × Nat := (c2, y * (tau : Nat), t0 * (tau : Nat), n / 2)
    s.setDom d fun x => { x with model := { x.model with
      valid := true, restored := true, a := va, b := vb, c := signed 32 (w 20), th0 := t0, thMin := signed 16 (w 28)
      thMax := signed 16 (w 28 / 65536), learned := w 32 * 8000
      samples := if back ≤ now then [pt now va, pt (now - back) (va - drift vb (back / 2 : Nat))] else [pt now va, pt now va] } }

/-- The first ENABLE after a reset restores the model of the domain (R490). -/
def State.restoreModel (s : State) (d : Nat) : State :=
  if s.boot.restored.contains d then s
  else
    let s := s.setBoot fun x => { x with restored := d :: s.boot.restored }
    if bit (s.dcfg d 0x2C) 31 ∧ s.modelAddr d + 128 ≤ nvBytes then
      match newestSlot [s.modelSeq d 0, s.modelSeq d 1] with
      | some (i, _) => s.takeModel d i
      | none => s
    else s

/-! ### A round of the loop -/

/-- The DOMAIN item that steers domain `d` of a STANDBY (R320). -/
def State.itemOf (s : State) (d : Nat) : Option DomItem :=
  match s.pair.applied with
  | some r => (r.doms.find? fun i => i.1 == d).map (·.2)
  | none => none

/-- SAFE of an item. -/
def DomItem.safe (i : DomItem) : Bool := (i.word 0).testBit 7

/-- QL_OUT of the round (R187). -/
def State.qlRound (s : State) (d : Nat) : State :=
  let x := s.dom d
  let w := s.dcfg d 0x28
  let q := match x.state with
    | .init => 15
    | .freeRun => bits w 3 0
    | .acquire | .locked => x.sel.rank
    | .holdover => bits w 7 4
    | .holdoverLimited => bits w 11 8
  s.setDom d fun x => { x with qlOut := q }

/-- y_out stays: an open loop (DOM_FB_LOSS, DOM_FB_RANGE) or a command staged again (DOM_LOOP_MISMATCH). -/
def State.moveOut (s : State) (d : Nat) : State :=
  let x := s.dom d
  if x.open_ ∨ x.restage then s.setDom d fun x => { x with restage := false } else s.sluice d

/-- What every round of a running domain ends with. -/
def State.loopClose (s : State) (d : Nat) : State :=
  let s := s.setDom d fun x => { x with
    yHist := if x.state = .acquire ∨ x.state = .locked then x.yout :: x.yHist else x.yHist
    eHist := (x.err :: x.eHist).take 8001 }
  s.modelRound d

/-- The aligned domains hold y_out: before step 6 of SYNCING, with the partner lost, and while a fault of R335 stands
(R323, R327, R335). -/
def State.alignHeld (s : State) : Bool :=
  let p := s.pair
  (p.role == .syncing && decide (p.syncStep < 6)) || p.lost || decide (2 ≤ p.pclkSilent) || decide (64 ≤ p.rangeBad)

/-- SYNCING bypasses the sluice until ALIGNED is 1 (R327). -/
def State.pullIn (s : State) (d : Nat) : State :=
  s.setDom d fun x => { x with yout := iclamp x.yloop (-yMax) yMax, sluClamp := false, clampSign := 0, restage := false }

/-- A round in which y_out is held: no bound acts, and learning goes on (R167, R185, R190). -/
def State.loopRest (s : State) (d : Nat) : State :=
  (s.setDom d fun x => { x with pullClamp := false, sluClamp := false, clampSign := 0 }).loopClose d

/-- The loop of a domain that a STANDBY aligns to its partner (R320). -/
def State.alignRound (s : State) (d : Nat) : State :=
  match (s.itemOf d).filter fun it => !it.safe with
  | some it =>
    match s.alignError d it with
    | some e =>
      let w := s.cfg 0x07 0
      let k := coefs (min (bits w 4 0) 23) (bits w 6 5)
      let s := s.setDom d fun x => { x with err := e }
      let s := s.setPair fun p => { p with errs := tmod (fun _ => []) p.errs d fun l => (e.natAbs :: l).take 1024 }
      if s.alignHeld then s.loopRest d
      else
        let s := if (s.dom d).open_ then s.setDom d fun x => { x with pullClamp := false } else s.filter d k.1 k.2 false e
        let pull := s.pair.role == .syncing && !s.pair.aligned
        ((if pull then s.pullIn d else s.moveOut d)).loopClose d
    | none => s.loopRest d
  | none => s.loopRest d

/-- HO_ELAPSED: it runs from the last entry to HOLDOVER on, in whatever state the domain then is (R191). -/
def Dom.elapse (x : Dom) : Dom := { x with hoRounds := if x.hoSince then x.hoRounds + 1 else x.hoRounds }

/-- A frozen round: what R189 names holds, y_out among it, no bound acts, and the round counts among those before an entry to
HOLDOVER and among those in it (R177, R191). -/
def State.loopFreeze (s : State) (d : Nat) : State :=
  let s := s.setDom d fun x => { x with
    frozen := true, pullClamp := false, sluClamp := false, clampSign := 0, model := { x.model with bad := true }
    yHist := if x.state = .acquire ∨ x.state = .locked then x.yout :: x.yHist else x.yHist }
  if (s.dom d).holding then s.bump (domPage d) 0xA10 else s

/-- The loop of domain `d` in one round, after selection. -/
def State.loopRound (s : State) (d : Nat) : State :=
  let x := s.dom d
  if x.state = .init then (s.qlRound d).setDom d Dom.elapse
  else if s.domRuns d = false then s.loopFreeze d
  else
    let s := if x.frozen then s.setDom d fun x => { x with frozen := false, lockCnt := 0, unlockCnt := 0 } else s
    if s.standby then s.alignRound d
    else
      let s := s.setDom d Dom.elapse
      let anchor := x.reanchor && x.fbTrack.isSome
      let s := s.setDom d fun x => { x with
        xfb := if anchor && x.sel.valid && decide (4 ≤ d) then x.sel.xref else x.xfb
        reanchor := x.reanchor && !anchor }
      let s := s.setDom d fun x => { x with
        err := if x.sel.valid then (if anchor then 0 else x.xfb - x.sel.xref) else x.err }
      let s := s.domStep d
      let s := if (s.dom d).holding then s.bump (domPage d) 0xA10 else s
      (((s.command d).moveOut d).loopClose d).qlRound d

/-! ### Swaps -/

/-- What a swap does to the loop of domain `d` (R170, R178, R185); `old` is the state before the exchange. -/
def State.loopSwap (old s : State) (d : Nat) : State :=
  let k := s.loopCoefs d
  let s := s.setDom d fun x => { x with kp := k.1.word, ki := k.2.word }
  let slu := (List.range 32).any fun n => old.dcfg d (0x80 + 4 * n) != s.dcfg d (0x80 + 4 * n)
  let s := if slu then s.sluRestart d else s
  if old.dcfg d 0x20 ≠ s.dcfg d 0x20 then
    s.setDom d fun x => { x with model := { x.model.clear with cnt := 0, sumY := 0, sumT := 0, bad := false } }
  else if old.tbSrc ≠ s.tbSrc then
    s.setDom d fun x => { x with model := x.model.clear }
  else s

/-! ### Commands (R186) -/

/-- Domain `d` drives an enabled Vilcia link or PTP instance. -/
def State.domServes (s : State) (d : Nat) : Bool :=
  ((List.range 8).any fun v => bit (s.linkCfg v) 0 && s.linkDom v == d)
    || ((List.range 4).any fun p => bit (s.cfg 0x0B (0x50 + 4 * p)) 0 && bits (s.cfg 0x0B (0x50 + 4 * p)) 5 4 == d)
    || ((List.range 4).any fun n => bit (s.cfg 0x0B (0x60 + 16 * n)) 0 && bits (s.cfg 0x0B (0x60 + 16 * n)) 6 5 == d)

/-- Refusals of a command on a DOM page. -/
def State.domChecks (s : State) (d code : Nat) (arg : Word) (again : Bool) : Checks :=
  let x := s.dom d
  let st := x.state
  let busy := s.busy (domPage d) && !again
  let lock := (s.page (domPage d)).lockCmd
  let role := s.standby
  let hold := st == .holdover || st == .holdoverLimited
  match code with
  | 1 =>
    { arg := !s.member d (s.cfgFb d), busy, role
      state := st != .init || (x.safe && (tget (fun _ => none) s.fault.safeCause d).isSome) }
  | 2 => { busy, lock, role, state := st == .init || (decide (d < 4) && s.domServes d) }
  | 3 => { busy, role, state := !(st == .acquire || st == .locked) }
  | 4 => { busy, role, state := !hold || !x.forcedHo || x.fencedHo }
  | 5 => { busy, role, state := st == .init }
  | 6 => { busy, lock, state := hold }
  | 7 => { busy, state := st == .init || !x.model.valid }
  | _ => if 0x10 ≤ code ∧ code < 0x16 then s.selChecks d code arg again else { arg := true }

/-- ENABLE takes effect (R174). -/
def State.domEnable (s : State) (d : Nat) : State :=
  let s := s.setDom d fun x => { x with
    safe := false, forcedHo := false, fencedHo := false, safePend := none, restage := false, open_ := false, err := 0, i := 0
    ff := 0, yloop := 0, yout := 0, clampSign := 0, sluClamp := false, pullClamp := false, yHist := [], ye := 0
    xfb := 0, fbTrack := none, fbBase := 0, xraw := 0, dx := 0, slope := 0, fbLost := 0, fbOff := 0, reanchor := false
    model := { x.model with cnt := 0, sumY := 0, sumT := 0, bad := false } }
  let s := ((s.domTo d .freeRun).sluRestart d).timeEnable d
  (s.restoreModel d).qlRound d

/-- A domain goes to INIT. -/
def State.domInit (s : State) (d : Nat) : State :=
  let s := s.setDom d fun x => { x with
    forcedHo := false, fencedHo := false, frozen := false, safePend := none, pullClamp := false, sluClamp := false
    clampSign := 0 }
  let s := (((s.domTo d .init).selOff d).setSel d fun l => { l with rank := 15, bridging := false, hist := [] })
  (s.timeInit d).qlRound d

/-- The effect of a command on a DOM page at its boundary. -/
def State.domEffect (d : Nat) (q : CmdPend) (s : State) : State :=
  match q.code with
  | 1 => s.domEnable d
  | 2 => s.domInit d
  | 3 => s.setDom d fun x => { x with forcedHo := true }
  | 4 => s.setDom d fun x => { x with forcedHo := false }
  | 5 => s.sluRestart d
  | 6 => s.setDom d fun x => { x with model := { x.model.clear with fenced := false } }
  | 7 => s.saveModel d
  | c => s.selEffect d c q.arg

/-- The pending command of a DOM page takes effect, unless the domain is frozen (R509). -/
def State.domApply (s : State) (d : Nat) : State :=
  match (s.page (domPage d)).pend with
  | none => s
  | some q =>
    if s.domRuns d = false ∧ (s.dom d).state ≠ .init then s
    else s.settleCmd (domPage d) (s.domChecks d q.code q.arg true).again (State.domEffect d)

/-- Issue a loop command. -/
def State.domCommand (s : State) (d : Nat) (m : Master) (code : Nat) : State :=
  let m := masterCode m
  s.onWrite (domPage d) m fun (s : State) =>
    let arg := s.arg (domPage d) m
    s.submit (domPage d) m code arg (s.domChecks d code arg false)

/-! ### Faults (R195) -/

/-- The first reaction to a fault of a domain page. -/
def State.domReact (s : State) (d bit : Nat) : State :=
  match bit with
  | 0 => s.setDom d fun x => { x with restage := true }
  | 2 =>
    let s := s.setDom d fun x => { x with i := x.yout * 16777216 }
    let x := s.dom d
    if x.sel.valid = true ∧ (x.state = .acquire ∨ x.state = .locked) then
      let s := (s.rebuild d x.xfb).setDom d fun x => { x with err := x.xfb - x.sel.xref }
      let s := s.acquire d x.yout
      if x.state = .locked then s.bump (domPage d) 0xA00 else s
    else s
  | 3 => s.setDom d fun x => { x with model := x.model.clear }
  | 4 | 5 => s.setDom d fun x => { x with open_ := true }
  | 8 | 9 => s.setSel d fun l => { l with hold := true }
  | 11 => s.setSel d fun l => { l with ensRestart := true }
  | _ => s

/-! ### The rows -/

/-- ENABLE of a domain. -/
def execDomEnable (d : Fin 12) (m : Master) (s : State) : Host.Outcome State Fault Refusal := finish (s.domCommand d m 1)

/-- DISABLE of a domain. -/
def execDomDisable (d : Fin 12) (m : Master) (s : State) : Host.Outcome State Fault Refusal := finish (s.domCommand d m 2)

/-- FORCE_HOLDOVER. -/
def execForceHoldover (d : Fin 12) (m : Master) (s : State) : Host.Outcome State Fault Refusal := finish (s.domCommand d m 3)

/-- RELEASE_HOLDOVER. -/
def execReleaseHoldover (d : Fin 12) (m : Master) (s : State) : Host.Outcome State Fault Refusal :=
  finish (s.domCommand d m 4)

/-- SLUICE_RESTART. -/
def execSluiceRestart (d : Fin 12) (m : Master) (s : State) : Host.Outcome State Fault Refusal := finish (s.domCommand d m 5)

/-- MODEL_RESET. -/
def execModelReset (d : Fin 12) (m : Master) (s : State) : Host.Outcome State Fault Refusal := finish (s.domCommand d m 6)

/-- MODEL_SAVE. -/
def execModelSave (d : Fin 12) (m : Master) (s : State) : Host.Outcome State Fault Refusal := finish (s.domCommand d m 7)

/-- The domain steers itself: enabled, not frozen, not following a partner. -/
def State.domLive (s : State) (d : Nat) : Bool := !s.isInit d && s.domRuns d && !s.standby

/-- LOCK_CRITERION: the domain becomes LOCKED. -/
def execLockCriterion (d : Fin 12) (s : State) : Host.Outcome State Fault Refusal :=
  finish (if s.domLive d = true ∧ (s.dom d).state = .acquire ∧ 10 * (s.dom d).err.natAbs ≤ s.lockPh d
      ∧ (s.dom d).sluClamp = false then (s.domTo d .locked).qlRound d else s)

/-- UNLOCK_CRITERION: the domain returns to ACQUIRE. -/
def execUnlockCriterion (d : Fin 12) (s : State) : Host.Outcome State Fault Refusal :=
  finish (if s.domLive d = true ∧ (s.dom d).state = .locked ∧ 4 * s.lockPh d < 10 * (s.dom d).err.natAbs then
    (s.loseLock d).qlRound d else s)

/-- HOLDOVER_LIMIT: the domain enters HOLDOVER_LIMITED. -/
def execHoldoverLimit (d : Fin 12) (s : State) : Host.Outcome State Fault Refusal :=
  finish (if s.domLive d = true ∧ (s.dom d).state = .holdover then (s.limitHoldover d).qlRound d else s)

/-- SLUICE_SEGMENT_END: the next segment begins. -/
def execSluiceSegmentEnd (d : Fin 12) (s : State) : Host.Outcome State Fault Refusal :=
  finish (if s.isInit d = false ∧ s.domRuns d = true ∧ s.sluDur d (s.dom d).seg ≠ 0 then s.sluNext d else s)

/-- MODEL_SAMPLE: the interval in progress ends. -/
def execModelSample (d : Fin 12) (s : State) : Host.Outcome State Fault Refusal :=
  finish (if s.isInit d = false ∧ s.domRuns d = true then s.modelSample d else s)

/-- DOM_FB_LOSS: the second round in a row without feedback. -/
def execDomFbLoss (d : Fin 12) (s : State) : Host.Outcome State Fault Refusal :=
  finish (if s.isInit d then s else (s.domReact d 4).raise (domPage d) 4)

/-- DOM_FB_RANGE: the eighth round in a row with the feedback frequency off by more than 1 ppm. -/
def execDomFbRange (d : Fin 12) (s : State) : Host.Outcome State Fault Refusal :=
  finish (if s.isInit d then s else (s.domReact d 5).raise (domPage d) 5)

/-- The variant that VAR_SEEN notes for the present round: bit 4 where the board runs nothing (R104, R296). -/
def State.varSeen (s : State) : Nat := if s.boardRuns then s.board.varNow else 4

/-- HARVEST_BOUNDARY: a 1 s boundary, the longer ones that fall with it, and the model records of a 900 s one. The round in
progress counts in the periods that open, with its variant. -/
def State.harvestBoundary (s : State) : State :=
  let q := s.harvest.b900.seq
  let s := (s.harvestLatch false).timAligned
  let s := s.setHarvest (Harvest.seeVariant s.varSeen)
  if s.harvest.b900.seq ≠ q then s.saveModels else s

/-- HARVEST_BOUNDARY. -/
def execHarvestBoundary (s : State) : Host.Outcome State Fault Refusal := finish s.harvestBoundary

end Sys2Proof.Machine
end

