-- ==== Sys2Proof/Machine/Service.lean ====
section
/-! DEFINITION. The packet ports and the time service engine (chapter 12): SyncE and ESMC, PTP masters and clients, unicast
grants, NTP and NTS, rate limits and the cap, the host frame queues, keys and the protocol controller. -/

namespace Sys2Proof.Machine

/-- Register pages TSVC and PORTS. -/
def tsvcPage : Nat := 0x0B
def portsPage : Nat := 0x0C

/-- Configuration of the TSVC page and of port `p`. -/
def State.scfg (s : State) (x : Nat) : Word := s.cfg tsvcPage x
def State.pcfg (s : State) (p x : Nat) : Word := s.cfg portsPage (0x80 * p + x)

/-- Counter `n` of TSVC, and counter `n` of port `p` (R362, R364). -/
def State.svcCount (s : State) (n : Nat) : State := s.bump tsvcPage (0xA00 + 8 * n)
def State.portCount (s : State) (p n : Nat) : State := s.bump portsPage (0xA00 + 0x40 * p + 8 * n)

/-- The service island runs. -/
def State.serviceOn (s : State) : Bool := !s.dormant && !s.fault.bist

/-- Port `p` can carry frames. -/
def State.portUp (s : State) (p : Nat) : Bool := s.serviceOn && (s.port p).linkUp

/-- The controller does the slow protocol work (R358). -/
def State.ctrlRuns (s : State) : Bool := s.serviceOn && s.svc.ctrl == .run

/-- The tag of the frames that port `p` sends (R336). -/
def State.sentTag (s : State) (p : Nat) : Option Nat :=
  if bit (s.pcfg p 0) 3 then some (bits (s.pcfg p 0xC) 11 0 + bits (s.pcfg p 0xC) 15 13 * 2 ^ 13) else none

/-- Hand a frame to the line of port `p`. -/
def State.send (s : State) (p : Nat) (f : Frame) : State :=
  (s.setPort p fun x => { x with lastTx := f, lastTag := s.sentTag p }).portCount p 1

/-! ### Stamps (R338) -/

/-- A value in ps as units of 2^-16 ns. -/
def unitsOfPs (ps : Int) : Int := roundDiv (ps * 65536) 1000

/-- T of time domain `t`, 2^-16 ns, at `at_` units of 2^-16 ns after the last round boundary. -/
def State.timeIn (s : State) (t : Nat) (at_ : Nat) : Int :=
  floorDiv (s.timeAt t (s.osc.bnd * finePeriod + 5 * (at_ : Nat))) 1280

/-- A receive stamp and a transmit stamp of port `p`, taken `at_` after the round boundary by the port's counter: the
factory latencies refer it to the balls, and the external delays to the far side of traces and modules. -/
def State.rxStamp (s : State) (p t at_ : Nat) : Int :=
  s.timeIn t at_ - unitsOfPs (s.port p).rxLat - unitsOfPs (signed 24 (bits (s.pcfg p 0x14) 23 0))
def State.txStamp (s : State) (p t at_ : Nat) : Int :=
  s.timeIn t at_ + unitsOfPs (s.port p).txLat + unitsOfPs (signed 24 (bits (s.pcfg p 0x10) 23 0))

/-! ### Links, SyncE and ESMC (R336, R337, R341, R342) -/

/-- The plan of the transmit synthesiser of port `p` fails: not 12.5 GHz within 1e-9. -/
def State.txPlanBad (s : State) (p : Nat) : Bool :=
  let k := bits (s.pcfg p 0) 7 4
  let f : Int := (s.syn k).plan.fvco
  let want : Int := 12500000000 * 2 ^ 48
  decide (k < 8) && decide (want < (f - want).natAbs * 1000000000)

/-- TX_HELD takes a value. -/
def State.setHeld (s : State) (p : Nat) (v : Bool) : State :=
  (s.eventIf ((s.port p).txHeld != v) portsPage (4 + p)).setPort p fun x => { x with txHeld := v }

/-- The transmit clock of port `p` in one round. -/
def State.txRound (s : State) (p : Nat) : State :=
  let k := bits (s.pcfg p 0) 7 4
  let bad := s.txPlanBad p
  let s := s.setPort p fun x => { x with cfgErr := bad }
  if 8 ≤ k then s.setHeld p false
  else if bad ∨ (s.syn k).state ≠ .locked then
    s.setHeld p true
  else if secondRounds ≤ (s.syn k).lockedFor then s.setHeld p false
  else s

/-- The SSM codes of an option by rank, best first (R124). -/
def ssmCodes (option2 : Bool) : List (Nat × Nat) :=
  if option2 then [(1, 0x1), (2, 0x0), (3, 0x7), (4, 0x4), (5, 0xD), (6, 0xA), (7, 0xC), (8, 0xE)]
  else [(1, 0x2), (3, 0x4), (5, 0x8), (7, 0xB)]

/-- The rank that port `p` carries: that of its domain, or 15 where it sends DNU or DUS whatever that is. -/
def State.esmcRank (s : State) (p : Nat) : Nat :=
  let d := bits (s.pcfg p 0x18) 4 1
  if s.domUses d (32 + p) ∨ (s.dom d).safe = true ∨ (s.port p).txHeld = true then 15 else (s.dom d).qlOut

/-- The SSM that port `p` carries. -/
def State.ssmOf (s : State) (p : Nat) : Nat :=
  match (ssmCodes (bit (s.pcfg p 0x18) 5)).find? fun c => decide (s.esmcRank p ≤ c.1) with
  | some c => c.2
  | none => 0xF

/-- The enhanced code for that rank. -/
def State.enhancedOf (s : State) (p : Nat) : Option Nat :=
  let w := s.pcfg p 0x18
  if bit w 6 then
    some (match s.esmcRank p with | 0 => 0x21 | 1 => 0x20 | 7 => 0x22 | _ => 0xFF)
  else none

/-- Port `p` sends ESMC. -/
def State.esmcOn (s : State) (p : Nat) : Bool :=
  let w := s.pcfg p 0x18
  bit w 0 && decide (bits w 4 1 < 12) && s.portUp p && s.ctrlRuns

/-- Send an ESMC PDU. -/
def State.sendEsmc (s : State) (p : Nat) (event : Bool) : State :=
  if s.esmcOn p then
    let v := s.ssmOf p
    (s.setPort p fun x => { x with ssm := v }).send p (.esmc v event (s.enhancedOf p))
  else s

/-- A link comes up or goes down. -/
def State.linkChange (s : State) (p : Nat) (up : Bool) : State :=
  let on := up && bit (s.pcfg p 0) 0 && s.serviceOn
  let fec := bit (s.pcfg p 0) 1 && bit (s.pcfg p 0) 2
  let s := s.eventIf ((s.port p).linkUp != on) portsPage p
  let s := if on ∧ (s.port p).linkUp = false then s.setQual (32 + p) fun q => { q with relock := true } else s
  s.setPort p fun x => { x with linkUp := on, cdrLock := on, fecLock := on && fec }

/-! ### PTP instances (R343) -/

/-- The profile and domain number of an instance are legal. -/
def ptpLegal (profile dom : Nat) : Bool :=
  if profile = 0 then decide (24 ≤ dom) && decide (dom ≤ 43)
  else decide (profile < 3) && decide (44 ≤ dom) && decide (dom ≤ 63)

def State.ccfg (s : State) (i : Nat) : Word := s.scfg (0x60 + 16 * i)
def State.mcfg (s : State) (p : Nat) : Word := s.scfg (0x50 + 4 * p)

/-- The client instance is active: enabled with a legal profile and domain number. -/
def State.clientActive (s : State) (i : Nat) : Bool :=
  let w := s.ccfg i
  bit w 0 && ptpLegal (bits w 4 3) (bits w 15 8)

def State.clientPort (s : State) (i : Nat) : Nat := bits (s.ccfg i) 2 1
def State.clientDom (s : State) (i : Nat) : Nat := bits (s.ccfg i) 6 5

/-- Change the state of a client: CLI_STATE_CHANGE. -/
def State.clientTo (s : State) (i : Nat) (st : PtpState) : State :=
  (s.eventIf ((s.client i).state != st) tsvcPage 2).setClient i fun c => { c with state := st }

/-- What a swap does to client `i`. -/
def State.clientSwap (old s : State) (i : Nat) : State :=
  let w := s.ccfg i
  let s := s.setClient i fun c => { c with cfgErr := bit w 0 && bits w 4 3 != 3 && !ptpLegal (bits w 4 3) (bits w 15 8) }
  if s.clientActive i = false then
    (s.clientTo i .disabled).setClient i fun c => { Client.zero with state := .disabled, cfgErr := c.cfgErr }
  else if (s.client i).state = .disabled ∨ bits (old.ccfg i) 15 0 ≠ bits w 15 0 then
    (s.clientTo i .listening).setClient i fun c => { Client.zero with state := .listening, cfgErr := c.cfgErr }
  else s

/-- Master `p` serves: active, its port not stopped, the role one that serves (R331, R366). -/
def State.masterServes (s : State) (p : Nat) : Bool :=
  let w := s.mcfg p
  bit w 0 && ptpLegal (bits w 2 1) (bits w 15 8) && s.portUp p && !(s.port p).svcStop && !s.standby

/-- Master `p` may send messages of time: not while its domain is in SAFE, where its grants are kept (R356). -/
def State.masterActive (s : State) (p : Nat) : Bool := s.masterServes p && !(s.dom (bits (s.mcfg p) 5 4)).safe

def State.masterDom (s : State) (p : Nat) : Nat := bits (s.mcfg p) 5 4

/-- Master `p` sends Announce and Sync: its domain enabled and valid (R344, R356). -/
def State.masterTimes (s : State) (p : Nat) : Bool :=
  s.masterActive p && !s.isInit (s.masterDom p) && (s.tdom (s.masterDom p)).valid

/-- CLASS_MAP of a rank. -/
def State.classMap (s : State) (r : Nat) : Nat :=
  nbits (s.scfg (0x18 + 4 * (r / 4))).toNat (8 * (r % 4) + 7) (8 * (r % 4))

/-- UTC day of T, with the leap flags of the armed day: LI 1 for 61 s, 2 for 59 s, 0 otherwise (R344, R348). -/
def State.leapFlag (s : State) (t : Nat) : Nat :=
  let w := s.dir 0x09 (leapReg t)
  let day := floorDiv (floorDiv (s.tdom t).t secUnits - s.utcOfs t) 86400
  if bit w 24 ∧ day = (bits w 23 0 : Nat) then (if bit w 25 then 2 else 1) else 0

/-- The Announce of master `p` (R344). -/
def State.announceOf (s : State) (p : Nat) : Announce :=
  let t := s.masterDom p
  let ql := (s.dom t).qlOut
  let cls := s.classMap ql
  let id := (s.scfg (0x30 + 8 * t)).toNat + (s.scfg (0x34 + 8 * t)).toNat * 2 ^ 32
  { entry := 0, priority1 := 128, priority2 := bits (s.mcfg p) 31 24, clockClass := cls
    accuracy := if cls = 6 then 0x21 else 0xFE, variance := if cls = 6 then 0x4E5D else 0xFFFF, identity := id
    stepsRemoved := 0, utcOfs := bits (s.dir 0x09 (utcReg t)) 15 0, utcValid := s.utcValid t
    leap61 := s.leapFlag t == 1, leap59 := s.leapFlag t == 2
    timeTraceable := (s.tdom t).valid && decide (ql ≤ 3), freqTraceable := decide (ql ≤ 5), ptpTimescale := true }

/-! ### Unicast grants (R345) -/

/-- Messages per second of a logInterMessagePeriod. -/
def ratePer (log : Int) : Nat := if log ≤ 0 then 2 ^ (-log).toNat else 0

/-- Event messages per second of a context. -/
def Grant.events (g : Grant) : Nat :=
  (if g.mask.testBit 0 then ratePer g.sync else 0) + (if g.mask.testBit 2 then ratePer g.dresp else 0)

/-- Event messages per second of all contexts. -/
def State.eventLoad (s : State) : Nat :=
  (s.svc.grants.map fun q => match q.2 with | some g => g.events | none => 0).sum

/-- The context of a client, and the lowest free one. -/
def State.ctxOf (s : State) (p : Nat) (q : Signal) : Option Nat :=
  (s.svc.grants.find? fun e => match e.2 with
    | some g => g.port == p && g.ipv6 == q.ipv6 && g.addr == q.addr.map BitVec.toNat
    | none => false).map (·.1)
def State.freeCtx (s : State) : Option Nat := (List.range 2048).find? fun c => (s.grant c).isNone

/-- Write a context; it is due in a mirror record. -/
def State.putGrant (s : State) (c : Nat) (g : Grant) : State :=
  (s.setGrant c (some { g with changed := some s.svc.change })).setSvc fun v => { v with
    change := v.change + 1, freed := v.freed.filter fun q => q.2 != c }

/-- Free a context: that is a change as well, which a mirror record reports (R317). -/
def State.freeGrant (s : State) (c : Nat) : State :=
  (s.setGrant c none).setSvc fun v => { v with
    change := v.change + 1, freed := (v.freed.filter fun q => q.2 != c) ++ [(v.change, c)] }

/-- GRANT_MAX as used. -/
def State.grantMax (s : State) : Nat := clamp (bits (s.scfg 0) 31 16) 60 1000

/-- A message type joins a context. -/
def Grant.withKind (g : Grant) (kind : Nat) (log : Int) (secs : Nat) : Grant :=
  { g with
    sync := if kind = 0 then log else g.sync, announce := if kind = 1 then log else g.announce
    dresp := if kind = 2 then log else g.dresp, mask := g.mask.lor (2 ^ kind), secs }

/-- The rate asked for is one that the profile grants. -/
def rateLegal (kind : Nat) (log : Int) : Bool := decide (log ≤ 0) && (if kind = 1 then decide (-3 ≤ log) else decide (-7 ≤ log))

/-- A request or cancel of one message type. -/
def State.signal (s : State) (p : Nat) (q : Signal) : State :=
  let prof := bits (s.mcfg p) 2 1
  if s.masterServes p = false ∨ s.ctrlRuns = false ∨ prof ≠ (if q.ipv6 then 2 else 1) then s
  else if q.cancel then
    match s.ctxOf p q with
    | some c =>
      match s.grant c with
      | some g => s.putGrant c { g with mask := g.mask.land (7 - 2 ^ q.kind.val) }
      | none => s
    | none => s
  else
    let deny (s : State) : State := (s.svcCount 13).send p (.grant q.kind q.log 0)
    match (match s.ctxOf p q with | some c => some c | none => s.freeCtx) with
    | none => deny s
    | some c =>
      let old := match s.grant c with
        | some g => g
        | none => { port := p, ipv6 := q.ipv6, addr := q.addr.map BitVec.toNat, sync := 0, announce := 0, dresp := 0
                    mask := 0, secs := 0, seqSync := 0, seqAnn := 0, changed := none }
      let secs := min q.duration s.grantMax
      let g := old.withKind q.kind q.log secs
      if rateLegal q.kind q.log = false ∨ secs = 0 ∨ 128 < g.events ∨ 262144 < s.eventLoad - old.events + g.events then deny s
      else ((s.putGrant c g).svcCount 12).send p (.grant q.kind q.log secs)

/-- An expired or cancelled context is freed. -/
def State.sweepGrants (s : State) : State :=
  (s.svc.grants.map (·.1)).foldl (fun (s : State) c =>
    match s.grant c with
    | some g => if g.mask = 0 ∨ g.secs = 0 then s.freeGrant c else s
    | none => s) s

/-- One second passes for every context. -/
def State.ageGrants (s : State) : State :=
  (s.svc.grants.map (·.1)).foldl (fun (s : State) c =>
    s.setGrant c ((s.grant c).map fun g => { g with secs := g.secs - 1 })) s

/-! ### Masters (R343, R344) -/

/-- The context of a unicast message has been granted its type. -/
def State.granted (s : State) (p kind : Nat) (ctx : Option Nat) : Bool :=
  match ctx with
  | none => bits (s.mcfg p) 2 1 == 0
  | some c =>
    bits (s.mcfg p) 2 1 != 0
      && match s.grant c with | some g => g.port == p && g.mask.testBit kind | none => false

/-- The sequence number of the next Sync or Announce, and its advance. -/
def State.nextSeq (s : State) (p : Nat) (ctx : Option Nat) (ann : Bool) : Nat × State :=
  match ctx with
  | none =>
    let x := s.port p
    if ann then (x.seqAnn, s.setPort p fun x => { x with seqAnn := (x.seqAnn + 1) % 65536 })
    else (x.seqSync, s.setPort p fun x => { x with seqSync := (x.seqSync + 1) % 65536 })
  | some c =>
    match s.grant c with
    | some g =>
      if ann then (g.seqAnn, s.setGrant c (some { g with seqAnn := (g.seqAnn + 1) % 65536 }))
      else (g.seqSync, s.setGrant c (some { g with seqSync := (g.seqSync + 1) % 65536 }))
    | none => (0, s)

/-- Send a Sync, and with TWO_STEP its Follow_Up. -/
def State.sendSync (s : State) (p : Nat) (ctx : Option Nat) (at_ : Nat) : State :=
  if s.masterTimes p = true ∧ s.granted p 0 ctx = true then
    let (n, s) := s.nextSeq p ctx false
    let t := s.txStamp p (s.masterDom p) at_
    let s := s.svcCount 14
    if bit (s.mcfg p) 3 then (s.send p (.sync n none)).send p (.followUp n t) else s.send p (.sync n (some t))
  else s

/-- Send an Announce. -/
def State.sendAnnounce (s : State) (p : Nat) (ctx : Option Nat) : State :=
  if s.masterTimes p = true ∧ s.ctrlRuns = true ∧ s.granted p 1 ctx = true then
    let (n, s) := s.nextSeq p ctx true
    s.send p (.announce n (s.announceOf p))
  else s

/-- Answer a Delay_Req. -/
def State.answerDelay (s : State) (p : Nat) (ctx : Option Nat) (m : PtpEvent) : State :=
  let s := if s.portUp p then (s.svcCount 15).portCount p 0 else s
  if s.masterActive p = true ∧ s.granted p 2 ctx = true then
    s.send p (.delayResp m.seq (s.rxStamp p (s.masterDom p) m.at_) m.correction)
  else s

/-! ### Clients (R346, R347) -/

/-- A Sync is received. -/
def State.clientSync (s : State) (i : Nat) (m : PtpEvent) : State :=
  if s.clientReceives i = true ∧ s.serviceOn = true then
    let p := s.clientPort i
    let t2 := s.rxStamp p (s.clientDom i) m.at_
    ((s.svcCount 15).portCount p 0).setClient i fun c => { c with
      syncSeq := m.seq, t1 := m.origin, t2, cfSync := m.correction }
  else s

/-- A Follow_Up completes the two-step Sync of its sequence number, and an exchange that was paired with it. -/
def State.clientFollow (s : State) (i seq : Nat) (origin cor : Int) : State :=
  let c := s.client i
  if s.clientReceives i = true ∧ s.serviceOn = true ∧ c.syncSeq = seq ∧ c.t1 = none then
    s.setClient i fun c => { c with
      t1 := some origin, cfSync := c.cfSync + cor
      req := c.req.map fun r => if r.2.1 = none ∧ r.2.2.1 = c.t2 then (r.1, some origin, r.2.2.1, r.2.2.2.1 + cor, r.2.2.2.2) else r }
  else s

/-- A Delay_Req leaves, paired with the last Sync. -/
def State.clientRequest (s : State) (i : Nat) (at_ : Nat) : State :=
  if s.clientReceives i = true ∧ s.serviceOn = true then
    let p := s.clientPort i
    let c := s.client i
    let t3 := s.txStamp p (s.clientDom i) at_
    let s := (s.svcCount 14).send p (.delayReq c.reqSeq)
    s.setClient i fun c => { c with
      req := some (c.reqSeq, c.t1, c.t2, c.cfSync, t3), reqSeq := (c.reqSeq + 1) % 65536 }
  else s

/-- CLIENT_ASYM in 2^-16 ns. -/
def State.clientAsym (s : State) (i : Nat) : Int := unitsOfPs (sregister (s.scfg (0x64 + 16 * i)))

/-- A Delay_Resp completes the exchange of its sequence number. -/
def State.clientResponse (s : State) (i seq : Nat) (t4 cor : Int) : State :=
  if s.clientReceives i = true ∧ s.serviceOn = true then
    match (s.client i).req with
    | some (n, some t1, t2, cf, t3) =>
      if n = seq then
        let ms := t2 - t1 - cf
        let sm := t4 - t3 - cor
        let a := s.clientAsym i
        s.setClient i fun c => { c with req := none, done := c.done ++ [(floorDiv (ms - sm) 2 - a, ms + sm)] }
      else s
    | _ => s
  else s

/-- Insert an exchange behind those of the same or a shorter round trip. -/
def putExchange : List (Int × Int) → Int × Int → List (Int × Int)
  | [], e => [e]
  | h :: t, e => if e.2 < h.2 then e :: h :: t else h :: putExchange t e

/-- The filtered offset of K exchanges, of which `sel8` eighths count. -/
def filteredOffset (sel8 : Nat) (l : List (Int × Int)) : Int :=
  let keep := (l.length * sel8 + 7) / 8
  let best := (l.foldl putExchange []).take keep
  roundDiv (isum (best.map (·.1))) keep

/-- The sample interval in 2^-16 ns. -/
def State.sampleUnits (s : State) (i : Nat) : Int :=
  let k := s.sampleLog i
  if 0 ≤ k then 65536000000000 * 2 ^ k.toNat else 65536000000000 / 2 ^ (-k).toNat

/-- The sample interval of client `i` ends. -/
def State.clientSample (s : State) (i : Nat) : State :=
  let c := s.client i
  let n := c.done.length
  let s := s.setClient i fun c => { c with exchanges := min n 255, done := [] }
  if s.clientReceives i = false ∨ n = 0 then s
  else
    let k := bits (s.ccfg i) 23 20
    let o := filteredOffset (if k = 0 then 1 else min k 8) c.done
    let iv := s.sampleUnits i
    let x := o - iv * floorDiv (2 * o + iv) (2 * iv)
    let was := c.state
    let s := (s.clientTo i .slave).setClient i fun c => { c with
      fullOfs := o, samples := if was = .slave then c.samples + 1 else 1 }
    let s := s.setQual (36 + i) fun q => { q with samples := q.samples ++ [5 * x] }
    (List.range 4).foldl (fun (s : State) t =>
      if s.tsrc t = 1 ∧ bits (s.tcfg t) 9 8 = i ∧ s.isInit t = false then s.srcCompare t (1280 * o - s.stepOfs t) else s) s

/-- The order of the alternate BMCA: class, accuracy, variance, priority2, localPriority, identity, steps (PRESUMED). -/
def bmcaKey (lp : Nat) (a : Announce) : List Nat :=
  [a.clockClass, a.accuracy, a.variance, a.priority2, lp, a.identity, a.stepsRemoved]

/-- `a` comes before `b`. -/
def listLess : List Nat → List Nat → Bool
  | a :: s, b :: t => decide (a < b) || (a == b && listLess s t)
  | _, _ => false

/-- localPriority of an entry of the master table. -/
def State.localPrio (s : State) (i e : Nat) : Nat :=
  let w := s.scfg (0x68 + 16 * i)
  if e = 0 then bits w 7 0 else bits w 15 8

/-- The best master heard. -/
def State.bestMaster (s : State) (i : Nat) : Option Announce :=
  (s.client i).heard.foldl (fun (b : Option Announce) a =>
    match b with
    | none => some a
    | some x =>
      if listLess (bmcaKey (s.localPrio i a.entry) a) (bmcaKey (s.localPrio i x.entry) x) then some a else some x) none

/-- A client hears an Announce: BMCA; a new parent makes it UNCALIBRATED. -/
def State.clientAnnounce (s : State) (i : Nat) (a : Announce) : State :=
  let w := s.ccfg i
  let p := s.clientPort i
  let known := bits w 4 3 == 0 || (decide (a.entry < 2) && bit (s.scfg (0x68 + 16 * i)) (16 + a.entry))
  if s.clientActive i = false ∨ s.portUp p = false ∨ (s.port p).svcStop = true ∨ s.ctrlRuns = false ∨ known = false then s
  else
    let s := (s.portCount p 0).setClient i fun c => { c with heard := (c.heard.filter fun b => b.entry != a.entry) ++ [a] }
    match s.bestMaster i with
    | none => s
    | some b =>
      let same := match (s.client i).parent with | some q => q.entry == b.entry && q.identity == b.identity | none => false
      let s := (s.setClient i fun c => { c with parent := some b }).setQual (36 + i) fun q => { q with
        qlRx := b.clockClass, qlEnh := false }
      if same then s
      else (s.clientTo i .uncalibrated).setClient i fun c => { c with
        samples := 0, t1 := none, req := none, done := [] }

/-- Announce receipt timeout: LISTENING, and ACTIVITY of the candidate fails (R118, R347). -/
def State.clientTimeout (s : State) (i : Nat) : State :=
  if s.clientActive i then
    let s := (s.clientTo i .listening).setClient i fun c => { c with
      parent := none, heard := [], samples := 0, t1 := none, req := none, done := [] }
    s.setQual (36 + i) fun q => { q with actFail := true, actRun := 0 }
  else s

/-! ### NTP (R348, R349, R353, R354) -/

/-- T in 2^-16 ns as an NTP timestamp of the UTC view; past a leap that acts before the next boundary the view has taken
it (R242, R349). -/
def State.ntpStamp (s : State) (t : Nat) (v : Int) : Nat :=
  let sec := floorDiv v 65536000000000
  let sub := v - sec * 65536000000000
  let leap : Int := if s.leapAhead t (1280 * v) then (if bit (s.dir 0x09 (leapReg t)) 25 then -1 else 1) else 0
  let utc := (sec - s.utcOfs t - leap + 2208988800) % 4294967296
  ((utc * 4294967296 + roundDiv (sub * 65536) 1000000000) % 2 ^ 64).toNat

/-- LAUNCH_LAT in 2^-16 ns. -/
def State.launchLat (s : State) : Int := (clamp (bits (s.scfg 0x14) 6 0) 4 64 : Nat) * 65536000

/-- LI of the served domain. -/
def State.ntpLeap (s : State) (p t : Nat) : Nat :=
  let d := s.dom t
  if d.state = .init ∨ d.safe = true ∨ (s.tdom t).valid = false ∨ d.qlOut = 15 ∨ (s.port p).svcStop = true then 3
  else s.leapFlag t

/-- The response to a request received at `at_` on port `p` (R348). -/
def State.ntpReply (s : State) (p : Nat) (q : NtpReq) : NtpReply × Int :=
  let t := bits (s.scfg 0) 3 2
  let w := s.scfg 4
  let d := s.dom t
  let li := s.ntpLeap p t
  let deg := bits w 11 8
  let hold := if d.holding then d.hoSeconds * bits (s.scfg 0xC) 31 16 else 0
  let rx := s.rxStamp p t q.at_
  let launch := rx + s.launchLat
  ({ leap := li, version := q.version
     stratum := if li = 3 then 0 else if d.qlOut ≤ bits w 3 0 then 1 else if deg < 2 then 2 else deg
     poll := max q.poll (bits w 23 16), precision := bits w 31 24, rootDelay := 0
     rootDispersion := ((bits (s.scfg 0xC) 15 0 * 1000 + hold) * 65536 + 999999999) / 1000000000
     refId := (s.scfg 8).toNat, reference := s.ntpStamp t ((s.tdom t).lockedSec * 65536000000000)
     origin := q.transmit, receive := s.ntpStamp t rx, transmit := s.ntpStamp t launch }, launch)

/-- A request that reaches the responder: its port answers NTP. -/
def State.ntpReaches (s : State) (p : Nat) : Bool := s.portUp p && (bits (s.scfg 0) 11 8).testBit p

/-- The request is malformed, or of a mode or version that is not answered. -/
def State.ntpMalformed (s : State) (q : NtpReq) : Bool :=
  q.mode != 3 || decide (q.len < 48) || !q.extOk || !(q.version == 4 || (q.version == 3 && bit (s.scfg 0) 4))

/-- The bucket of a request's source: the IPv4 address, or the IPv6 /64 prefix (R353). -/
def State.bucketOf (s : State) (q : NtpReq) : Nat :=
  Config.bucketHash s.svc.hashKey ((if q.ipv6 then q.src.take 8 else q.src).map BitVec.toNat) % 1048576

def State.bucket (s : State) (b : Nat) : Nat := tget (fun _ => 0) s.svc.buckets b
def State.setBucket (s : State) (b v : Nat) : State :=
  s.setSvc fun x => { x with buckets := tput (fun _ => 0) x.buckets b v }

/-- RL_BURST as used. -/
def State.rlBurst (s : State) : Nat := max 1 (bits (s.scfg 0x10) 23 16)

/-- Count a request in its bucket; the request found it at or above RL_BURST. -/
def State.rateLimit (s : State) (q : NtpReq) : Bool × State :=
  if bit (s.scfg 0x10) 0 then
    let b := s.bucketOf q
    let v := s.bucket b
    (decide (s.rlBurst ≤ v), s.setBucket b (min (v + 1) 255))
  else (false, s)

/-- The cap of the round in effect. -/
def State.capNow (s : State) : Nat := min s.svc.cap 1500

/-- `n` units of the cap: `none` when the request must be discarded (R354). -/
def State.takeCap (s : State) (n : Nat) : Option State :=
  if s.capNow < s.svc.used + n then none
  else some (s.setSvc fun v => { v with used := v.used + n })

/-- A request beyond the cap. -/
def State.capDrop (s : State) : State :=
  let s := s.eventIf (!s.svc.capHit) tsvcPage 4
  (s.svcCount 8).setSvc fun v => { v with capHit := true }

/-- A finished response waits for its launch instant. -/
def State.queueLaunch (s : State) (r : Response) (onTime : Bool) : State :=
  if onTime then s.setSvc fun v => { v with launch := v.launch ++ [r] } else s.svcCount 9

/-- A plain request. -/
def State.ntpAnswer (s : State) (p : Nat) (q : NtpReq) : State :=
  if s.ntpReaches p = false then s
  else
    let s := (s.svcCount 0).portCount p 0
    if s.standby = true ∧ bit (s.cfg 0x07 0) 7 = false then s.svcCount 10
    else if s.ntpMalformed q then s.svcCount 11
    else if bit (s.scfg 0) 0 = false then s
    else
      let (above, s) := s.rateLimit q
      if above then
        if bit (s.scfg 0x10) 1 then (s.svcCount 6).send p (.rate q.transmit) else s.svcCount 7
      else
        match s.takeCap 1 with
        | none => s.capDrop
        | some s =>
          let (r, launch) := s.ntpReply p q
          s.queueLaunch { port := p, launch, frame := .ntp r, nts := false } q.onTime

/-! ### NTS (R350, R351) -/

/-- The valid key slot with a key ID. -/
def State.slotOfKey (s : State) (id : Nat) : Option Nat :=
  (List.range 4).find? fun k => (s.keySlot k).valid && (s.keySlot k).id == id

/-- A cookie opened: C2S and S2C. -/
def State.openCookie (s : State) (c : List Nat) : Option (List Nat × List Nat) :=
  match s.slotOfKey (beNat (c.take 4)) with
  | none => none
  | some k =>
    match Config.sivOpen (s.keySlot k).key (c.take 20) (c.drop 20) with
    | none => none
    | some pt =>
      if c.length = 104 ∧ pt.length = 68 ∧ beNat (pt.take 2) = 0x000F ∧ (pt[2]?).getD 0 = 1 then
        some (slice pt 4 32, slice pt 36 32)
      else none

/-- A new cookie under the current slot. -/
def State.newCookie (s : State) (c2s s2c : List Nat) : List Nat × State :=
  let k := s.keySlot s.svc.keyCur
  let rnd := (Config.freeInt 2 s.free % 2 ^ 64).toNat
  let n := (s.svc.nonce + 1) % 2 ^ 64
  let head := beBytes 4 k.id ++ beBytes 8 rnd ++ beBytes 8 n
  (head ++ Config.sivSeal k.key head ([0x00, 0x0F, 0x01, 0x00] ++ c2s ++ s2c), s.nextFree.setSvc fun v => { v with nonce := n })

/-- `n` new cookies. -/
def State.newCookies (c2s s2c : List Nat) : Nat → State → List Nat × State
  | 0, s => ([], s)
  | n + 1, s =>
    let (c, s) := s.newCookie c2s s2c
    let (r, s) := State.newCookies c2s s2c n s
    (c ++ r, s)

/-- An NTS request. -/
def State.ntsAnswer (s : State) (p : Nat) (q : NtpReq) (n : NtsFields) : State :=
  if s.ntpReaches p = false then s
  else
    let nat (l : List Byte) : List Nat := l.map BitVec.toNat
    let uid := nat n.uid
    let s := (s.svcCount 2).portCount p 0
    if s.standby = true ∧ bit (s.cfg 0x07 0) 7 = false then s.svcCount 10
    else if s.ntpMalformed q = true ∨ 7 < n.placeholders then s.svcCount 11
    else
      let (above, s) := s.rateLimit q
      if above then s.svcCount 7
      else
        match s.takeCap 3 with
        | none => s.capDrop
        | some s =>
          let nak (s : State) : State := (s.svcCount 4).send p (.ntsNak uid)
          if bit (s.scfg 0) 1 = false then nak s
          else
            match s.openCookie (nat n.cookie) with
            | none => nak s
            | some (c2s, s2c) =>
              match Config.sivOpen c2s (nat n.covered ++ nat n.nonce) (nat n.sealed) with
              | none => s.svcCount 5
              | some _ =>
                let (r, launch) := s.ntpReply p q
                let (cookies, s) := State.newCookies c2s s2c (1 + n.placeholders) s
                let auth := Config.sivSeal s2c uid cookies
                s.queueLaunch { port := p, launch, frame := .nts r uid auth, nts := true } q.onTime

/-- The response of the launch queue whose instant comes first. -/
def firstLaunch (l : List Response) : Option Response :=
  l.foldl (fun (b : Option Response) r =>
    match b with
    | none => some r
    | some x => if r.launch < x.launch then some r else some x) none

/-- A response leaves, or is dropped where its port cannot start it (R349). -/
def State.launch (s : State) : State :=
  match firstLaunch s.svc.launch with
  | none => s
  | some r =>
    let s := s.setSvc fun v => { v with launch := v.launch.erase r }
    if s.portUp r.port then (s.send r.port r.frame).svcCount (if r.nts then 3 else 1) else s.svcCount 9

/-- Launch what is due by a boundary. -/
def State.launchDue : Nat → State → State
  | 0, s => s
  | k + 1, s =>
    match firstLaunch s.svc.launch with
    | none => s
    | some r => if 1280 * r.launch ≤ (s.tdom (bits (s.scfg 0) 3 2)).t then State.launchDue k s.launch else s

/-- Every bucket falls by one (R353). -/
def State.decayBuckets (s : State) : State :=
  (s.svc.buckets.map (·.1)).foldl (fun (s : State) b => s.setBucket b (s.bucket b - 1)) s

/-! ### Addresses (R339, R357) -/

/-- Addresses of port `p` whose flags pass: (IPv6, bytes, service). -/
def State.addresses (s : State) (p : Nat) : List (Bool × List Nat × Bool) :=
  let w := s.pcfg p 0x1C
  let v4 (k : Nat) : List Nat := beBytes 4 (s.pcfg p (0x20 + 4 * k)).toNat
  let v6 (k : Nat) : List Nat := (List.range 4).flatMap fun i => beBytes 4 (s.pcfg p (0x30 + 16 * k + 4 * i)).toNat
  [(0, false, v4 0), (1, false, v4 1), (2, true, v6 0), (3, true, v6 1)].filterMap fun a =>
    if bit w a.1 then some (a.2.1, a.2.2, bit w (8 + a.1)) else none

/-- The device serves its service addresses (R357). -/
def State.serving (s : State) : Bool := !s.standby

/-- An ARP request or Neighbor Solicitation for an address that the controller answers. -/
def State.answersFor (s : State) (p : Nat) (ipv6 : Bool) (target : List Nat) : Bool :=
  (s.addresses p).any fun a => a.1 == ipv6 && a.2.1 == target && (!a.2.2 || s.serving)

/-- Announce the service addresses of every port. -/
def State.announceAddresses (s : State) : State :=
  (List.range 4).foldl (fun (s : State) p =>
    if s.portUp p then
      ((s.addresses p).filter fun a => a.2.2).foldl (fun (s : State) a => s.send p (.gratuitous a.2.1)) s
    else s) s

/-- The gratuitous announcement that is due: at once, then 1 s and 2 s later. -/
def State.garpRound (s : State) : State :=
  match s.svc.garp with
  | none => s
  | some (0, n) =>
    if s.ctrlRuns ∧ s.serving then
      s.announceAddresses.setSvc fun v => { v with garp := if n ≤ 1 then none else some (secondRounds - 1, n - 1) }
    else s
  | some (k + 1, n) => s.setSvc fun v => { v with garp := some (k, n) }

/-! ### Host frames (R339, R340) -/

/-- Bytes held by the receive queue, and free bytes of the transmit queue. -/
def State.rxBytes (s : State) : Nat := (s.svc.rx.map fun f => f.2.length).sum
def State.txFree (s : State) : Nat :=
  16384 - (s.svc.txQueue.map fun f => f.2.length).sum - (match s.svc.tx with | some (_, _, b, _) => b.length | none => 0)

/-- A frame for the host joins the receive queue, or finds too little room. -/
def State.toHost (s : State) (p : Nat) (bs : List Nat) : State :=
  if s.rxBytes + bs.length ≤ 65536 then
    ((s.setSvc fun v => { v with rx := v.rx ++ [(p, bs)] }).portCount p 5).event portsPage 8
  else s.portCount p 6

/-- The frame without its VLAN tag, when it has the tags that R336 accepts. -/
def State.untag (s : State) (p : Nat) (bs : List Nat) : Option (List Nat) :=
  let tagged := decide (slice bs 12 2 = [0x81, 0x00])
  if bit (s.pcfg p 0) 3 then
    (if tagged && beNat (slice bs 14 2) % 4096 == bits (s.pcfg p 0xC) 11 0 && slice bs 16 2 != [0x81, 0x00] then some (bs.take 12 ++ bs.drop 16) else none)
  else if tagged then none else some bs

/-- The destination MAC is the port's, broadcast or multicast. -/
def State.macOk (s : State) (p : Nat) (bs : List Nat) : Bool :=
  let own := beBytes 6 ((s.pcfg p 4).toNat + bits (s.pcfg p 8) 15 0 * 2 ^ 32)
  bs.take 6 == own || (bs[0]?).getD 0 % 2 == 1

/-- UDP destination and IP destination of an untagged frame, with the payload: (IPv6, address, port, payload). -/
def udpTarget (f : List Nat) : Option (Bool × List Nat × Nat × List Nat) :=
  let ip := f.drop 14
  if slice f 12 2 = [0x08, 0x00] ∧ (ip[9]?).getD 0 = 17 then
    let n := (ip[0]?).getD 0 % 16 * 4
    some (false, slice ip 16 4, beNat (slice ip (n + 2) 2), ip.drop (n + 8))
  else if slice f 12 2 = [0x86, 0xDD] ∧ (ip[6]?).getD 0 = 17 then
    some (true, slice ip 24 16, beNat (slice ip 42 2), ip.drop 48)
  else none

/-- A PTP message for the engine or the controller: any but management, and signalling whose first TLV is of unicast
negotiation. -/
def ptpServed (m : List Nat) : Bool :=
  let ty := (m[0]?).getD 0 % 16
  ty != 0xD && (ty != 0xC || (let k := beNat (slice m 44 2); decide (4 ≤ k) && decide (k ≤ 7)))

/-- The engine or the controller takes the frame (R339). -/
def State.consumes (s : State) (p : Nat) (f : List Nat) : Bool :=
  let ty := slice f 12 2
  let g82751 := (bit (s.mcfg p) 0 && bits (s.mcfg p) 2 1 == 0)
    || (List.range 4).any fun i => bit (s.ccfg i) 0 && s.clientPort i == p && bits (s.ccfg i) 4 3 == 0
  let esmc := ty == [0x88, 0x09] && (f[14]?).getD 0 == 0x0A
  let ptp := ty == [0x88, 0xF7] && g82751
    && (f.take 6 == [0x01, 0x1B, 0x19, 0, 0, 0] || f.take 6 == [0x01, 0x80, 0xC2, 0, 0, 0x0E])
  let arp := ty == [0x08, 0x06] && slice f 20 2 == [0, 1] && s.answersFor p false (slice f 38 4)
  let ns := ty == [0x86, 0xDD] && (f[20]?).getD 0 == 58 && (f[54]?).getD 0 == 135 && s.answersFor p true (slice f 62 16)
  let udp := match udpTarget f with
    | some (v6, a, port, m) =>
      ((s.addresses p).any fun x => x.1 == v6 && x.2.1 == a)
        && (((port == 319 || port == 320) && ptpServed m) || (port == 123 && (bits (s.scfg 0) 11 8).testBit p))
    | none => false
  esmc || ptp || arp || ns || udp

/-- Management and other signalling to a port address, which the row of UDP 319 and 320 sends to the host; of the rows of
R339 only the last asks for HOST_EN (log entry 43). -/
def State.ptpForHost (s : State) (p : Nat) (f : List Nat) : Bool :=
  match udpTarget f with
  | some (v6, a, port, m) =>
    ((s.addresses p).any fun x => x.1 == v6 && x.2.1 == a) && (port == 319 || port == 320) && !ptpServed m
  | none => false

/-- A frame arrives on port `p`. -/
def State.frameIn (s : State) (p : Nat) (fcsOk : Bool) (bs : List Nat) : State :=
  if s.portUp p = false then s
  else if fcsOk = false then s.portCount p 2
  else
    let s := s.portCount p 0
    match s.untag p bs with
    | none => s.portCount p 7
    | some f =>
      if s.macOk p f = false then s.portCount p 7
      else if s.consumes p f then s
      else if s.ptpForHost p f || bit (s.pcfg p 0) 8 then s.toHost p bs
      else s.portCount p 7

/-- A read of HQ_RX_DATA: the word, and the place in the head frame after it. -/
def State.readRx (s : State) : Word × State :=
  match s.svc.rx with
  | (_, bs) :: _ =>
    let i := 4 * s.svc.rxWord
    let b := slice bs i 4
    (word (beNat (b ++ List.replicate (4 - b.length) 0)), s.setSvc fun v => { v with rxWord := v.rxWord + 1 })
  | [] => (0, s)

/-- HQ_RX_STATUS. -/
def State.rxStatus (s : State) : Word :=
  match s.svc.rx with
  | (p, bs) :: _ => word (bs.length % 2048 + p * 4096 + s.svc.rx.length % 65536 * 65536)
  | [] => 0

/-- HQ_RX_POP. -/
def State.popRx (s : State) (v : Word) : State :=
  if bit v 0 then s.setSvc fun x => { x with rx := x.rx.drop 1, rxWord := 0 } else s

/-- HQ_TX_CTRL: a new frame; a length outside its range starts none. -/
def State.startTx (s : State) (v : Word) : State :=
  let n := bits v 10 0
  let p := bits v 13 12
  let top := if bit (s.pcfg p 0) 3 then 1522 else 1518
  s.setSvc fun x => { x with tx := if 60 ≤ n ∧ n ≤ top then some (n, p, [], false) else none }

/-- HQ_TX_DATA: the next four bytes; the last word queues the frame, unless a word found no room. -/
def State.writeTx (s : State) (v : Word) : State :=
  match s.svc.tx with
  | none => s
  | some (n, p, bs, lost) =>
    let free := s.txFree
    let need := min 4 (n - bs.length)
    let lost := lost || decide (free < need)
    let bs := (bs ++ beBytes 4 v.toNat).take n
    if bs.length < n then s.setSvc fun x => { x with tx := some (n, p, bs, lost) }
    else s.setSvc fun x => { x with tx := none, txQueue := if lost then x.txQueue else x.txQueue ++ [(p, bs)] }

/-- Queued host frames leave. -/
def State.drainTx (s : State) : State :=
  let l := s.svc.txQueue
  let s := s.setSvc fun x => { x with txQueue := l.filter fun f => !s.portUp f.1 }
  l.foldl (fun (s : State) f => if s.portUp f.1 then s.send f.1 (.host f.2) else s) s

/-! ### The controller (R358, R366) -/

/-- Rounds of a controller restart, and of the 60 s that its watchdog looks back. -/
def restartRounds : Nat := 400
def watchRounds : Nat := 480000

/-- The controller restarts. -/
def State.ctrlRestart (s : State) : State :=
  (s.setSvc fun v => { v with ctrl := .restart, restartLeft := restartRounds }).event tsvcPage 5

/-- The watchdog's reaction: a restart, or FAILED after three of them within 60 s. -/
def State.ctrlWatchdog (s : State) : State :=
  let recent := s.svc.restarts.filter (· < watchRounds)
  if 3 ≤ recent.length then s.setSvc fun v => { v with ctrl := .failed, restarts := recent }
  else (s.setSvc fun v => { v with restarts := 0 :: recent }).ctrlRestart

/-- A restart ends. -/
def State.ctrlUp (s : State) : State :=
  if s.svc.ctrl = .restart then s.setSvc fun v => { v with ctrl := .run, restartLeft := 0 } else s

/-! ### Commands (R360, R361) -/

/-- KEY_DATA is cleared. -/
def State.clearKeyData (s : State) : State := s.setSvc fun v => { v with keyData := [] }

/-- Refusals of a TSVC command. -/
def State.tsvcChecks (s : State) (code : Nat) (arg : Word) (again : Bool) : Checks :=
  let k := bits arg 1 0
  let busy := s.busy tsvcPage && !again
  let lock := (s.page tsvcPage).lockCmd
  let id := (s.dir tsvcPage 0x914).toNat
  match code with
  | 1 =>
    { arg := id == 0 || (List.range 4).any fun j => j != k && (s.keySlot j).valid && (s.keySlot j).id == id
      busy, lock, state := s.svc.keyCur == k }
  | 2 => { busy, lock, role := s.standby, state := !(s.keySlot k).valid }
  | 3 => { busy, lock, state := !(s.keySlot k).valid || s.svc.keyCur == k }
  | 4 =>
    { arg := arg.toNat % 4096 != 0, busy := busy || (s.svc.fwBusy && !again), lock
      role := s.pair.role == .active && s.pair.bound, state := !(s.svc.ctrl == .run || s.svc.ctrl == .failed) }
  | 5 => { busy, lock }
  | _ => { arg := true }

/-- The key in KEY_DATA: byte 4w is bits [31:24] of word w. -/
def State.keyBytes (s : State) : List Nat :=
  (List.range 8).flatMap fun w => beBytes 4 (tget (fun _ => (0 : Word)) s.svc.keyData w).toNat

def State.setKey (s : State) (k : Nat) (v : KeySlot) : State :=
  s.setSvc fun x => { x with keys := tput (fun _ => KeySlot.zero) x.keys k v }

/-- The effect of a TSVC command at its boundary. -/
def State.tsvcEffect (q : CmdPend) (s : State) : State :=
  let k := bits q.arg 1 0
  match q.code with
  | 1 =>
    ((s.setKey k { valid := true, id := (s.dir tsvcPage 0x914).toNat, key := s.keyBytes }).clearKeyData).event tsvcPage 0
  | 2 => ((s.makeCurrent k).setSvc fun v => { v with keyMismatch := false }).event tsvcPage 0
  | 3 => (s.setKey k KeySlot.zero).event tsvcPage 0
  | 4 => s.setSvc fun v => { v with fwBusy := true, fwAddr := q.arg.toNat, fwResult := 0 }
  | _ => s.setSvc fun v => { v with buckets := [] }

/-- The pending TSVC command takes effect; a KEY_INSTALL that is dropped clears KEY_DATA as well. -/
def State.tsvcApply (s : State) : State :=
  match (s.page tsvcPage).pend with
  | none => s
  | some q =>
    let again := (s.tsvcChecks q.code q.arg true).again
    let s := s.settleCmd tsvcPage again State.tsvcEffect
    if q.code = 1 ∧ again ≠ 0 then s.clearKeyData else s

/-- Issue a TSVC command. -/
def State.tsvcCommand (s : State) (m : Master) (code : Nat) : State :=
  let m := masterCode m
  s.onWrite tsvcPage m fun (s : State) =>
    let arg := s.arg tsvcPage m
    let c := s.tsvcChecks code arg false
    let s := s.submit tsvcPage m code arg c
    if code = 1 ∧ c.result ≠ 0 then s.clearKeyData else s

/-- Refusals of PORT_RESTART. -/
def State.portChecks (s : State) (code : Nat) (arg : Word) (again : Bool) : Checks :=
  let p := bits arg 1 0
  match code with
  | 1 =>
    { busy := s.busy portsPage && !again, lock := (s.page portsPage).lockCmd
      state := s.candInUse (32 + p) || (List.range 4).any fun i => s.clientActive i && s.clientPort i == p && s.candInUse (36 + i) }
  | _ => { arg := true }

/-- Issue a PORTS command. -/
def State.portCommand (s : State) (m : Master) (code : Nat) : State :=
  let m := masterCode m
  s.onWrite portsPage m fun (s : State) =>
    let arg := s.arg portsPage m
    s.submit portsPage m code arg (s.portChecks code arg false)

/-- The pending PORT_RESTART takes effect. -/
def State.portApply (s : State) : State :=
  match (s.page portsPage).pend with
  | none => s
  | some q =>
    s.settleCmd portsPage (s.portChecks q.code q.arg true).again fun q s =>
      let p := bits q.arg 1 0
      (s.linkChange p false).setPort p fun x => { x with svcStop := false }

/-! ### A round and a swap -/

/-- Whether C was reached in the round that ends. -/
def State.capRoundEnd (s : State) : State :=
  let hit := decide (s.capNow ≤ s.svc.used) || s.svc.capHit
  (s.eventIf (hit && !s.svc.capHit) tsvcPage 4).setSvc fun v => { v with
    cap := v.capNext, used := 0, capActive := hit, capHit := false }

/-- One round of the service island. -/
def State.serviceRound (s : State) : State :=
  if s.serviceOn = false then s
  else
    let s := State.launchDue (s.svc.launch.length) s
    let s := s.drainTx.sweepGrants
    let second := s.roundNow % secondRounds == 0
    let s := if second then s.ageGrants else s
    let s := (List.range 4).foldl State.txRound s
    let s := (List.range 4).foldl (fun (s : State) p =>
      if s.esmcOn p then
        (if s.ssmOf p ≠ (s.port p).ssm then s.sendEsmc p true else if second then s.sendEsmc p false else s)
      else s) s
    let s := s.garpRound
    let s := s.setSvc fun v => { v with
      decay := v.decay + 1, restarts := (v.restarts.map (· + 1)).filter (· < watchRounds) }
    let tau := 2 ^ min (bits (s.scfg 0x10) 12 8) 16
    let s := if tau ≤ s.svc.decay then s.decayBuckets.setSvc fun v => { v with decay := 0 } else s
    if s.svc.ctrl = .restart then
      (if s.svc.restartLeft ≤ 1 then s.ctrlUp else s.setSvc fun v => { v with restartLeft := v.restartLeft - 1 })
    else s

/-- TX_LAT and RX_LAT of a port, the factory values for its rate. -/
def State.loadLat (s : State) (p : Nat) : State :=
  s.setPort p fun x => { x with
    txLat := tget (fun _ => 0) s.sec.txLats (2 * p + bits (s.pcfg p 0) 1 1)
    rxLat := tget (fun _ => 0) s.sec.rxLats (2 * p + bits (s.pcfg p 0) 1 1) }

/-- What a swap does to the service. -/
def State.serviceSwap (old s : State) : State :=
  let s := (List.range 4).foldl (State.clientSwap old) s
  (List.range 4).foldl (fun (s : State) p =>
    let was := old.pcfg p 0
    let s := if bits was 2 0 ≠ bits (s.pcfg p 0) 2 0 then s.linkChange p false else s
    if bits was 1 1 ≠ bits (s.pcfg p 0) 1 1 then s.loadLat p else s) s

/-! ### Faults (R366) -/

/-- The first reaction to a fault of the TSVC page; `detail` names a slot or a context. -/
def State.tsvcReact (s : State) (bit detail : Nat) : State :=
  match bit with
  | 0 => s.ctrlWatchdog
  | 1 => if detail < 4 then s.setKey detail KeySlot.zero else s
  | 3 => if detail < 2048 ∧ (s.grant detail).isSome then s.freeGrant detail else s
  | _ => s

/-! ### The rows -/

/-- RECEIVER_RELOCK. -/
def execReceiverRelock (p : Fin 4) (s : State) : Host.Outcome State Fault Refusal :=
  finish (if s.portUp p then
    (s.setPort p fun x => { x with cdrLock := true }).setQual (32 + p.val) fun q => { q with relock := true } else s)

/-- LINK_CHANGE. -/
def execLinkChange (p : Fin 4) (up : Bool) (s : State) : Host.Outcome State Fault Refusal := finish (s.linkChange p up)

/-- FRAME_RECEIVED. -/
def execFrameReceived (p : Fin 4) (frame : RxFrame) (s : State) : Host.Outcome State Fault Refusal :=
  finish (s.frameIn p frame.fcsOk (frame.bytes.map BitVec.toNat))

/-- NTP_REQUEST. -/
def execNtpRequest (p : Fin 4) (q : NtpReq) (s : State) : Host.Outcome State Fault Refusal := finish (s.ntpAnswer p q)

/-- NTS_REQUEST. -/
def execNtsRequest (p : Fin 4) (q : NtpReq) (n : NtsFields) (s : State) : Host.Outcome State Fault Refusal :=
  finish (s.ntsAnswer p q n)

/-- SYNC. -/
def execSync (i : Fin 4) (msg : PtpEvent) (s : State) : Host.Outcome State Fault Refusal := finish (s.clientSync i msg)

/-- FOLLOW_UP. -/
def execFollowUp (i : Fin 4) (seq : Nat) (origin correction : Int) (s : State) : Host.Outcome State Fault Refusal :=
  finish (s.clientFollow i seq origin correction)

/-- DELAY_REQ. -/
def execDelayReq (p : Fin 4) (ctx : Option (Fin 2048)) (msg : PtpEvent) (s : State) : Host.Outcome State Fault Refusal :=
  finish (s.answerDelay p (ctx.map Fin.val) msg)

/-- DELAY_RESP. -/
def execDelayResp (i : Fin 4) (seq : Nat) (receive correction : Int) (s : State) : Host.Outcome State Fault Refusal :=
  finish (s.clientResponse i seq receive correction)

/-- ANNOUNCE. -/
def execAnnounce (i : Fin 4) (a : Announce) (s : State) : Host.Outcome State Fault Refusal := finish (s.clientAnnounce i a)

/-- SIGNALING. -/
def execSignaling (p : Fin 4) (q : Signal) (s : State) : Host.Outcome State Fault Refusal := finish (s.signal p q)

/-- ARP_REQUEST. -/
def execArpRequest (p : Fin 4) (ipv6 : Bool) (target : List Byte) (s : State) : Host.Outcome State Fault Refusal :=
  let a := target.map BitVec.toNat
  finish (if s.portUp p = true ∧ s.ctrlRuns = true ∧ s.answersFor p ipv6 a = true then (s.portCount p 0).send p (.arp a) else s)

/-- ESMC_PDU. -/
def execEsmcPdu (p : Fin 4) (ssm : Nat) (enhanced : Option Nat) (s : State) : Host.Outcome State Fault Refusal :=
  finish (if s.portUp p = true ∧ s.ctrlRuns = true then
    (s.portCount p 0).setQual (32 + p.val) fun q => { q with
      qlRx := match enhanced with | some e => e % 256 | none => ssm % 16
      qlEnh := enhanced.isSome, esmcAge := 0, qlTimeout := false }
  else s)

/-- LAUNCH. -/
def execLaunch (s : State) : Host.Outcome State Fault Refusal := finish s.launch

/-- SYNC_TX. -/
def execSyncTx (p : Fin 4) (ctx : Option (Fin 2048)) (at_ : Nat) (s : State) : Host.Outcome State Fault Refusal :=
  finish (s.sendSync p (ctx.map Fin.val) at_)

/-- ANNOUNCE_TX. -/
def execAnnounceTx (p : Fin 4) (ctx : Option (Fin 2048)) (s : State) : Host.Outcome State Fault Refusal :=
  finish (s.sendAnnounce p (ctx.map Fin.val))

/-- DELAY_REQ_TX. -/
def execDelayReqTx (i : Fin 4) (at_ : Nat) (s : State) : Host.Outcome State Fault Refusal := finish (s.clientRequest i at_)

/-- CLIENT_SAMPLE. -/
def execClientSample (i : Fin 4) (s : State) : Host.Outcome State Fault Refusal := finish (s.clientSample i)

/-- ANNOUNCE_TIMEOUT. -/
def execAnnounceTimeout (i : Fin 4) (s : State) : Host.Outcome State Fault Refusal := finish (s.clientTimeout i)

/-- GRANT_EXPIRY: the context is freed in the next round. -/
def execGrantExpiry (ctx : Fin 2048) (s : State) : Host.Outcome State Fault Refusal :=
  finish (match s.grant ctx with
    | some g => s.putGrant ctx { g with secs := 0 }
    | none => s)

/-- BUCKET_DECAY. -/
def execBucketDecay (s : State) : Host.Outcome State Fault Refusal :=
  finish (s.decayBuckets.setSvc fun v => { v with decay := 0 })

/-- ESMC_INFO_PDU. -/
def execEsmcInfoPdu (p : Fin 4) (s : State) : Host.Outcome State Fault Refusal := finish (s.sendEsmc p false)

/-- TX_HELD_RETURN. -/
def execTxHeldReturn (p : Fin 4) (s : State) : Host.Outcome State Fault Refusal :=
  finish (if s.txPlanBad p = false ∧ (s.syn (bits (s.pcfg p 0) 7 4)).state = .locked then
    (s.setHeld p false).setSyn (bits (s.pcfg p 0) 7 4) fun y => { y with lockedFor := max y.lockedFor secondRounds } else s)

/-- GRATUITOUS_ARP. -/
def execGratuitousArp (s : State) : Host.Outcome State Fault Refusal :=
  finish (if s.ctrlRuns = true ∧ s.serving = true then s.announceAddresses else s)

/-- HQ_RX_DATA. -/
def execHqRxData (m : Master) (s : State) : Host.Outcome State Fault Refusal :=
  finish <| s.onRead portsPage (masterCode m) fun (s : State) =>
    let (w, s) := s.readRx
    ([w], s)

/-- HQ_RX_POP. -/
def execHqRxPop (m : Master) (value : Word) (s : State) : Host.Outcome State Fault Refusal :=
  finish (s.onWrite portsPage (masterCode m) fun s => s.popRx value)

/-- HQ_TX_CTRL. -/
def execHqTxCtrl (m : Master) (value : Word) (s : State) : Host.Outcome State Fault Refusal :=
  finish (s.onWrite portsPage (masterCode m) fun s => s.startTx value)

/-- HQ_TX_DATA. -/
def execHqTxData (m : Master) (value : Word) (s : State) : Host.Outcome State Fault Refusal :=
  finish (s.onWrite portsPage (masterCode m) fun s => s.writeTx value)

/-- KEY_INSTALL. -/
def execKeyInstall (m : Master) (s : State) : Host.Outcome State Fault Refusal := finish (s.tsvcCommand m 1)

/-- KEY_CURRENT. -/
def execKeyCurrent (m : Master) (s : State) : Host.Outcome State Fault Refusal := finish (s.tsvcCommand m 2)

/-- KEY_ERASE. -/
def execKeyErase (m : Master) (s : State) : Host.Outcome State Fault Refusal := finish (s.tsvcCommand m 3)

/-- FW_UPDATE. -/
def execFwUpdate (m : Master) (s : State) : Host.Outcome State Fault Refusal := finish (s.tsvcCommand m 4)

/-- RL_CLEAR. -/
def execRlClear (m : Master) (s : State) : Host.Outcome State Fault Refusal := finish (s.tsvcCommand m 5)

/-- PORT_RESTART. -/
def execPortRestart (m : Master) (s : State) : Host.Outcome State Fault Refusal := finish (s.portCommand m 1)

/-- TSVC_CTRL_WDOG. -/
def execTsvcCtrlWdog (s : State) : Host.Outcome State Fault Refusal :=
  finish (if s.ctrlRuns then (s.tsvcReact 0 0).raise tsvcPage 0 else s)

/-- CTRL_RESTART_DONE. -/
def execCtrlRestartDone (s : State) : Host.Outcome State Fault Refusal := finish s.ctrlUp

end Sys2Proof.Machine
end

