-- ==== Sys2Proof/Machine/Pair.lean ====
section
/-! DEFINITION. Pair operation (chapter 11): binding, the roles, castling, joining a running pair, what a STANDBY takes
from a mirror record, and the alignment figures. The records themselves are in Machine/PairRecord.lean. -/

namespace Sys2Proof.Machine

def pairPage : Nat := 0x07

/-- A field of PAIR_CFG or PCLK_ASYM. -/
def State.paircfg (s : State) : Word := s.cfg pairPage 0

/-- LOSS_ROUNDS as used (R333). -/
def State.lossRounds (s : State) : Nat := max 1 (bits s.paircfg 15 8)

/-! ### Roles (R323, R326) -/

/-- ALIGNED changes (R322). -/
def State.setAligned (s : State) (v : Bool) : State :=
  let s := s.eventIf (s.pair.aligned != v) pairPage 3
  s.setPair fun p => { p with aligned := v, wasAligned := p.wasAligned || v, alignGood := if v then p.alignGood else 0 }

/-- Enter a role: ROLE_CHANGE, CASTLES for a change between ACTIVE and STANDBY; the counts of the alignment restart. A
device that leaves STANDBY aligns nothing more. -/
def State.roleTo (s : State) (r : Role) : State :=
  let was := s.pair.role
  if was = r then s
  else
    let s := s.event pairPage 0
    let s := if (was = .active ∧ r = .standby) ∨ (was = .standby ∧ r = .active) then (s.bump pairPage 0xA00).deviceCounter 3 else s
    let s := if was = .syncing ∧ r = .standby then s else s.setAligned false
    s.setPair fun p => { p with
      role := r, wasAligned := p.aligned, alignGood := 0, alignBad := 0, rangeBad := 0, pclkSilent := 0
      syncStep := 0, syncRounds := 0, errs := if was = .syncing ∧ r = .standby then p.errs else [] }

/-- SC[46] starts, when it is OFF: every role but SOLO uses it (R311, R327). -/
def State.startPclk (s : State) : State := if (s.chan 46).state = .off then s.startChan 46 else s

/-- Domains that are not INIT treat their next round as `how`: 1 an exit from HOLDOVER, 2 castling (R142). -/
def State.rejoinAll (s : State) (how : Nat) : State :=
  s.liveDoms.foldl (fun (s : State) (d : Nat) => s.setSel d fun l => { l with rejoin := how }) s

/-- The prediction of a domain that enters HOLDOVER as ACTIVE starts at y_out (R190, R326). -/
def State.adoptState (s : State) (d : Nat) : State :=
  let x := s.dom d
  let th := (s.theta d).getD 0
  let y := if x.model.valid ∧ x.state = .holdover then x.yout - drift x.model.b x.hoRounds else x.yout
  s.setDom d fun x => { x with
    lockCnt := 0, unlockCnt := 0, eHist := [], ye := if x.holding then y else x.ye, thE := if x.holding then th else x.thE }

/-- Masters of a new ACTIVE send Announce in the round (R331). -/
def State.announceAll (s : State) : State :=
  let s := (List.range 4).foldl (fun (s : State) (p : Nat) => if s.masterActive p then s.sendAnnounce p none else s) s
  s.svc.grants.foldl (fun (s : State) e =>
    match e.2 with
    | some g => s.sendAnnounce g.port (some e.1)
    | none => s) s

/-- Service addresses are announced at once, and 1 s and 2 s later (R357). -/
def State.startGarp (s : State) : State := s.setSvc fun v => { v with garp := some (0, 3) }

/-- STANDBY → ACTIVE with a cause (R325, R326). -/
def State.takeOver (s : State) (cause : Nat) : State :=
  let s := (s.roleTo .active).setPair fun p => { p with
    cause, lastCause := cause, castleReq := false, reqLeft := 0, waiting := 0
    castleBusy := decide (cause ≠ 4), takenLeft := if cause = 4 then 0 else 64 }
  let s := s.liveDoms.foldl State.adoptState (s.rejoinAll 2)
  s.startGarp.announceAll

/-- ACTIVE → STANDBY (R325, R326). -/
def State.yieldRole (s : State) (cause : Nat) : State :=
  (s.roleTo .standby).setPair fun p => { p with
    cause, lastCause := cause, castleReq := false, castleBusy := false, reqLeft := 0, takenLeft := 0, waiting := 0 }

/-- Outputs are held as in WAIT (R327). -/
def State.holdOutputs (s : State) : State :=
  (List.range 40).foldl (fun (s : State) (j : Nat) =>
    if (s.out j).state = .run ∨ (s.out j).state = .squelched ∨ (s.out j).state = .wait then
      (s.setOutState j .wait true).setOut j fun o => { o with starting := false }
    else s) s

/-- Enter SYNCING at a step. -/
def State.joinPair (s : State) (step : Nat) : State :=
  let s := (s.roleTo .syncing).startPclk.setPair fun p => { p with
    syncStep := step, raws := [], errs := [], castleReq := false, castleBusy := false, reqLeft := 0, takenLeft := 0
    waiting := 0 }
  s.holdOutputs

/-- Any role → SOLO: domains that followed a partner take their own references (R323). -/
def State.goSolo (s : State) : State :=
  let s := if s.standby then s.rejoinAll 1 else s
  (s.roleTo .solo).setPair fun p => { p with
    castleReq := false, castleBusy := false, reqLeft := 0, takenLeft := 0, waiting := 0 }

/-- SOLO → ACTIVE: the start rule is won. -/
def State.becomeActive (s : State) : State := (s.roleTo .active).startPclk.startGarp.announceAll

/-! ### The start rule (R309) -/

/-- Domains in LOCKED, HOLDOVER or HOLDOVER_LIMITED. -/
def State.ownScore (s : State) : Nat :=
  ((List.range 12).filter fun d => decide (3 ≤ (s.dom d).state.code)).length
def Record.score (r : Record) : Nat := (r.doms.filter fun i => decide (3 ≤ nbits (i.2.word 0) 6 4)).length

/-- The device wins the start rule. The partner's PREF is in no record: it is a free value (log entry 31). -/
def State.winsStart (s : State) (r : Record) : Bool :=
  let pref := decide (Config.freeInt 3 s.free % 2 = 1)
  if s.ownScore ≠ r.score then decide (r.score < s.ownScore)
  else if s.pair.pref ≠ pref then s.pair.pref
  else decide (s.sec.ownUid < s.pair.boundUid)

/-! ### What a STANDBY takes from a record (R115, R158, R190, R321) -/

/-- The state that a DOMAIN item carries. -/
def DomItem.state (i : DomItem) : DState :=
  match nbits (i.word 0) 6 4 with
  | 1 => .freeRun
  | 2 => .acquire
  | 3 => .locked
  | 4 => .holdover
  | 5 => .holdoverLimited
  | _ => .init

/-- An optional slot of an item: value in [2:0], set in [3]. -/
def slotOf (v : Nat) : Option Nat := if v.testBit 3 then some (v % 8) else none

/-- Selected slot, requests, parked set, WTR count and weights (R158). -/
def State.mirrorSel (d : Nat) (it : DomItem) (s : State) : State :=
  let w0 := it.word 0
  let w1 := it.word 1
  let run := it.word 2 % 2 ^ 26
  let ens := s.selMode d == 2
  let total := s.wtrRounds d
  let auto := s.autoSlot d none
  let s := s.setSel d fun l => { l with
    slot := nbits w0 18 16, valid := w0.testBit 19, src := nbits w0 21 20
    manual := slotOf (w1 % 16), forced := slotOf (w1 / 16 % 16)
    wtrRun := decide (run ≠ 0), wtrLeft := if run = 0 then 0 else total - run, wtrSlot := if run = 0 then none else auto
    ens := ens && w0.testBit 19, ever := l.ever || w0.testBit 19 }
  slotNums.foldl (fun (s : State) sl =>
    let w := it.word (3 + sl) % 2 ^ 18
    s.setDslot d sl fun v => { v with w, t := w, eligible := ens && decide (w ≠ 0), parked := w1.testBit (8 + sl) }) s

/-- Set T of a time domain so that it equals the item's T at the item's epoch, mapped through off (R321, R327). -/
def State.presetTime (d : Nat) (it : DomItem) (s : State) : State :=
  let dt := 1280 * it.time - s.timeAt d (it.epoch + s.pair.off)
  let s := s.setTdom d fun x => { (x.move dt) with
    anchor := false, base := x.base + dt, ppsEnd := 0, ppsFrom := 0, epoch := it.word 20 % 65536 }
  (List.range 8).foldl (State.gridStep dt d) s

/-- The step of a STANDBY passed the instant of trigger `g`: a one-shot trigger fires at this boundary, whose swap has been
taken already, so that a swap of its own follows at the next one (log entry 37). -/
def State.trgPassed (d : Nat) (old : Int) (s : State) (g : Nat) : State :=
  let s := s.trgStep d old g
  if s.time.fire.contains (g, true) ∧ (s.trgRead g).period = 0 ∧ trgDom (s.trgRead g).cfg = d then
    ({ s with time := { s.time with fire := s.time.fire.filter fun q => q.1 != g } }).trgFire g true
  else s

/-- A change of TIME_EPOCH (R321): without a valid time-scale plan the domain is not stepped (R231); a step under R239 with STEPPED, else a TIME_REARM under R241. -/
def State.mirrorEpoch (d : Nat) (it : DomItem) (s : State) : State :=
  let n := it.word 20 % 65536
  if (s.tdom d).epoch = n ∨ s.pair.raws = [] ∨ (s.pair.role = .syncing ∧ s.pair.syncStep < 6) ∨ (s.tdom d).fbPlanErr then s
  else if (it.word 0).testBit 14 then
    let dt := 1280 * it.time - s.timeAt d (it.epoch + s.pair.off)
    let old := (s.tdom d).t
    let s := (s.stepBy d dt).setTdom d fun x => { x with epoch := n }
    (List.range 8).foldl (State.trgPassed d old) s
  else (s.rearm d).presetTime d it

/-- The time of day of an item: UTC offset, LEAP word, STEPPED and VALID (R316, R321). In the second after its own leap
the device keeps what the leap left (log entry 32). -/
def State.mirrorTime (d : Nat) (it : DomItem) (s : State) : State :=
  if d < 4 then
    let s := if (s.tdom d).inLeap then s
      else (s.devDir (utcReg d) (word (it.word 17))).devDir (leapReg d) (word (it.word 18))
    let s := s.mirrorEpoch d it
    let s := s.setTdom d fun x => { x with stepped := (it.word 0).testBit 14 }
    s.setValid d ((it.word 0).testBit 15 && !(s.tdom d).fenced && !(s.tdom d).fbPlanErr)
  else s

/-- The reported state and QL_OUT of a domain (R190). -/
def State.mirrorState (d : Nat) (it : DomItem) (s : State) : State :=
  let s := if it.state = .init then s else s.domTo d it.state
  s.setDom d fun x => { x with
    qlOut := nbits (it.word 0) 11 8, forcedHo := (it.word 0).testBit 12
    hoRounds := if x.hoSeconds = it.word 19 then x.hoRounds else it.word 19 * 8000
    hoSince := x.hoSince || x.holding || it.word 19 != 0 }

/-- A domain that the mirror shows enabled is enabled, once it is INIT with its SAFE cause cleared (R326, R327). -/
def State.mirrorEnable (d : Nat) (it : DomItem) (s : State) : State :=
  let x := s.dom d
  let clear := !x.safe || (tget (fun _ => none) s.fault.safeCause d).isNone
  let may := s.pair.role == .standby || decide (5 ≤ s.pair.syncStep)
  if x.state = .init ∧ it.state ≠ .init ∧ may = true ∧ clear = true ∧ s.member d (s.cfgFb d) = true then
    let s := s.domEnable d
    if d < 4 ∧ s.pair.raws ≠ [] then s.presetTime d it else s
  else s

/-- One DOMAIN item reaches a STANDBY or SYNCING device. -/
def State.mirrorDom (s : State) (i : Nat × DomItem) : State :=
  let d := i.1
  if 12 ≤ d ∨ i.2.safe = true then s
  else
    let s := s.mirrorEnable d i.2
    if s.isInit d then s else (s.mirrorSel d i.2).mirrorState d i.2 |>.mirrorTime d i.2

/-- The FORCED_OUT set (R115). -/
def State.mirrorOut (set : Nat) (s : State) (i : Nat) : State :=
  let st := (s.qual i).state
  if s.candFrozen i then s
  else if set.testBit i then (if st = .disabled ∨ st = .forcedOut then s else s.putOut i)
  else if st = .forcedOut then s.putBack i else s

/-- The grant of an entry; `none` for a context that is free. -/
def grantOf (w : List Nat) : Option Grant :=
  let g (i : Nat) := (w[i]?).getD 0
  if (g 0).testBit 13 ∧ g 1 / 2 ^ 24 ≠ 0 then
    let six := (g 0).testBit 14
    let a := (List.range 4).flatMap fun i => leBytes 4 (g (4 + i))
    some { port := nbits (g 0) 12 11, ipv6 := six, addr := if six then a else a.drop 12
           sync := signed 8 (g 1), announce := signed 8 (g 1 / 256), dresp := signed 8 (g 1 / 65536), mask := g 1 / 2 ^ 24
           secs := g 2, seqSync := g 3 % 65536, seqAnn := g 3 / 65536, changed := none }
  else none

/-- The key slot of the SVC item: the own slot stays, with KEY_MISMATCH, where that slot is not valid (R357). -/
def State.mirrorKey (s : State) (k : Nat) : State :=
  if k = s.svc.keyCur then (if (s.keySlot k).valid then s.setSvc fun v => { v with keyMismatch := false } else s)
  else if (s.keySlot k).valid then (((s.makeCurrent k).setSvc fun v => { v with keyMismatch := false }).event tsvcPage 0)
  else (s.eventIf (!s.svc.keyMismatch) tsvcPage 1).setSvc fun v => { v with keyMismatch := true }

/-- All that a STANDBY or SYNCING device takes from a record. -/
def State.mirror (s : State) (r : Record) : State :=
  let s := match r.qual with
    | some set => (List.range 40).foldl (State.mirrorOut set) s
    | none => s
  let s := r.grants.foldl (fun (s : State) w => s.setGrant ((w[0]?).getD 0 % 2048) (grantOf w)) s
  let s := match r.svc with
    | some w => s.mirrorKey ((w[0]?).getD 0 % 4)
    | none => s
  r.doms.foldl State.mirrorDom s

/-! ### Applying a record (R313, R323) -/

/-- A record is applied: what it shows of the partner, VER_OK, CFG_MATCH, the end of a loss. -/
def State.applyRecord (s : State) (r : Record) : State :=
  let same := r.digest == s.cfgDigest
  let s := s.eventIf (s.pair.cfgMatch != same) pairPage 4
  let s := s.eventIf s.pair.lost pairPage 2
  (s.bump pairPage 0xA10).setPair fun p => { p with
    applied := some r, inbox := none, recLast := r.rseq, partnerMinor := r.minor, partnerMajor := r.major
    partnerRole := r.flags % 4, partnerRoom := nbits r.flags 23 16, partnerFlags := r.flags, cfgMatch := same, verOk := true
    lost := false }

/-- CFG_MATCH follows the digest of the active sets (R314). -/
def State.matchRound (s : State) : State :=
  match s.pair.applied with
  | some r =>
    let same := r.digest == s.cfgDigest
    (s.eventIf (s.pair.cfgMatch != same) pairPage 4).setPair fun p => { p with cfgMatch := same }
  | none => s

/-- The stamps of the partner clock in the drained round (R311, R316). -/
def State.pclkRound (s : State) : State :=
  let l := (s.chan 46).drained
  match l.getLast? with
  | some e => s.setPair fun p => { p with pclkLast := e.t, pclkCount := l.length % 65536, pclkSilent := 0 }
  | none => s.setPair fun p => { p with pclkCount := 0 }

/-- The second round in a row without a marked event while LINK_UP (R335). -/
def State.pclkLost (s : State) : State :=
  ((s.setAligned false).setPair fun p => { p with pclkSilent := max 2 p.pclkSilent }).raise pairPage 3

/-- Rounds without a marked event. -/
def State.pclkWatch (s : State) : State :=
  let c := (s.chan 46).state
  if s.pair.role ≠ .solo ∧ s.pair.linkUp = true ∧ (c = .run ∨ c = .degraded) ∧ s.pair.pclkCount = 0 then
    let n := s.pair.pclkSilent + 1
    let s := s.setPair fun p => { p with pclkSilent := n }
    if n = 2 then s.pclkLost else s
  else s.setPair fun p => { p with pclkSilent := 0 }

/-- The partner is lost (R323). -/
def State.losePartner (s : State) : State :=
  let mark (s : State) : State :=
    if s.pair.lost then s else ((s.setPair fun p => { p with lost := true }).bump pairPage 0xA20).event pairPage 1
  match s.pair.role with
  | .solo => s
  | .syncing => s.goSolo
  | .standby => if s.autoEn 4 then (mark s).takeOver 4 else mark s
  | .active => mark s

/-- The silence of the partner grows by a round, outside the QUIET allowance. -/
def State.lossRound (s : State) : State :=
  let p := s.pair
  if 0 < p.quietLeft then s.setPair fun p => { p with quietLeft := p.quietLeft - 1 }
  else
    let s := s.setPair fun p => { p with silent := min (p.silent + 1) 1000 }
    if s.lossRounds < s.pair.silent ∧ s.pair.lost = false then s.losePartner else s

/-- T of every time domain lies within 1 µs of the partner's (R323). -/
def State.timesAgree (s : State) (r : Record) : Bool :=
  r.doms.all fun i =>
    decide (4 ≤ i.1) || s.isInit i.1
      || decide ((1280 * i.2.time - s.timeAt i.1 (i.2.epoch + s.pair.off)).natAbs ≤ 1000 * nsUnits)

/-- The rows of R323 for a record that was applied at this boundary. -/
def State.roleRecord (s : State) (r : Record) : State :=
  let partner := r.flags % 4
  let req := r.flags.testBit 2
  let taken := r.flags.testBit 3
  match s.pair.role with
  | .solo =>
    if partner = 1 then s.joinPair 1
    else if partner = 0 then
      (let s' := if s.winsStart r then s.becomeActive else s.joinPair 1
       s'.nextFree)
    else s
  | .syncing => s
  | .standby => if req then s.takeOver (nbits r.flags 11 8) else s
  | .active =>
    if partner = 2 then s.setPair fun p => { p with castleBusy := p.castleReq }
    else if partner = 1 ∧ taken = true then s.yieldRole (nbits r.flags 11 8)
    else if partner = 1 ∧ req = false ∧ s.pair.castleBusy = false ∧ s.pair.takenLeft = 0 then
      let s' := if s.winsStart r then s
        else if s.timesAgree r then s.yieldRole 5
        else (s.joinPair 1).setPair fun p => { p with cause := 5, lastCause := 5 }
      s'.nextFree
    else s

/-- The rows of R323 for a record that was discarded only for its version: the role and identity it shows. -/
def State.roleVersion (s : State) (v : Nat × Nat) : State :=
  match s.pair.role with
  | .solo => if v.1 = 1 ∨ v.1 = 2 ∨ (v.1 = 0 ∧ v.2 < s.sec.ownUid) then s.joinPair 5 else s
  | .standby => s.joinPair 5
  | .syncing | .active => s

/-! ### Castling (R325) -/

/-- A cause that arose during a castling still holds. -/
def State.causeHolds (s : State) (cause : Nat) : Bool :=
  match cause with
  | 2 => (List.range 12).any fun d => (s.dom d).safe || (s.dom d).safePend.isSome
  | 3 => s.budget.pstate == .survival && decide (s.budget.headroom < s.pair.partnerRoom)
  | _ => false

/-- CASTLE_BUSY has cleared: a cause that waited is acted on. -/
def State.castleNext (s : State) : State :=
  let c := s.pair.waiting
  if s.pair.castleBusy = true ∨ c = 0 then s
  else
    let s := s.setPair fun p => { p with waiting := 0 }
    if s.causeHolds c then s.castleRequest c else s

/-- The request lapses (R325). -/
def State.castleLapse (s : State) : State :=
  if s.pair.castleReq then
    ((s.setPair fun p => { p with castleReq := false, castleBusy := false, reqLeft := 0 }).event pairPage 6).castleNext
  else s

/-- The counts of a request and of TAKEN at a boundary. -/
def State.castleRound (s : State) : State :=
  let s := if s.pair.castleReq then
      (if s.pair.reqLeft ≤ 1 then s.castleLapse else s.setPair fun p => { p with reqLeft := p.reqLeft - 1 })
    else s
  (s.setPair fun p => { p with takenLeft := p.takenLeft - 1 }).castleNext

/-! ### Joining (R327) -/

/-- The domains that the mirror shows enabled: those of the last record without SAFE. -/
def State.mirrored (s : State) : List Nat :=
  match s.pair.applied with
  | some r => (r.doms.filter fun i => decide (i.1 < 12) && !i.2.safe && i.2.state != .init).map (·.1)
  | none => []

/-- The work of the present step is done; `full` asks step 4 for its 1,024 rounds. -/
def State.syncReady (s : State) (full : Bool) : Bool :=
  let p := s.pair
  match p.syncStep with
  | 1 => p.linkUp
  | 2 => (s.chan 46).state == .run
  | 3 => p.offC.isSome
  | 4 => if full then decide (1024 ≤ p.syncRounds) && p.raws != [] else p.raws != []
  | 5 =>
    p.verOk && p.applied.isSome && p.raws != []
      && s.mirrored.all fun d =>
        !s.member d (s.cfgFb d)
          || (!s.isInit d && (List.range 8).all fun k => s.steeredBy k != some d || (s.syn k).state == .locked)
  | 6 => p.aligned
  | _ => false

/-- The epoch count of a feedback synthesiser is preset: the feedback event nearest to the partner's epoch becomes an
epoch (R327). -/
def State.presetEpoch (d : Nat) (it : DomItem) (s : State) : State :=
  let k := (s.dom d).fbSyn
  let y := s.syn k
  let step := y.plan.num * finePeriod
  let den : Int := y.plan.den
  match y.fbTrack with
  | some tr =>
    let period := y.plan.epochs * step
    let away (t : Int) : Nat := (wrapPhase period ((t - it.epoch - s.pair.off) * den)).natAbs
    match y.fb with
    | [] => s
    | f :: l =>
      let b := l.foldl (fun a t => if away t < away a then t else a) f
      let back := (stepsOf step (tr.lastT - b * den)).1
      let shift := tr.idx - back
      s.setSyn k fun y => { y with
        fbTrack := some { tr with idx := back, anchor := tr.anchor + shift * step }, epochs := [b] }
  | none => s

/-- Entry to step 6: epochs and T are preset from the items. -/
def State.syncPreset (s : State) : State :=
  match s.pair.applied with
  | some r =>
    r.doms.foldl (fun (s : State) i =>
      if 12 ≤ i.1 ∨ i.2.safe = true ∨ s.isInit i.1 = true then s
      else
        let s := s.presetEpoch i.1 i.2
        if i.1 < 4 then s.presetTime i.1 i.2 else s) s
  | none => s

/-- The present step completes and the next begins; after step 6 the device is STANDBY. -/
def State.syncNext (s : State) : State :=
  let n := s.pair.syncStep
  if 6 ≤ n then s.roleTo .standby
  else
    let s := s.setPair fun p => { p with syncStep := n + 1, syncRounds := 0 }
    if n = 1 then s.startPclk else if n = 5 then s.syncPreset else s

/-- SYNCING at a boundary. -/
def State.syncRound (s : State) : State :=
  if s.pair.role = .syncing then
    let s := s.setPair fun p => { p with syncRounds := p.syncRounds + 1 }
    if s.syncReady true then s.syncNext else s
  else s

/-! ### A round of the pair logic -/

/-- The pair logic at step 6 of a boundary: the newest record is applied, the offset measured, the role moved. -/
def State.pairRound (s : State) : State :=
  if s.pair.bound = false then s
  else
    let s := s.pclkRound
    let rec? := s.pair.inbox
    let ver := s.pair.verOnly
    let s := match rec? with
      | some r => s.applyRecord r
      | none => s.matchRound
    let s := s.setPair fun p => { p with verOnly := none }
    let marked := if s.pair.pclkCount = 0 ∨ rec?.isNone then none else some s.pair.pclkLast
    let s := if s.pair.role = .solo then s else s.offsetRound marked
    let s := match rec? with
      | some r => (if s.standby then s.mirror r else s).roleRecord r
      | none => s
    let s := match ver with
      | some v => s.roleVersion v
      | none => s
    s.lossRound.pclkWatch.castleRound.syncRound

/-! ### Alignment (R322, R335) -/

/-- The domains that R320 steers now. -/
def State.alignedDoms (s : State) : List Nat :=
  if s.standby then s.mirrored.filter fun d => !s.isInit d && s.domRuns d else []

/-- 1 ps, in 2^-8 fine units × 100. -/
def ps100 : Nat := 8388608

def State.errHist (s : State) (d : Nat) : List Nat := tget (fun _ => []) s.pair.errs d

/-- |e| of a domain in the last round exceeds `ps` picoseconds. -/
def State.errAbove (s : State) (ps d : Nat) : Bool := decide (ps * ps100 < 100 * (s.dom d).err.natAbs)

/-- The rounds in a row, up to `n`, in which |e| of a domain has exceeded `ps` picoseconds; the greatest of several. -/
def State.errRun (s : State) (n ps : Nat) (ds : List Nat) : Nat :=
  ds.foldl (fun a d => max a (((s.errHist d).take n).takeWhile fun e => decide (ps * ps100 < 100 * e)).length) 0

/-- |e| above 1 ns for 64 rounds (R335). -/
def State.alignRange (s : State) : State := (s.setPair fun p => { p with rangeBad := max 64 p.rangeBad }).raise pairPage 4

/-- The alignment figures of a round. -/
def State.pairAlign (s : State) : State :=
  let ds := s.alignedDoms
  let big := ds.foldl (fun (a : Int) (d : Nat) => if a.natAbs < (s.dom d).err.natAbs then (s.dom d).err else a) 0
  let steady := ds.all fun d =>
    let l := s.errHist d
    decide (l.length = 1024) && decide (100 * l.sum ≤ 1024 * 5 * ps100)
  let was := s.pair.rangeBad
  let s := s.setPair fun p => { p with
    alignErr := roundDiv (big * 100) 32768
    alignGood := if steady then p.alignGood + 1 else 0
    alignBad := s.errRun 8 50 ds
    rangeBad := if p.role = .standby ∧ p.wasAligned = true then s.errRun 64 1000 ds else 0 }
  if s.standby = false ∨ (s.pair.role = .syncing ∧ s.pair.syncStep < 6) then s
  else
    let s := if 8 ≤ s.pair.alignBad ∧ s.pair.aligned = true then s.setAligned false
      else if 8000 ≤ s.pair.alignGood ∧ s.pair.aligned = false ∧ s.pair.pclkSilent < 2 then s.setAligned true
      else s
    if was < 64 ∧ 64 ≤ s.pair.rangeBad then s.alignRange else s

/-! ### Commands (R308, R334) -/

/-- The identity that BIND names: captured words at a countersign, else the registers. -/
def uidOf (l : List Word) : Nat := ((l[0]?).getD 0).toNat + ((l[1]?).getD 0).toNat * 2 ^ 32

def State.bindRegs (s : State) : List Word := [s.dir pairPage 0x914, s.dir pairPage 0x918]

/-- Refusals of a PAIR command; `data` are the words that BIND captured. -/
def State.pairChecks (s : State) (code : Nat) (data : List Word) : Checks :=
  let p := s.pair
  let uid := uidOf data
  match code with
  | 1 => { arg := uid == 0 || uid == s.sec.ownUid, busy := s.busy pairPage, role := p.role != .solo, state := p.bound }
  | 2 => { busy := s.busy pairPage, role := p.role == .active && !p.lost, state := !p.bound }
  | 3 =>
    { busy := s.busy pairPage || p.castleBusy, lock := (s.page pairPage).lockCmd
      role := p.role == .solo || p.role == .syncing
      state := p.partnerRole != (if p.role == .active then 2 else 1)
        || !(if p.role == .active then p.partnerFlags.testBit 6 else p.aligned) || !p.cfgMatch || !p.verOk }
  | _ => { arg := true }

/-- BIND takes effect: the binding goes to the protected store (R308). -/
def State.doBind (s : State) (uid : Nat) (pref : Bool) : State :=
  let s := s.setSec fun x => { x with binding := some (uid, pref) }
  s.setPair fun p => { p with bound := true, boundUid := uid, pref, silent := 0, lost := false, applied := none, inbox := none }

/-- UNBIND takes effect. -/
def State.doUnbind (s : State) : State :=
  let s := s.setSec fun x => { x with binding := none }
  s.goSolo.setPair fun p => { p with
    bound := false, boundUid := 0, pref := false, lost := false, fenced := false, applied := none, inbox := none
    verOnly := none, cfgMatch := false, verOk := false, offC := none }

/-- CASTLE takes effect: a STANDBY takes over, an ACTIVE requests it (R325). -/
def State.doCastle (s : State) : State :=
  if s.pair.role = .standby then s.takeOver 1 else s.castleRequest 1

/-- The effect of a PAIR command at its boundary. -/
def State.pairEffect (q : CmdPend) (s : State) : State :=
  match q.code with
  | 1 => s.doBind (uidOf q.data) (bit q.arg 0)
  | 2 => s.doUnbind
  | _ => s.doCastle

/-- The pending PAIR command takes effect. -/
def State.pairApply (s : State) : State :=
  match (s.page pairPage).pend with
  | none => s
  | some q => s.settleCmd pairPage (s.pairChecks q.code q.data).again State.pairEffect

/-- Propose or countersign BIND or UNBIND. -/
def State.pairParty (s : State) (m : Master) (code : Nat) : State :=
  let m := masterCode m
  s.onWrite pairPage m fun (s : State) =>
    let data := if code = 1 then s.bindRegs else []
    let used := match (s.page pairPage).prop with | some q => q.data | none => data
    s.twoParty pairPage m code (s.arg pairPage m) (s.pairChecks code used) data true fun _ s => s

/-- Issue a PAIR command. -/
def State.pairCommand (s : State) (m : Master) (code : Nat) : State :=
  if code = 1 ∨ code = 2 then s.pairParty m code
  else
    let k := masterCode m
    s.onWrite pairPage k fun (s : State) => s.submit pairPage k code (s.arg pairPage k) (s.pairChecks code [])

/-! ### Faults (R335) -/

/-- The first reaction to a fault of the PAIR page. -/
def State.pairReact (s : State) (bit : Nat) : State :=
  match bit with
  | 1 => s.setPair fun p => { p with skip := true }
  | 2 => (s.setAligned false).setPair fun p => { p with raws := p.raws.filter fun r => r.1 != 0 }
  | 3 => (s.setAligned false).setPair fun p => { p with pclkSilent := max 2 p.pclkSilent }
  | 4 => s.setPair fun p => { p with rangeBad := max 64 p.rangeBad }
  | 6 => s.setPair fun p => { p with skip := true, inbox := none }
  | _ => s

/-! ### The rows -/

/-- BIND. -/
def execBind (m : Master) (s : State) : Host.Outcome State Fault Refusal := finish (s.pairParty m 1)

/-- UNBIND. -/
def execUnbind (m : Master) (s : State) : Host.Outcome State Fault Refusal := finish (s.pairParty m 2)

/-- CASTLE. -/
def execCastle (m : Master) (s : State) : Host.Outcome State Fault Refusal := finish (s.pairCommand m 3)

/-- RECORD_ARRIVAL. -/
def execRecordArrival (bytes : List Byte) (s : State) : Host.Outcome State Fault Refusal :=
  finish (s.recordArrives (bytes.map BitVec.toNat))

/-- ORDERED_SET: the stamp of its arrival, and the round-timer count it carries (R312). -/
def execOrderedSet (count coarse : Nat) (s : State) : Host.Outcome State Fault Refusal :=
  finish (s.setPair fun p => { p with arrival := coarse, partnerCount := count % 2 ^ 24 })

/-- BLOCK_LOCK: LINK_UP. -/
def execBlockLock (s : State) : Host.Outcome State Fault Refusal := finish (s.setPair fun p => { p with linkUp := true })

/-- CASTLING_LINK_DOWN: LINK_UP returns to 0. -/
def execCastlingLinkDown (s : State) : Host.Outcome State Fault Refusal :=
  finish (s.setPair fun p => { p with linkUp := false, pclkSilent := 0 })

/-- SYNC_STEP. -/
def execSyncStep (s : State) : Host.Outcome State Fault Refusal :=
  finish (if s.pair.role = .syncing ∧ s.syncReady false = true then s.syncNext else s)

/-- PARTNER_LOST. -/
def execPartnerLost (s : State) : Host.Outcome State Fault Refusal :=
  finish (if s.pair.bound = true ∧ s.pair.lost = false then s.losePartner else s)

/-- CASTLE_FAIL: the request lapses. -/
def execCastleFail (s : State) : Host.Outcome State Fault Refusal := finish s.castleLapse

/-- TAKEN_END. -/
def execTakenEnd (s : State) : Host.Outcome State Fault Refusal := finish (s.setPair fun p => { p with takenLeft := 0 })

/-- ALIGNED becomes 1. -/
def execAligned (s : State) : Host.Outcome State Fault Refusal :=
  finish (if s.standby = true ∧ s.pair.aligned = false ∧ (s.alignedDoms.any (s.errAbove 5)) = false then s.setAligned true else s)

/-- ALIGNED returns to 0. -/
def execAlignLoss (s : State) : Host.Outcome State Fault Refusal :=
  finish (if s.pair.aligned = true ∧ s.alignedDoms.any (s.errAbove 50) = true then s.setAligned false else s)

/-- PAIR_PCLK_LOSS. -/
def execPairPclkLoss (s : State) : Host.Outcome State Fault Refusal :=
  finish (if s.pair.role ≠ .solo ∧ s.pair.linkUp = true then s.pclkLost else s)

/-- PAIR_ALIGN_RANGE. -/
def execPairAlignRange (s : State) : Host.Outcome State Fault Refusal :=
  finish (if s.pair.role = .standby ∧ s.pair.wasAligned = true then s.alignRange else s)

end Sys2Proof.Machine
end

