-- ==== Sys2Proof/Machine/Reset.lean ====
section
/-! DEFINITION. The kinds of reset (R484), what DORMANT stops and WAKE restarts (R368, R506), and the loads that start-up
repeats for reset pages (R488). -/

namespace Sys2Proof.Machine

/-- DBG_SET after a reset in each lifecycle state (R469). -/
def resetLevel (l : Lifecycle) : Nat :=
  match l with
  | .blank => 2 | .provisioned => 0 | .deployed => 0 | .service => 1 | .retired => 2

/-- Every pending proposal is dropped (R476). -/
def State.dropProposals (s : State) : State :=
  s.pages.foldl (fun (s : State) e => s.setPage e.1 fun (g : Page) => { g with prop := none, lockProp := none }) s

/-- DBG_SET takes the level of the lifecycle state; DBG_CHANGE when the level in effect moves (R470, R480). -/
def State.resetDebug (s : State) : State :=
  let now := s.dbgNow
  let s := s.setSec fun x => { x with dbgSet := resetLevel s.sec.lc }
  s.eventIf (s.dbgNow != now) 0x06 1

/-- AGE_ADJ and AGE_NOW take a preset, in units of 0.01 ppb (R486). -/
def State.presetAge (s : State) (v : Int) : State :=
  let v := iclamp v (-5000000) 5000000
  (s.setDir 0x0D 0x914 (sword v)).setOsc fun o => { o with ageNow := ageScale * v }

/-- PATH_DLY of output `j`, the factory value for its format (R488). -/
def State.loadPath (s : State) (j : Nat) : State :=
  s.setOut j fun o => { o with pathDly := tget (fun _ => 0) s.sec.paths (j * 8 + o.cfg.format) }

/-- What step 1 of start-up loads from the fuses and the protected store (R488). -/
def State.loadFuses (s : State) : State :=
  let s := (List.range 48).foldl State.loadSkew s
  let s := (List.range 40).foldl State.loadPath s
  let s := (List.range 4).foldl State.loadLat s
  match s.sec.binding with
  | some (u, p) => s.setPair fun x => { x with bound := true, boundUid := u, pref := p }
  | none => s.setPair fun x => { x with bound := false, boundUid := 0, pref := false }

/-- What start-up has not yet done for its report (R493). -/
def Boot.restart (b : Boot) (cause : Nat) : Boot :=
  { b with
    cause, wake := false, book := 0, bookVerify := 0, fw := 0, fwVerify := 0, image := 1, applied := 0, refused := 0
    firstRefused := none, dropped := 0, deferred := [], pairWait := none, probed := false, powerDue := false
    reported := false, imgNext := 0, imgCount := 0, imgWait := 0, imgCmd := none, bookTry := 0, fwTry := 0 }

/-- A page that an ISLANDS reset keeps: BUDGET, FAULT, NV and SEC (R484). -/
def keptPage (p : Nat) : Bool := p == 2 || p == 3 || p == 5 || p == 6

/-- The entries of a table keyed by register address whose page is kept. -/
def keepPages {α : Type} (keep : Nat → Bool) (t : Table α) : Table α := t.filter fun e => keep (e.1 / 0x1000)

/-- Registers and common registers of the pages that `keep` does not name return to Reset. -/
def State.resetPages (s : State) (keep : Nat → Bool) : State :=
  { s with
    active := keepPages keep s.active, shadow := keepPages keep s.shadow, direct := keepPages keep s.direct
    ctr := keepPages keep s.ctr, pages := s.pages.filter fun e => keep e.1 }

/-- POR: everything but the NV store, the fuses, the protected store and the lifecycle state; the device waits for the
release of its internal reset (R482, R484). -/
def State.por (s : State) (cause : Nat) : State :=
  { State.reset with
    pending := s.pending, free := s.free + 1
    nv := { NvUnit.zero with mem := s.nv.mem, bad := s.nv.bad, bp := s.nv.bp }
    sec := { s.sec with
      dbgSet := resetLevel s.sec.lc, fuseBad := false, katBad := false, fwVerify := 0, fwSlot := 0, fwVer := 0, fwSecVer := 0 }
    budget := { Budget.zero with pstate := .inReset }
    boot := { Boot.zero with released := false, resetPin := s.boot.resetPin, probe := s.boot.probe, cause }
    svc := { Service.zero with hashKey := s.free }
    sys := { SysUnit.zero with perst := s.sys.perst } }

/-- The check slots are freed without escalation, SAFE_CAUSE is cleared, a BIST and a sweep step end (R484). -/
def FaultUnit.resetIslands (f : FaultUnit) : FaultUnit :=
  { f with slots := [], safeCause := [], bist := false, sweepBusy := false, sweepCmd := 0, sweepDone := f.sweepBusy || f.sweepDone }

/-- ISLANDS: every island but the always-on one; start-up resumes at step 3 (R484, R488). -/
def State.islandsReset (s : State) (cause : Nat) : State :=
  let s := s.dropProposals.resetPages keptPage
  let s := { s with
    sys := { SysUnit.zero with perst := s.sys.perst, cfgReady := s.sys.cfgReady }
    osc := .zero, chans := [], tims := [], harvest := .zero, quals := [], doms := [], syns := [], outs := []
    time := .zero, links := [], board := .zero, pair := .zero, svc := { Service.zero with hashKey := s.free }, free := s.free + 1, irq := .zero
    fault := s.fault.resetIslands
    budget := { s.budget with pstate := .run }
    boot := { s.boot.restart cause with started := true, restored := [] } }
  let s := s.resetDebug.loadFuses
  s.presetAge s.boot.agePreset

/-- Step 8 begins: the boot firmware is tried, where FW_EN asks for it and the flash answers (R489). -/
def Boot.tryFw (b : Boot) (size : Nat) : Boot :=
  if b.flags.testBit 2 = false then b else if size = 0 then { b with fw := 3, fwVerify := 15 } else { b with fwTry := 1 }

/-- What a SERVICE reset does to start-up: its firmware step runs again, the rest goes on where it has not ended (R484). -/
def Boot.service (b : Boot) (size : Nat) : Boot :=
  if b.reported then ({ b.restart 8 with probed := true }).tryFw size
  else
    let b := { b with cause := 8, fw := 0, fwVerify := 0, fwTry := 0 }
    if b.probed then b.tryFw size else b

/-- SERVICE: TSVC and PORTS return to Reset, the master keys are erased, the firmware is loaded again (R484). -/
def State.serviceReset (s : State) : State :=
  let s := (List.range 4).foldl (fun (s : State) (p : Nat) => s.linkChange p false) s
  let s := s.dropProposals.resetPages fun p => p != 0x0B && p != 0x0C
  let s := { s with
    free := s.free + 1
    svc := { Service.zero with capNext := s.svc.capNext, cap := s.svc.cap, hashKey := s.free }
    boot := s.boot.service s.sys.flashSize }
  (List.range 4).foldl State.loadLat s.resetDebug

/-! ### DORMANT and WAKE (R368, R506) -/

/-- A channel that DORMANT stops keeps its tables and its last results. -/
def Chan.stopped (c : Chan) : Chan :=
  { Chan.zero with
    a := c.a.fresh, b := c.b.fresh, skew := c.skew, testResult := c.testResult, last := c.last, peak := c.peak }

/-- A context that DORMANT stops is IDLE with its last result. -/
def Tim.stopped (t : Tim) : Tim := { Tim.zero with result := t.result, done := t.done, nextSeq := t.nextSeq }

/-- A command that waits on a page of a stopped island is dropped with REFUSED_STATE (R507). -/
def State.dropCommand (s : State) (p : Nat) : State :=
  if (pageKind p).island < 4 then s.settleCmd p 1 fun _ s => s else s

/-- The stamp, synthesiser, board and service islands stop at a boundary. -/
def State.enterDormant (s : State) : State :=
  let s := s.pages.foldl (fun (s : State) e => s.dropCommand e.1) s
  let s := s.chans.foldl (fun (s : State) e => (s.chTo e.1 .off).setChan e.1 Chan.stopped) s
  let s := s.tims.foldl (fun (s : State) e => s.setTim e.1 Tim.stopped) s
  let s := (List.range 40).foldl (fun (s : State) (j : Nat) =>
    s.setOut j fun o => { Out.zero with held := true, pathDly := o.pathDly, verifyErr := o.verifyErr, verifyResult := o.verifyResult }) s
  let s := (List.range 4).foldl (fun (s : State) (p : Nat) => s.setPort p fun x => { Port.zero with txLat := x.txLat, rxLat := x.rxLat }) s
  { s with
    osc := { Osc.zero with ageNow := s.osc.ageNow }
    quals := [], syns := [], links := [], board := .zero
    time := { s.time with trgs := [], fire := [], dev := [] }
    pair := { PairUnit.zero with bound := s.pair.bound, boundUid := s.pair.boundUid, pref := s.pair.pref }
    svc := { Service.zero with
      keyCur := s.svc.keyCur, keys := s.svc.keys, nonce := s.svc.nonce, hashKey := s.svc.hashKey, ports := s.svc.ports
      cap := s.svc.cap, capNext := s.svc.capNext }
    fault := { s.fault with sweepBusy := false, sweepCmd := 0, sweepDone := s.fault.sweepBusy || s.fault.sweepDone } }

/-- WAKE: start-up resumes at the stamp-clock lock, without image and report; the first boundary after the lock is a
swap boundary of the whole active set (R368, R506). -/
def State.wake (s : State) : State :=
  { s with
    osc := { s.osc with wakeSwap := true }
    boot := { s.boot with wake := true, probed := false, bookTry := 0, fwTry := 0, imgNext := 0, imgCount := 0, imgCmd := none } }

/-! ### SYS RESET (R407, R484) -/

/-- A packet candidate or a SyncE candidate is in use by a domain. -/
def State.packetInUse (s : State) : Bool := (List.range 8).any fun i => s.candInUse (32 + i)

/-- Refusals of RESET of a kind. -/
def State.resetChecks (s : State) (kind : Nat) : Checks :=
  { arg := kind == 0 || decide (3 < kind), busy := s.busy 0x00
    lock := (s.page 0x00).lockCmd, state := kind == 3 && s.packetInUse }

/-- RESET of a kind acts at once. -/
def State.resetKind (s : State) (kind : Nat) : State :=
  match kind with
  | 1 => s.por 3
  | 2 => s.islandsReset 4
  | _ => s.serviceReset

/-- Issue SYS RESET: CMD_ARG [3:0] is the kind that the row names. -/
def State.sysReset (s : State) (m kind : Nat) : State :=
  s.onWrite 0x00 m fun (s : State) => s.immediate 0x00 m 0x10 (s.resetChecks kind) fun s => s.resetKind kind

/-- RESET_FULL: a guarded write. -/
def execResetFull (m : Master) (s : State) : Host.Outcome State Fault Refusal := finish (s.sysReset (masterCode m) 1)

/-- RESET_ISLANDS. -/
def execResetIslands (m : Master) (s : State) : Host.Outcome State Fault Refusal := finish (s.sysReset (masterCode m) 2)

/-- RESET_SERVICE. -/
def execResetService (m : Master) (s : State) : Host.Outcome State Fault Refusal := finish (s.sysReset (masterCode m) 3)

end Sys2Proof.Machine
end

