-- ==== Sys2Proof/Machine/Budget.lean ====
section
/-! DEFINITION. Power and budget (chapter 13): the sag throttle and its floors, the rail and temperature monitors, the
decision of the budget controller, the headroom, and DORMANT and WAKE. -/

namespace Sys2Proof.Machine

def budPage : Nat := 0x02

/-! ### The sag throttle (R370 to R372) -/

/-- SAG_HI and SAG_LO as used, mV. -/
def State.sagHi (s : State) : Nat := clamp (bits (s.cfg budPage 4) 9 0) 715 740
def State.sagLo (s : State) : Nat := clamp (bits (s.cfg budPage 4) 25 16) 695 (s.sagHi - 10)

/-- A clock of `n` MHz in the unit of F_CELL's record, MHz × 2^10. -/
def mhz (n : Nat) : Nat := 1024 * n

/-- The floor of a V3 round: the larger of 350 MHz and LEN_V of V3 × 9 kHz. -/
def State.floorV3 (s : State) : Nat := max (mhz 350) ((s.board.run.lens[3]?).getD 0 * 9216 / 1000)

/-- The variant in effect is V3. -/
def State.inV3 (s : State) : Bool := s.board.varNow == 3

/-- The cell clock at `v` mV. -/
def State.cellClock (s : State) (v : Nat) : Nat :=
  if s.sagHi ≤ v then mhz 800
  else if s.sagLo ≤ v then mhz 700 + mhz 100 * (v - s.sagLo) / (s.sagHi - s.sagLo)
  else if s.inV3 then s.floorV3 else mhz 700

/-- The floor that applies to the round. -/
def State.floorNow (s : State) : Nat := if s.inV3 then s.floorV3 else mhz 700

/-- The lower of a reading and the lowest so far, 0 standing for none. -/
def lowest (low v : Nat) : Nat := if low = 0 ∨ v < low then v else low

/-- A reading of rail `r`. -/
def State.rail (s : State) (r v : Nat) : State :=
  s.setBudget fun b => { b with vmon := tmod (fun _ => Vmon.zero) b.vmon r fun x => { now := v, low := lowest x.low v } }

def State.railNow (s : State) (r : Nat) : Nat := (tget (fun _ => Vmon.zero) s.budget.vmon r).now

/-- The throttle follows VDD_CORE. -/
def State.throttleTo (s : State) (v : Nat) : State :=
  let f := s.cellClock v
  let low := decide (f < mhz 800)
  let s := s.eventIf (low && !s.budget.throttle) budPage 2
  s.setBudget fun b => { b with
    fCell := f, fLow := lowest b.fLow f, throttle := low, throttled := b.throttled || low
    atFloor := b.atFloor || decide (f ≤ s.floorNow), roundLow := lowest b.roundLow f, floorV3 := s.inV3
    sagSeen := b.sagSeen || decide (v < s.sagLo) }

/-- A reading of VDD_CORE. -/
def State.setVdd (s : State) (v : Nat) : State := (s.rail 0 v).throttleTo v

/-! ### Sensors (R373, R380) -/

def State.temp (s : State) (i : Nat) : Temp := tget (fun _ => Temp.zero) s.budget.temps i

/-- One reading of sensor `i`; BUDGET_TS_MISMATCH and THERM_TRIP at their eighth round. -/
def State.readSensor (s : State) (i : Nat) (d : Int × Int) : State :=
  let apart := decide (300 ≤ (d.1 - d.2).natAbs)
  let hot := decide (14000 ≤ d.1) && decide (14000 ≤ d.2)
  let s := s.setBudget fun b => { b with
    temps := tmod (fun _ => Temp.zero) b.temps i fun t =>
      { value := max d.1 d.2, disagree := apart, apart := if apart then min 9 (t.apart + 1) else 0
        hot := if hot then min 9 (t.hot + 1) else 0 } }
  let s := if (s.temp i).apart = 8 then s.raise budPage 7 else s
  if (s.temp i).hot = 8 then s.raise budPage 6 else s

/-- Every sensor, and TEMP_MAX with the lowest sensor that shows it. -/
def State.readSensors (s : State) (l : List (Int × Int)) : State :=
  let s := ((l.take 8).zipIdx).foldl (fun (s : State) e => s.readSensor e.2 e.1) s
  let best := (List.range 8).foldl (fun (m : Nat) (i : Nat) => if (s.temp m).value < (s.temp i).value then i else m) 0
  s.setBudget fun b => { b with th := (s.temp best).value, thSensor := best }

/-! ### The decision (R374 to R376) -/

/-- T_V1 to T_V3 and T_HYST, 0.01 degC. -/
def State.tempLimit (s : State) (n : Nat) : Int :=
  let w := s.cfg budPage 0
  match n with
  | 1 => 100 * bits w 7 0
  | 2 => 100 * bits w 15 8
  | _ => 100 * (min (bits w 23 16) 135 : Nat)
def State.tempHyst (s : State) : Int := 100 * bits (s.cfg budPage 0) 27 24

/-- HOLD in rounds. -/
def State.holdRounds (s : State) : Nat := 1000 * max 1 (bits (s.cfg budPage 0xC) 15 8)

def State.pLim (s : State) : Nat := bits (s.cfg budPage 8) 15 0
def State.energyShift (s : State) : Nat := clamp (bits (s.cfg budPage 8) 20 16) 10 23

/-- The thermal level. -/
def State.thermLevel (s : State) : State :=
  let b := s.budget
  let up := if s.tempLimit 3 ≤ b.th then 3 else if s.tempLimit 2 ≤ b.th then 2 else if s.tempLimit 1 ≤ b.th then 1 else 0
  if b.lt < up then (s.setBudget fun b => { b with lt := up }).event budPage 3
  else if 0 < b.lt ∧ b.th < s.tempLimit b.lt - s.tempHyst then
    if s.holdRounds ≤ b.cool + 1 then s.setBudget fun b => { b with lt := b.lt - 1, cool := 0 }
    else s.setBudget fun b => { b with cool := b.cool + 1 }
  else s.setBudget fun b => { b with cool := 0 }

/-- The supply level. -/
def State.supplyLevel (s : State) : State :=
  let b := s.budget
  let s := if b.sagSeen then s.setBudget fun b => { b with ls := 3, calm := 0 }
    else if b.ls = 3 then
      let calm := b.calm + 1
      s.setBudget fun b => { b with
        calm, ls := if s.holdRounds ≤ calm ∧ s.sagHi ≤ s.railNow 0 then 0 else b.ls }
    else s
  s.setBudget fun b => { b with sagSeen := decide (s.railNow 0 < s.sagLo) && decide (s.railNow 0 ≠ 0) }

/-- The average power and the energy level. -/
def State.energyLevel (s : State) (pEst : Nat) : State :=
  let s := s.setBudget fun b => { b with pEst, pAvg := b.pAvg + floorDiv (pEst - b.pAvg) (2 ^ s.energyShift : Nat) }
  let b := s.budget
  if s.pLim ≠ 0 ∧ (s.pLim : Int) < b.pAvg then
    if 8000 ≤ b.above + 1 then
      (s.eventIf (decide (b.le < 3)) budPage 4).setBudget fun b => { b with le := min (b.le + 1) 3, above := 0, under := 0 }
    else s.setBudget fun b => { b with above := b.above + 1, under := 0 }
  else if 0 < b.le ∧ b.pAvg ≤ ((s.pLim * 15 / 16 : Nat) : Int) then
    if s.holdRounds ≤ b.under + 1 then s.setBudget fun b => { b with le := b.le - 1, under := 0, above := 0 }
    else s.setBudget fun b => { b with under := b.under + 1, above := 0 }
  else s

/-- L of the next round. -/
def State.decideLevel (s : State) : State :=
  let b := s.budget
  let m := max (max b.lt b.ls) (max b.le (bits (s.cfg budPage 0xC) 1 0))
  s.setBudget fun b => { b with next := if s.board.v3Forced then 3 else m }

/-- HEADROOM (R376). -/
def State.setHeadroom (s : State) : State :=
  let b := s.budget
  let ht := iclamp (floorDiv (s.tempLimit 3 - b.th) 25) 0 255
  let he := if s.pLim = 0 then 255 else iclamp (floorDiv ((s.pLim - b.pAvg) * 255) s.pLim) 0 255
  let lows := (if b.throttled then [b.roundLow] else []) ++ b.sagHist.map (·.2)
  let hs : Int := match lows with
    | [] => 255
    | a :: t => iclamp (floorDiv (((t.foldl min a : Nat) - (mhz 700 : Nat) : Int) * 255) (mhz 100 : Nat)) 0 255
  s.setBudget fun b => { b with headroom := (min ht (min he hs)).toNat }

/-- The latch, 100 µs into a round (R374). -/
def State.budgetLatch (s : State) (env : BudgetEnv) : State :=
  let s := ((env.rails.take 10).zipIdx).foldl (fun (s : State) e => if e.2 = 0 then s.setVdd e.1 else s.rail e.2 e.1) s
  let s := s.readSensors env.diodes
  (((s.thermLevel.supplyLevel).energyLevel env.pEst).decideLevel).setHeadroom

/-- A count in progress of the controller completes. -/
def State.holdExpires (s : State) : State :=
  let b := s.budget
  let s := if 0 < b.lt ∧ 0 < b.cool then s.setBudget fun b => { b with lt := b.lt - 1, cool := 0 } else s
  let s := if b.ls = 3 ∧ 0 < b.calm ∧ s.sagHi ≤ s.railNow 0 then s.setBudget fun b => { b with ls := 0 } else s
  let s := if 0 < b.above then
      (s.eventIf (decide (b.le < 3)) budPage 4).setBudget fun b => { b with le := min (b.le + 1) 3, above := 0 }
    else if 0 < b.le ∧ 0 < b.under then s.setBudget fun b => { b with le := b.le - 1, under := 0 }
    else s
  s.decideLevel

/-! ### The boundary (R367, R375) -/

/-- The power state that a level gives. -/
def levelState (l : Nat) : PState := if l = 0 then .run else if l = 3 then .survival else .reduced

/-- Enter a power state: PSTATE_CHANGE, and castling cause 3 on entering SURVIVAL (R324). -/
def State.pstateTo (s : State) (p : PState) : State :=
  if s.budget.pstate = p then s
  else
    let s := (s.event budPage 0).setBudget fun b => { b with pstate := p }
    if p = .survival ∧ s.budget.headroom < s.pair.partnerRoom then s.castleRequest 3 else s

/-- The counts of the round that ends. -/
def State.budgetCounts (s : State) : State :=
  let b := s.budget
  let s := if b.throttled then s.bump budPage 0xA00 else s
  let s := if b.atFloor then s.bump budPage 0xA08 else s
  let s := if b.level = 3 then s.bump budPage 0xA18 else s
  s.setBudget fun b => { b with
    sagHist := (if b.throttled then [(1, b.roundLow)] else [])
      ++ (b.sagHist.map fun p => (p.1 + 1, p.2)).filter fun p => decide (p.1 ≤ 8000)
    throttled := b.throttle, atFloor := false, roundLow := if b.throttle then b.fCell else 0 }

/-- CAP[L]. -/
def State.capOf (s : State) (l : Nat) : Nat := bits (s.cfg budPage (0x10 + 4 * l)) 15 0

/-- The level chosen for the new round takes effect, with its cap. -/
def State.takeLevel (s : State) : State :=
  let n := s.budget.next
  let s := if n ≠ s.budget.level then (s.bump budPage 0xA10).event budPage 1 else s
  let s := (s.setBudget fun b => { b with level := n }).pstateTo (levelState n)
  s.setSvc fun v => { v with capNext := s.capOf n }

/-- The variant of the new round has its own floor (R372). -/
def State.refloor (s : State) : State :=
  let s := s.setBudget fun b => { b with floorV3 := s.inV3 }
  if s.railNow 0 = 0 then s else s.throttleTo (s.railNow 0)

/-! ### Commands (R377) -/

/-- Refusals of a BUDGET command. -/
def State.budgetChecks (s : State) (code : Nat) : Checks :=
  match code with
  | 1 => { busy := s.busy budPage, lock := (s.page budPage).lockCmd, role := s.pair.role != .solo
           state := !(s.budget.pstate == .run || s.budget.pstate == .reduced) || !s.allInit
             || (List.range 40).any (fun j => (s.out j).state != .off)
             || s.board.bookState == .verifying || s.board.bookState == .activating }
  | 2 => { busy := s.busy budPage, state := s.budget.pstate != .dormant }
  | _ => { arg := true }

/-- Issue a BUDGET command; in DORMANT no boundary comes, and WAKE acts at once. -/
def State.budgetCommand (s : State) (m code : Nat) : State :=
  s.onWrite budPage m fun (s : State) =>
    if code = 2 then s.immediate budPage m 2 (s.budgetChecks 2) fun s => s.wake.pstateTo .run
    else s.submit budPage m code (s.arg budPage m) (s.budgetChecks code)

/-- The pending DORMANT takes effect at the boundary. -/
def State.budgetApply (s : State) : State :=
  match (s.page budPage).pend with
  | none => s
  | some q => s.settleCmd budPage (s.budgetChecks q.code).again fun _ s => s.enterDormant.pstateTo .dormant

/-! ### Supplies (R369, R380) -/

/-- The declared supply of bank `b`, mV. -/
def State.bankMv (s : State) (b : Nat) : Nat :=
  match s.bankSupply (8 * b) with
  | 0 => 1800
  | 1 => 2500
  | _ => 3300

/-- PWR_CORE_LOW: the supply level is 3. -/
def State.coreLow (s : State) : State := s.setBudget fun b => { b with ls := 3, calm := 0, sagSeen := true }

/-- OUT_BANK_SUPPLY of bank `b`: the bank is held (R228). -/
def State.bankLow (s : State) (b : Nat) : State := (s.bankFault b).raise (outPage (8 * b)) 3

/-- The first reaction to a fault of the BUDGET page. -/
def State.budgetReact (s : State) (bit : Nat) : State :=
  match bit with
  | 0 => s.coreLow
  | 5 => (List.range 4).foldl State.stopPort s
  | _ => s

/-- Rail `r` has stayed at `v` mV for its filter time. -/
def State.supplyFault (s : State) (r v : Nat) : State :=
  let s := if r = 0 then s.setVdd v else s.rail r v
  let fault (s : State) (limit bit : Nat) : State := if v < limit then (s.budgetReact bit).raise budPage bit else s
  match r with
  | 0 =>
    if v < (if s.inV3 then 670 else 690) then s.raise budPage 1 else fault s s.sagLo 0
  | 1 => fault s 740 2
  | 2 => fault s 850 5
  | 3 => fault s 1710 3
  | 4 => fault s 1620 4
  | _ => if 10 * v < 9 * s.bankMv (r - 5) then s.bankLow (r - 5) else s

/-! ### The rows -/

/-- BUDGET_LATCH: a round that runs has one latch. -/
def execBudgetLatch (env : BudgetEnv) (s : State) : Host.Outcome State Fault Refusal :=
  finish (if s.roundsRun then s.budgetLatch env else s)

/-- BUDGET_HOLD_EXPIRY. -/
def execBudgetHoldExpiry (s : State) : Host.Outcome State Fault Refusal :=
  finish (if s.roundsRun then s.holdExpires else s)

/-- Brown-out levels of the rails, mV; 0 for a rail that has none (R369). -/
def brownMv (r : Nat) : Nat :=
  match r with
  | 0 => 600
  | 1 => 640
  | 3 | 4 => 1500
  | _ => 0

/-- A rail below its brown-out level puts the device in RESET, with the store as the failing supply left it (R369, R454). -/
def State.brownOut (s : State) : State := s.nvCut.por 2

/-- SAG. -/
def execSag (mv : Nat) (s : State) : Host.Outcome State Fault Refusal :=
  finish (if s.boot.released = false then s else if mv < brownMv 0 then s.brownOut else s.setVdd mv)

/-- SUPPLY_FAULT. -/
def execSupplyFault (r : Fin 10) (mv : Nat) (s : State) : Host.Outcome State Fault Refusal :=
  finish (if s.boot.released = false then s else if mv < brownMv r then s.brownOut else s.supplyFault r mv)

/-- OUT_BANK_SUPPLY. -/
def execOutBankSupply (b : Fin 5) (s : State) : Host.Outcome State Fault Refusal :=
  finish (if s.boot.released then s.bankLow b else s)

/-- THERM_TRIP. -/
def execThermTrip (sensor : Fin 8) (s : State) : Host.Outcome State Fault Refusal :=
  finish <| if s.boot.released then
      (s.setBudget fun b => { b with temps := tmod (fun _ => Temp.zero) b.temps sensor fun t => { t with hot := 9 } }).raise
        budPage 6
    else s

/-- DORMANT. -/
def execDormant (m : Master) (s : State) : Host.Outcome State Fault Refusal := finish (s.budgetCommand (masterCode m) 1)

/-- WAKE. -/
def execWake (m : Master) (s : State) : Host.Outcome State Fault Refusal := finish (s.budgetCommand (masterCode m) 2)

end Sys2Proof.Machine
end

