-- ==== Sys2Proof/Machine/Operands.lean ====
section
/-! DEFINITION. The operand forms of commands: the masters, register addresses and what they name, offsets of the PCIe
window, and the fields of SPI frames. -/

namespace Sys2Proof.Machine

/-! ### Masters -/

/-- The master of a code (R383). -/
def masterOf (m : Nat) : Master :=
  match m with
  | 0 => .control
  | 1 => .guardian
  | 2 => .testPort
  | _ => .device

/-! ### Addresses (R381, R396) -/

/-- What a register address names. -/
inductive Target where
  | reg (p o : Nat)
  | bitAlias (p o b : Nat)
  | nothing
  deriving DecidableEq, Repr

/-- Decode a register address. -/
def targetOf (addr : Nat) : Target :=
  if addr % 4 ≠ 0 then .nothing
  else if addr < 0x100000 then .reg (addr / 0x1000) (addr % 0x1000)
  else if 0x01000000 ≤ addr ∧ addr < 0x01200000 then
    let n := addr - 0x01000000
    .bitAlias (n / 0x2000) (n % 0x2000 / 0x80 * 4) (n % 0x80 / 4)
  else .nothing

/-- The page of a target. -/
def Target.page : Target → Option Nat
  | .reg p _ => some p
  | .bitAlias p _ _ => some p
  | .nothing => none

/-- The register address of a bit alias (R396): the address that a record of the access holds. -/
def aliasAddr (p o b : Nat) : Nat := 0x01000000 + p * 0x2000 + o / 4 * 0x80 + b * 4

/-- The register address of an offset on a page. -/
def regAddr (page : Fin 256) (off : Nat) : Nat := page * 0x1000 + off

/-- The register address of a window offset (R381). -/
def windowAddr (o : Nat) : Option Nat :=
  if o < 0x100000 then some o
  else if 0x800000 ≤ o ∧ o < 0xA00000 then some (o + 0x800000)
  else none

/-! ### Frames (R384 to R386) -/

/-- The last byte is the CRC-8 of the bytes before it (R384). -/
def crcOk (bs : List Nat) : Bool :=
  match bs.getLast? with
  | some c => crc8 bs.dropLast == c
  | none => false

/-- The address of a frame. -/
def frameAddr (bs : List Nat) : Nat := beNat (slice bs 1 4)

/-- The words of a frame that fill bytes [i, i + 4 n). -/
def frameWords (bs : List Nat) (i n : Nat) : List Word := (List.range n).map fun k => word (beNat (slice bs (i + 4 * k) 4))

/-- Number of words and FIXED of a count byte (R385). -/
def countOf (b : Nat) : Nat := b % 64 + 1
def fixedOf (b : Nat) : Bool := b.testBit 7

/-- The addresses of `n` words. -/
def frameAddrs (a n : Nat) (fixed : Bool) : List Nat := (List.range n).map fun k => if fixed then a else a + 4 * k

/-- The page of a register address, whose GUARD completes a GWRITE. -/
def guardAddr (a : Nat) : Option Nat := (targetOf a).page.map fun p => p * 0x1000 + 0x900

end Sys2Proof.Machine
end

