-- ==== Sys2Proof/Machine/Sec.lean ====
section
/-! DEFINITION. Lifecycle, debug levels, signing keys and minimum versions (chapter 18), the protected store and its
faults. The two-party protocol is in Machine/Ops.lean, the test port in Machine/Bus.lean. -/

namespace Sys2Proof.Machine

def secPage : Nat := 0x06

/-- The lifecycle state of a code (R480). -/
def lifecycleOf (n : Nat) : Option Lifecycle :=
  match n with
  | 0 => some .blank | 1 => some .provisioned | 2 => some .deployed | 3 => some .service | 4 => some .retired
  | _ => none

/-- The code of a lifecycle state. -/
def Lifecycle.code (l : Lifecycle) : Nat :=
  match l with
  | .blank => 0 | .provisioned => 1 | .deployed => 2 | .service => 3 | .retired => 4

/-! ### Legality (R468, R472, R478) -/

/-- The lifecycle table permits the transition now. -/
def State.lcLegal (s : State) (target : Lifecycle) : Bool :=
  s.budget.pstate != .survival &&
  match s.sec.lc, target with
  | .blank, .provisioned => [1, 2, 3].any fun k => s.keyState k == .enabled
  | .provisioned, .deployed => true
  | .deployed, .service => s.pair.role != .active && decide (s.sec.svcEntries < 15)
  | .service, .deployed => true
  | .retired, _ => false
  | _, .retired => s.pair.role == .solo && s.allInit
  | _, _ => false

/-- The running firmware. -/
def State.fwRuns (s : State) : Bool := s.svc.ctrl == .run || s.svc.ctrl == .restart

/-- A book is in effect. -/
def State.bookRuns (s : State) : Bool := s.board.state != .noBook

/-- KEY_REVOKE of slot `k` is refused: not ENABLED, in use by an image that runs, or the last one ENABLED. -/
def State.keyKept (s : State) (k : Nat) : Bool :=
  s.keyState k != .enabled || (s.bookRuns && s.board.run.slot == k) || (s.fwRuns && s.sec.fwSlot == k)
    || !(List.range 4).any fun i => i != k && s.keyState i == .enabled

/-- A public key as 96 bytes, in the byte order of R270. -/
def keyPubBytes (l : List Word) : List Nat := l.flatMap fun w => beBytes 4 w.toNat

/-- KEY_PUB. -/
def State.keyPub (s : State) : List Word := (List.range 24).map fun w => s.dir secPage (0x920 + 4 * w)

/-- Refusals of a SEC command; `data` is the captured KEY_PUB. -/
def State.secChecks (s : State) (code : Nat) (arg : Word) (data : List Word) : Checks :=
  let slot := bits arg 1 0
  match code with
  | 1 =>
    match lifecycleOf (bits arg 2 0) with
    | none => { arg := true }
    | some t => { state := !s.lcLegal t }
  | 2 => { arg := slot == 3, state := slot == 2 && (List.range 4).any fun k => (s.keySlot k).valid }
  | 3 => { arg := slot == 0 || !Config.validPoint (keyPubBytes data), state := s.keyState slot != .empty }
  | 4 => { state := s.keyKept slot }
  | 5 => { arg := decide (bits arg 5 0 < s.sec.bookMin) || decide (bits arg 13 8 < s.sec.fwMin)
           state := (s.bookRuns && decide (s.board.run.secVer < bits arg 5 0))
             || (s.fwRuns && decide (s.sec.fwSecVer < bits arg 13 8)) }
  | _ => { arg := true }

/-! ### Effects -/

/-- Key slot `k` takes a state: KEY_CHANGE. -/
def State.setKeyState (s : State) (k : Nat) (v : KeyState) : State :=
  (s.setSec fun x => { x with keys := tput keyDefault x.keys k v }).event secPage 5

/-- Slots 1 to 3 and the binding go, as the protected store and its users see it; a slot whose revocation is fused stays
REVOKED (R467, R473). -/
def State.eraseStore (s : State) : State :=
  s.setSec fun x => { x with
    keys := x.keys.filter fun p => p.1 == 0 || s.keyState p.1 == .revoked
    pubs := tput (fun _ => []) [] 0 (s.pubKey 0), binding := none }

/-- Entry to RETIRED (R468): the NV store is zeroed, key material erased, and an ISLANDS reset follows. -/
def State.retire (s : State) : State :=
  let s := (s.setNv fun n => { n with mem := [], bad := [], bp := 0, flight := [] }).addCtr 0x05 0xA00 131072
  let s := s.eraseStore
  (s.setSvc fun v => { v with keys := [] }).islandsReset 7

/-- DBG_SET changes, and DBG_CHANGE when DBG_SET or the level in effect moves. -/
def State.setDebug (s : State) (v : Nat) : State :=
  let was := (s.sec.dbgSet, s.dbgNow)
  let s := s.setSec fun x => { x with dbgSet := v }
  s.eventIf ((s.sec.dbgSet, s.dbgNow) != was) secPage 1

/-- A lifecycle transition. -/
def State.lcTo (s : State) (t : Lifecycle) : State :=
  let now := s.dbgNow
  let s := (s.setSec fun x => { x with
    lc := t, svcEntries := if t = .service then x.svcEntries + 1 else x.svcEntries
    dbgSet := if t = .deployed then min x.dbgSet (debugCap t) else x.dbgSet }).event secPage 0
  let s := s.eventIf (s.dbgNow != now) secPage 1
  if t = .retired then s.retire else s

/-- MINVER_SET: a stored book that falls below the new minimum is refused with code 6 (R478). -/
def State.setMinver (s : State) (book fw : Nat) : State :=
  let s := (s.setSec fun x => { x with bookMin := book, fwMin := fw }).event secPage 5
  if (s.board.bookState = .loaded ∨ s.board.bookState = .verified) ∧ s.board.stored.secVer < book then s.bookRefuse 6 0x1C
  else s

/-- The effect of a countersigned SEC command. -/
def State.secEffect (code : Nat) (arg : Word) (data : List Word) (s : State) : State :=
  let slot := bits arg 1 0
  match code with
  | 1 => (match lifecycleOf (bits arg 2 0) with | some t => s.lcTo t | none => s)
  | 2 => s.setDebug slot
  | 3 => (s.setSec fun x => { x with pubs := tput (fun _ => []) x.pubs slot data }).setKeyState slot .enabled
  | 4 => s.setKeyState slot .revoked
  | _ => s.setMinver (bits arg 5 0) (bits arg 13 8)

/-! ### Commands -/

/-- PROPOSAL_CANCEL is refused unless master `m` proposed what is pending on the page. -/
def State.cancelChecks (s : State) (m : Nat) : Checks :=
  let g := s.page secPage
  let mine (q : Option Proposal) : Bool := match q with | some q => q.master == m | none => false
  { state := !(mine g.prop || mine g.lockProp) }

/-- Issue a SEC command: two-party, but for PROPOSAL_CANCEL. -/
def State.secCommand (s : State) (m code : Nat) : State :=
  s.onWrite secPage m fun (s : State) =>
    let arg := s.arg secPage m
    if code = 6 then
      s.immediate secPage m 6 (s.cancelChecks m) fun s => s.setPage secPage fun g => { g with prop := none, lockProp := none }
    else if 1 ≤ code ∧ code ≤ 5 then
      let data := if code = 3 then s.keyPub else []
      let used := match (s.page secPage).prop with | some q => q.data | none => data
      s.twoParty secPage m code arg (s.secChecks code arg used) data false (State.secEffect code arg)
    else s.refuse secPage m code 2

/-! ### Faults (R481) -/

/-- Both copies of the protected store are invalid. -/
def State.storeLost (s : State) : State :=
  let s := if s.pair.bound then s.doUnbind else s
  s.eraseStore.setNv fun n => { n with bp := 2 ^ 64 - 1 }

/-- A copy of the protected store is invalid: with both valid, which one is a free value (log entry 40). -/
def State.copyLost (s : State) : State :=
  let both := s.sec.copyA && s.sec.copyB
  let a := decide (Config.freeInt 10 s.free % 2 = 0)
  let s := (s.setSec fun x => { x with copyA := both && a, copyB := both && !a }).nextFree
  if both then s else s.storeLost

/-- A fuse mismatch closes the test port (R481). -/
def State.fuseMismatch (s : State) : State :=
  let now := s.dbgNow
  let s := s.setSec fun x => { x with fuseBad := true }
  s.eventIf (s.dbgNow != now) secPage 1

/-- The first reaction to a fault of the SEC page. -/
def State.secReact (s : State) (bit : Nat) : State :=
  match bit with
  | 1 => s.copyLost
  | 2 => s.fuseMismatch
  | 3 => s.setSec fun x => { x with katBad := true }
  | 4 => s.dropProposals
  | _ => s

/-! ### The rows -/

/-- LC_SET: a guarded write, proposed or countersigned. -/
def execLcSet (m : Master) (s : State) : Host.Outcome State Fault Refusal := finish (s.secCommand (masterCode m) 1)

/-- DBG_SET. -/
def execDbgSet (m : Master) (s : State) : Host.Outcome State Fault Refusal := finish (s.secCommand (masterCode m) 2)

/-- KEY_WRITE. -/
def execKeyWrite (m : Master) (s : State) : Host.Outcome State Fault Refusal := finish (s.secCommand (masterCode m) 3)

/-- KEY_REVOKE. -/
def execKeyRevoke (m : Master) (s : State) : Host.Outcome State Fault Refusal := finish (s.secCommand (masterCode m) 4)

/-- MINVER_SET. -/
def execMinverSet (m : Master) (s : State) : Host.Outcome State Fault Refusal := finish (s.secCommand (masterCode m) 5)

/-- PROPOSAL_CANCEL: a command of the SEC page; on the other pages that hold two-party commands code 6 is unknown. -/
def execProposalCancel (m : Master) (page : Fin 256) (s : State) : Host.Outcome State Fault Refusal :=
  finish <|
    if page.val = secPage then s.secCommand (masterCode m) 6
    else if pageKind page = .none then s
    else s.onWrite page (masterCode m) fun (s : State) => s.refuse page (masterCode m) 6 2

/-- LAPSE: the window of what is pending on the page ends. -/
def execLapse (page : Fin 256) (s : State) : Host.Outcome State Fault Refusal :=
  finish ((s.lapseProp page).lapseLock page)

/-- SEC_CRYPTO_KAT: the known-answer test; the fault is raised when it first fails. -/
def execSecCryptoKat (ok : Bool) (s : State) : Host.Outcome State Fault Refusal :=
  let was := s.sec.katBad
  let s := s.setSec fun x => { x with katBad := !ok }
  finish (if !ok && !was then s.raise secPage 3 else s)

/-- PSTORE_SCRUB. -/
def execPstoreScrub (err : ScrubResult) (s : State) : Host.Outcome State Fault Refusal :=
  finish <| match err with
    | .clean => s
    | .corrected => s.raise secPage 0
    | .uncorrectable => s.copyLost.raise secPage 1

end Sys2Proof.Machine
end

