-- ==== Sys2Proof/Machine/Sweep.lean ====
section
/-! DEFINITION. What the hosts do with faults (R427, R430, R431, R434), BIST (R443) and the online test sweep (R439 to
R441). Records, classes and reactions are in Machine/Fault.lean. -/

namespace Sys2Proof.Machine

def faultPage : Nat := 0x03

/-! ### Acknowledgement and release -/

/-- The identity bits of a W0: PAGE, BIT and UNIT (R425). -/
def identityBits (v : Nat) : Nat := v.land 0xFF1FFF

/-- The slot that holds an identity. -/
def FaultUnit.slotOf (f : FaultUnit) (id : Nat) : Option Nat :=
  (List.range 16).find? fun i => match f.slot i with | some x => x.identity == id | none => false

/-- U_ACK (R430); ignored in PX1608 compatibility mode (R436). -/
def State.ack (s : State) (v : Word) : State :=
  if s.fault.compat then s
  else
    match s.fault.slotOf (identityBits v.toNat) with
    | some i => (s.setFault fun f => f.setSlot i none).bump faultPage 0xA20
    | none => (s.bump faultPage 0xA28).event faultPage 2

/-- The record that REC_SEL shows (R427). -/
def State.shownRec (s : State) : Option FaultRec :=
  let w := s.dir faultPage 0x918
  if bit w 8 then s.fault.queue.head? else s.fault.capture (bits w 7 0)

/-- REC_RELEASE: the shown record goes. -/
def State.release (s : State) (v : Word) : State :=
  if bit v 0 = false then s
  else
    let w := s.dir faultPage 0x918
    if bit w 8 then
      s.setFault fun f => { f with queue := f.queue.drop 1, queueOvf := f.queueOvf && decide (1 < f.queue.length) }
    else s.setFault fun f => f.setCapture (bits w 7 0) none

/-- A check window ends without an acknowledgement (R431). -/
def State.windowEnd (s : State) (i : Nat) : State :=
  match s.fault.slot i with
  | some x => (s.setFault fun f => f.setSlot i none).escalate { x.event with atBoundary := true }
  | none => s

/-- The check windows at a round boundary: those that end escalate in ascending page, then bit, order. -/
def State.checkRound (s : State) : State :=
  let s := s.fault.used.foldl (fun (s : State) (i : Nat) =>
    s.setFault fun f => f.setSlot i ((f.slot i).map fun x => { x with left := x.left - 1 })) s
  let due := s.fault.used.filter fun i => match s.fault.slot i with | some x => x.left == 0 | none => false
  (s.fault.inOrder due).foldl State.windowEnd s

/-! ### F_ACK and BIST (R434, R443) -/

def FaultUnit.cause (f : FaultUnit) (d : Nat) : Option Nat := tget (fun _ => none) f.safeCause d

/-- Domain `d` enters SAFE for the first time since its SAFE_CAUSE was cleared (R434). -/
def State.setCause (s : State) (d id : Nat) : State :=
  if (s.fault.cause d).isSome then s
  else s.setFault fun f => { f with safeCause := tput (fun _ => none) f.safeCause d (some id) }

/-- A rail reads below `mv`. -/
def State.railBelow (s : State) (r mv : Nat) : Bool := s.railNow r != 0 && decide (s.railNow r < mv)

/-- The condition that the source of an identity monitors still holds (R434). -/
def State.faultHolds (s : State) (id : Nat) : Bool :=
  let p := id % 256
  let b := id / 256 % 32
  match pageKind p with
  | .osc => b == 0 && !s.osc.sclkLock
  | .budget =>
    match b with
    | 0 => s.railBelow 0 s.sagLo
    | 1 => s.railBelow 0 (if s.inV3 then 670 else 690)
    | 2 => s.railBelow 1 740
    | 3 => s.railBelow 3 1710
    | 4 => s.railBelow 4 1620
    | 5 => s.railBelow 2 850
    | 6 => (List.range 8).any fun i => decide (13500 ≤ (s.temp i).value)
    | 7 => (List.range 8).any fun i => (s.temp i).disagree
    | _ => false
  | .syn => (s.syn (p - 0x80)).state != .locked
  | .out => b == 3 && s.railBelow (5 + (p - 0x90) / 8) (s.bankMv ((p - 0x90) / 8) * 9 / 10)
  | .pair => b == 3 && s.pair.linkUp && decide (2 ≤ s.pair.pclkSilent)
  | .sec => b == 2 && s.sec.fuseBad
  | _ => false

/-- SWEEP_EN. -/
def State.sweepEn (s : State) : Bool := bit (s.cfg faultPage 0) 16

/-- Refusals of a FAULT command (R434, R443, R448). -/
def State.faultChecks (s : State) (code : Nat) (arg : Word) : Checks :=
  let busy := s.busy faultPage
  match code with
  | 1 => { arg := s.fault.cause (bits arg 27 24) != some (bits arg 23 0), busy, state := s.faultHolds (bits arg 23 0) }
  | 2 => { busy := busy || s.fault.bist, role := s.pair.role == .active || s.pair.role == .syncing
           state := s.pair.role == .solo && !s.allInit }
  | 3 => { busy, lock := (s.page faultPage).lockCmd, state := !s.sweepEn }
  | _ => { arg := true }

/-- Issue a FAULT command; F_ACK and BIST are guarded. -/
def State.faultCommand (s : State) (m code : Nat) : State :=
  s.onWrite faultPage m fun (s : State) =>
    let arg := s.arg faultPage m
    s.submit faultPage m code arg (s.faultChecks code arg)

/-- BIST begins: every output is held (R443). -/
def State.startBist (s : State) : State :=
  let s := (List.range 40).foldl (fun (s : State) (j : Nat) => s.setOut j fun o => { o with held := true, hiz := false }) s
  s.setFault fun f => { f with bist := true }

/-- BIST ends with the TYPE of the first failing block, and resets the islands it tested. -/
def State.endBist (s : State) (fail : Option Nat) : State :=
  if s.fault.bist then
    let s := (s.setFault fun f => { f with
      bistResult := if fail.isSome then 2 else 1, bistType := (fail.getD 0) % 65536 }).event faultPage 7
    s.islandsReset 5
  else s

/-- The pending FAULT command takes effect at the boundary. -/
def State.faultApply (s : State) : State :=
  match (s.page faultPage).pend with
  | none => s
  | some q =>
    s.settleCmd faultPage (s.faultChecks q.code q.arg).again fun q s =>
      match q.code with
      | 1 => s.setFault fun f => { f with safeCause := tput (fun _ => none) f.safeCause (bits q.arg 27 24) none }
      | 2 => s.startBist
      | _ => s.setFault fun f => { f with sweepRestart := true }

/-! ### The sweep (R439 to R441) -/

/-- SWEEP_SLOT in rounds. -/
def State.sweepSlot (s : State) : Nat := 8000 * clamp (bits (s.cfg faultPage 4) 9 0) 10 680

/-- No step starts now (R440). -/
def State.sweepBlocked (s : State) : Bool :=
  s.inV3 || s.board.state == .activating || s.dormant || s.pair.role == .syncing

/-- The unit of step `n` is eligible (R439). -/
def State.sweepEligible (s : State) (n : Nat) : Bool :=
  if n < 47 then (s.chan n).state == .run || (s.chan n).state == .off
  else if n < 87 then
    let o := s.out (n - 47)
    o.state == .run && o.cfg.src == 0 && o.epochAligned
  else if n < 119 then (s.cell (n - 87)).state == .scheduled || (s.cell (n - 87)).state == .spare
  else (s.syn (n - 119)).state == .off && !(s.syn (n - 119)).planErr

/-- The page, code and CMD_ARG of the command that step `n` issues now: the first of a SCHEDULED cell is SPARE_IN. -/
def State.sweepOrder (s : State) (n : Nat) : Nat × Nat × Nat :=
  if n < 47 then (stampPage n, 4, 4096)
  else if n < 87 then (outPage (n - 47), 1, 4096)
  else (0xC8, if (s.cell (n - 87)).state = .scheduled then 1 else 2, n - 87)

/-- The refusals it meets, the lock apart (R441). -/
def State.sweepChecks (s : State) (n code : Nat) (arg : Word) : Checks :=
  let c := if n < 47 then s.stampChecks n code arg else if n < 87 then s.outChecks (n - 47) code arg else s.cellChecks code arg
  { c with lock := false }

/-- The bits of CMD_ARG that a page's register map gives: a page whose row says 0 has none (R13). -/
def PageKind.argMask : PageKind → Word
  | .tim => 0x3F
  | .dom => 0x7
  | .syn => 0xFF
  | .out => 0xFFFF
  | .cell => 0x1F
  | .ports => 0x3
  | .harvest | .qual | .vlink | .budget | .irq | .osc | .none => 0
  | _ => 0xFFFFFFFF

/-- Write CMD_ARG of a master: reserved bits are ignored (R13). -/
def State.setArg (s : State) (p m : Nat) (v : Word) : State :=
  s.setPage p fun g => { g with args := tput (fun _ => 0) g.args m (v &&& (pageKind p).argMask) }

/-- The step of the slot is over. -/
def State.sweepOver (s : State) : State :=
  s.setFault fun f => { f with sweepBusy := false, sweepDone := true, sweepCmd := 0, sweepWait := false }

/-- The step of the slot ran its test (SWEEP_STEPS) and is over. -/
def State.sweepTested (s : State) : State := (s.bump faultPage 0xA48).sweepOver

/-- Issue the command of step `n` as master 3; a refused one is due again in a second. -/
def State.sweepIssue (s : State) (n : Nat) : State :=
  let (p, code, a) := s.sweepOrder n
  let arg := word a
  let c := s.sweepChecks n code arg
  let s := s.setArg p 3 arg
  if c.result = 0 then
    let s := s.accept p 3 code arg (if n < 87 then [] else [1])
    s.setFault fun f => { f with sweepBusy := true, sweepCmd := code, sweepRetry := 0, sweepWait := false }
  else (s.refuse p 3 code c.result).setFault fun f => { f with sweepRetry := 8000, sweepWait := false }

/-- Start the step of the slot: a step without an eligible unit completes at once; the test of a stopped synthesiser
needs no command. -/
def State.sweepStart (s : State) : State :=
  let n := s.fault.sweepStep
  if s.sweepBlocked then s.setFault fun f => { f with sweepWait := true }
  else if s.sweepEligible n = false then s.sweepOver
  else if 119 ≤ n then s.sweepTested
  else s.sweepIssue n

/-- A cycle completes: SWEEP_DONE. -/
def State.cycleEnd (s : State) : State :=
  (s.setFault fun f => { f with
    cycleSecs := f.cycleRounds / 8000, cycleRounds := 0, sweepLate := decide (691200000 ≤ f.cycleRounds) && f.sweepLate }).event
    faultPage 4

/-- The next slot begins: a step that its slot ended is skipped. -/
def State.sweepNext (s : State) : State :=
  let f := s.fault
  let first := f.sweepLen == 0
  let s := if first || f.sweepDone || f.sweepBusy then s else s.bump faultPage 0xA50
  let s := if !first && f.sweepStep == 126 && !f.sweepRestart then s.cycleEnd else s
  let next := if first || f.sweepRestart || f.sweepStep == 126 then 0 else f.sweepStep + 1
  let s := s.setFault fun f => { f with
    sweepStep := next, sweepRounds := 0, sweepLen := s.sweepSlot, sweepBusy := false, sweepDone := false, sweepCmd := 0
    sweepRetry := 0, cycleRounds := if f.sweepRestart then 0 else f.cycleRounds, sweepRestart := false }
  s.sweepStart

/-- The command of the step in progress has been dropped at its boundary (R507). -/
def State.sweepDropped (s : State) (p : Nat) : Bool := !(s.busy p) && !(s.cmdStatus p 3).done

/-- Follow the step in progress. -/
def State.sweepFollow (s : State) : State :=
  let n := s.fault.sweepStep
  let (p, _, _) := s.sweepOrder n
  if s.fault.sweepBusy = false ∨ s.busy p then s
  else if s.sweepDropped p then s.setFault fun f => { f with sweepBusy := false, sweepRetry := 8000 }
  else if n < 47 then (if (s.chan n).test.isNone then s.sweepTested else s)
  else if n < 87 then (if (s.out (n - 47)).verifyBusy then s else s.sweepTested)
  else if s.board.repl.any (fun r => r.leaving.map (·.1) == some (n - 87)) then s
  else if s.fault.sweepCmd = 1 ∧ (s.cell (n - 87)).state = .spare then s.sweepIssue n
  else if (s.cell (n - 87)).state = .testing then s
  else if s.fault.sweepCmd = 2 then s.sweepTested
  else s.sweepOver

/-- The cycle is not complete 86,400 s after it began (R440). -/
def State.sweepTooLate (s : State) : State :=
  if s.fault.sweepLate then s else (s.setFault fun f => { f with sweepLate := true }).raise faultPage 4

/-- One round of the sweep. A step that waits holds its slot. -/
def State.sweepRound (s : State) : State :=
  if s.sweepEn = false then s
  else
    let s := s.setFault fun f => { f with cycleRounds := f.cycleRounds + 1 }
    let s := if s.fault.cycleRounds = 691200000 then s.sweepTooLate else s
    if s.fault.sweepLen = 0 then s.sweepNext
    else if s.fault.sweepWait then s.sweepStart
    else
      let s := (s.setFault fun f => { f with sweepRounds := f.sweepRounds + 1, sweepRetry := f.sweepRetry - 1 }).sweepFollow
      let f := s.fault
      if f.sweepLen ≤ f.sweepRounds ∧ f.sweepBusy = false then s.sweepNext
      else if f.sweepDone ∨ f.sweepBusy ∨ f.sweepRetry ≠ 0 then s
      else s.sweepStart

/-! ### Faults of the collector (R449) -/

/-- The record that holds a failing word goes; `detail` names it as REC_SEL would: bit 8 set for the queue, [7:0] the page
of a capture, and [12:9] the place in the queue. -/
def State.loseRecord (s : State) (detail : Nat) : State :=
  let s := s.bump faultPage 0xA30
  if detail.testBit 8 then
    s.setFault fun f =>
      let q := f.queue.eraseIdx (nbits detail 12 9)
      { f with queue := q, queueOvf := f.queueOvf && q != [] }
  else s.setFault fun f => f.setCapture (detail % 256) none

/-- The first reaction to a fault of the FAULT page. -/
def State.faultReact (s : State) (bit detail : Nat) : State :=
  match bit with
  | 3 => s.loseRecord detail
  | 4 => s.setFault fun f => { f with sweepLate := true }
  | _ => s

/-! ### The rows -/

/-- CHECK_WINDOW_END. -/
def execCheckWindowEnd (slot : Fin 16) (s : State) : Host.Outcome State Fault Refusal := finish (s.windowEnd slot)

/-- U_ACK. -/
def execUAck (m : Master) (value : Word) (s : State) : Host.Outcome State Fault Refusal :=
  finish (s.onWrite faultPage (masterCode m) fun s => s.ack value)

/-- REC_RELEASE. -/
def execRecRelease (m : Master) (value : Word) (s : State) : Host.Outcome State Fault Refusal :=
  finish (s.onWrite faultPage (masterCode m) fun s => s.release value)

/-- F_ACK. -/
def execFAck (m : Master) (s : State) : Host.Outcome State Fault Refusal := finish (s.faultCommand (masterCode m) 1)

/-- BIST. -/
def execBist (m : Master) (s : State) : Host.Outcome State Fault Refusal := finish (s.faultCommand (masterCode m) 2)

/-- BIST_END. -/
def execBistEnd (failType : Option Nat) (s : State) : Host.Outcome State Fault Refusal := finish (s.endBist failType)

/-- SWEEP_RESTART. -/
def execSweepRestart (m : Master) (s : State) : Host.Outcome State Fault Refusal :=
  finish (s.faultCommand (masterCode m) 3)

/-- SWEEP_STEP: the next slot begins. -/
def execSweepStep (s : State) : Host.Outcome State Fault Refusal :=
  finish (if s.sweepEn && s.roundsRun then s.sweepNext else s)

/-- SWEEP_RETRY: a refused command of the slot's step is tried again. -/
def execSweepRetry (s : State) : Host.Outcome State Fault Refusal :=
  finish (if s.sweepEn && s.roundsRun && decide (s.fault.sweepLen ≠ 0) && !s.fault.sweepBusy && !s.fault.sweepDone
    && !s.fault.sweepWait then s.sweepStart else s)

/-- FAULT_SWEEP_LATE. -/
def execFaultSweepLate (s : State) : Host.Outcome State Fault Refusal := finish s.sweepTooLate

end Sys2Proof.Machine
end

