-- ==== Sys2Proof/Machine/React.lean ====
section
/-! DEFINITION. Fault events that come from outside the model's own monitors: a source reports (FAULT_EVENT) or a host
forces it (PAGE_FORCE, R437). The source's first reaction runs, then the collector takes the event. -/

namespace Sys2Proof.Machine

/-- The unit that a bit position fixes: port, link or time domain (R425, R437). -/
def unitOfBit (page bit : Nat) : Nat :=
  match pageKind page with
  | .ports | .vlink | .time => bit / 4
  | _ => 0

/-- The source names a physical cell (R425). -/
def namesCell (page bit : Nat) : Bool :=
  match pageKind page with
  | .cell => true
  | .sched => bit == 1
  | _ => false

/-- The ECC source of a block's state (R307). -/
def eccBit (k : PageKind) : Option Nat :=
  match k with
  | .qual => some 1 | .dom => some 2 | .time => some 3 | .tim => some 1 | .harvest => some 1 | .pair => some 6
  | .tsvc => some 3
  | _ => none

/-- A shared word is uncorrectable: outside every KEEP range of the installed book it is restored from it; else the page
and bit that the event goes to, by the layout table of the book in effect (R307). -/
def State.sharedUncorr (s : State) (w : Nat) : State × Option (Nat × Nat) :=
  let st := s.board.store
  let owner := (s.board.run.owner w).bind fun p => (eccBit (pageKind p)).map fun b => (p, b)
  if s.board.bookState = .installed then
    match findSection (sections st) 3 0 with
    | some x =>
      if x.keepEn ∧ x.first ≤ w ∧ w ≤ x.last then (s, owner)
      else
        let v := if 4 * w < x.len then imgWord st (x.off + 4 * w) % 2 ^ 18 else 0
        (s.setBoard fun b => { b with shared := tput (fun _ => 0) b.shared w v }, none)
    | none => (s.setBoard fun b => { b with shared := tput (fun _ => 0) b.shared w 0 }, none)
  else (s, owner)

/-- TIM_RESULT_ECC_UNCORR on context `i`: its result set reads 0 with INCOMPLETE (R105). -/
def State.resultLost (s : State) (i : Nat) : State :=
  s.setTim i fun t => { t with result := { TimResult.zero with flags := flIncomplete } }

/-- HARVEST_BANK_ECC_UNCORR: DETAIL of the report names the latched value as HV_SEL would; a forced one alters no value
(R105, R437). -/
def Harvest.loseIn (h : Harvest) (forced : Bool) (w : Word) : Harvest :=
  h.onBank (bits w 1 0) fun b => if forced then { b with flags := b.flags.lor 4 } else b.lose w

/-- IRQ_STATE_MISMATCH: both in-service sets cleared, every edge source latched (R421). -/
def Irq.rebuild (i : Irq) : Irq :=
  { i with
    insvcC := [], insvcG := [], moved := [], fatalC := true, fatalG := true
    latched := 3 :: (List.range 8).map (248 + ·) }

/-- The first reaction of a synthesiser's source (R206, R228). -/
def State.synReact (s : State) (k bit : Nat) : State :=
  match bit with
  | 0 =>
    if (s.syn k).state = .locked then ((s.synTo k .unlocked).bump (synPage k) 0xA00).event (synPage k) 1 else s
  | 1 =>
    if (s.syn k).state = .off ∨ (s.syn k).state = .fenced then s else (s.synTo k .failed).squelchSyn k
  | 2 => s.setSyn k fun y => { y with staged := none }
  | _ => (s.setSyn k fun y => { y with followAligned := false, followHold := true, followBad := 0 }).squelchSyn k

/-- The first reaction of an output's source. -/
def State.outReact (s : State) (j bit : Nat) : State :=
  match bit with
  | 0 => s.divFault j
  | 1 => s.driverFault j
  | 3 => s.bankFault (j / 8)
  | _ => s

/-- A cell source on physical cell `c`: the cell leaves under R300, or a mismatch of its pair counts (R281). -/
def State.cellReact (s : State) (c bit : Nat) : State :=
  let spare := s.autoSpare || s.fault.compat
  match bit with
  | 0 | 3 | 5 => s.excludeCell c bit spare
  | 1 => (s.excludeCell c bit spare).setCell c fun x => { x with katOk := false }
  | 6 => (s.noteMismatch ((s.cell c).logical / 2)).1
  | 8 => s.setCell c fun x => { x with state := .fenced, logical := 31, testResult := 2, lastCause := 8, testLeft := 0 }
  | _ => s

/-- The stamp-clock sources (R40, R71); a forced one leaves the lock as it is (R437). -/
def State.oscReact (s : State) (bit : Nat) (forced : Bool) : State :=
  match bit with
  | 0 => if forced then s else s.setOsc fun o => { o with sclkLock := false }
  | 2 => if s.osc.tb = .frozen ∨ s.osc.tb = .crystal then s else s.tbTo .frozen
  | _ => s

/-- The first reaction of the source of an event, and the event as the collector takes it. A forced raise names no failing
word, entry or record, so it discards none (R437; log entry 38). -/
def State.react (s : State) (e : Event) : State × Event :=
  let p := e.page
  match pageKind p with
  | .stamp =>
    let k := p - 0x10
    if e.bit = 4 ∨ e.bit = 5 then (s.setChan k fun c => { c with spoil := true }, { e with detail := 0 })
    else
      let (s, d) := s.stampReact k e.bit
      (s, { e with detail := if e.bit = 1 then e.detail % 2 else if e.bit = 0 ∨ e.forced then d else 0 })
  | .osc => (s.oscReact e.bit e.forced, { e with detail := 0 })
  | .tim =>
    let i := (p - 0xC0) * 48 + e.detail % 48
    (if e.bit = 1 then s.resultLost i else s, { e with detail := 0, ctx := e.detail % 48 })
  | .harvest =>
    (if e.bit = 1 then s.setHarvest fun h => h.loseIn e.forced (word e.detail) else s, { e with detail := 0 })
  | .qual => (s.qualReact (p - 0x40) e.bit, { e with detail := 0 })
  | .dom => (s.domReact (p - 0x70) e.bit, { e with detail := 0 })
  | .syn => (s.synReact (p - 0x80) e.bit, { e with detail := 0 })
  | .out => (s.outReact (p - 0x90) e.bit, { e with detail := 0 })
  | .time =>
    (if e.bit % 4 = 2 then s else s.setTdom (e.bit / 4) fun x => { x with extrap := true }, { e with detail := 0 })
  | .vlink => (s.linkReact (e.bit / 4) (e.bit % 4), { e with detail := 0 })
  | .sched =>
    match e.bit with
    | 1 => (s.excludeCell e.unit 1 (s.autoSpare || s.fault.compat),
        { e with detail := 0, pairs := [(s.cell e.unit).logical / 2] })
    | 2 => (s, { e with
        detail := 0, pairs := if e.forced then [0] else (List.range 15).filter fun p => e.detail.testBit p })
    | 4 =>
      if e.forced then (s, { e with detail := 0 }) else
      let (s, r) := s.sharedUncorr (e.detail % 65536)
      match r with
      | some (q, b) => (s, { e with page := q, bit := b, unit := unitOfBit q b, detail := 0 })
      | none => (s, { e with detail := 0 })
    | _ => (s, { e with detail := 0 })
  | .cell =>
    let n := (s.cell e.unit).logical
    let s := s.setBoard fun b => { b with faultCell := e.unit, faultBit := e.bit }
    (s.cellReact e.unit e.bit, { e with detail := if e.forced then 0 else n, pairs := [n / 2] })
  | .pair => (s.pairReact e.bit, { e with detail := 0 })
  | .tsvc =>
    let s := if e.forced ∧ e.bit = 3 then s else s.tsvcReact e.bit e.detail
    (if e.bit = 4 then s.setSvc fun v => { v with fwResult := 2 } else s, { e with detail := 0 })
  | .budget => (s.budgetReact e.bit, { e with detail := 0 })
  | .irq => (if e.bit = 0 then { s with irq := s.irq.rebuild } else s, { e with detail := 0 })
  | .nv => (if e.forced ∧ e.bit = 1 then s else s.nvReact e.bit e.detail, { e with detail := 0 })
  | .sec => (s.secReact e.bit, { e with detail := 0 })
  | .fault => (if e.forced ∧ e.bit = 3 then s else s.faultReact e.bit e.detail, { e with detail := 0 })
  | .ports | .sys | .none => (s, { e with detail := 0 })

/-- What follows a report: the reaction of the source that SCHED_SHARED_ECC_UNCORR redirects to, and
CELL_TWIN_REPEAT after its last mismatch (R281, R307). -/
def State.afterReport (s : State) (e e' : Event) : State :=
  let s := if e'.page ≠ e.page then (s.react { e' with detail := 0 }).1 else s
  match pageKind e.page with
  | .cell =>
    if e.bit = 6 ∧ s.repeatN ≤ (s.board.mism.filter fun q => e'.pairs.contains q.1).length then
      (s.setBoard fun b => { b with faultBit := 7 }).report { e' with bit := 7, forced := false }
    else s
  | _ => s

/-- A fault event, with its first reaction. -/
def State.detect (s : State) (e : Event) : State :=
  let (s, e') := s.react e
  (s.report e').afterReport e e'

/-- The page has a source at this bit. -/
def hasSource (page bit : Nat) : Bool := (faultClass (pageKind page) page bit).isSome

/-! ### PAGE_FORCE (R437) -/

/-- Force bits are accepted now. -/
def State.forceOpen (s : State) : Bool :=
  match s.sec.lc with
  | .blank | .provisioned | .service => true
  | .deployed => s.fault.forceEn
  | .retired => false

/-- The physical cell that holds logical cell 0; 0 when none does. -/
def State.forcedCell (s : State) : Nat := (s.holder 0).getD 0

/-- A forced raise of one source. -/
def State.forceOne (m access addr page : Nat) (s : State) (bit : Nat) : State :=
  if hasSource page bit then
    s.detect { page, bit, unit := if namesCell page bit then s.forcedCell else unitOfBit page bit
               master := m, access, addr, forced := true }
  else s

/-- A write to PAGE_FORCE of a page by master `m`: each bit in ascending order, or FORCE_REJECT. -/
def State.force (s : State) (m access addr page : Nat) (v : Word) : State :=
  if s.forceOpen then ((List.range 32).filter fun b => bit v b).foldl (State.forceOne m access addr page) s
  else (s.bump faultPage 0xA58).event faultPage 5

/-! ### The rows -/

/-- OSC_SCLK_UNLOCK: the stamp-clock synthesiser loses lock. -/
def execOscSclkUnlock (s : State) : Host.Outcome State Fault Refusal :=
  finish (if s.osc.sclkLock then s.detect { page := oscPage, bit := 0 } else s)

/-- OUT_DRIVER. -/
def execOutDriver (j : Fin 40) (s : State) : Host.Outcome State Fault Refusal :=
  finish (s.detect { page := outPage j, bit := 1 })

/-- OUT_DIV_MISMATCH: of a running output. -/
def execOutDivMismatch (j : Fin 40) (s : State) : Host.Outcome State Fault Refusal :=
  finish (if (s.out j).state = .run then s.detect { page := outPage j, bit := 0 } else s)

/-- PAGE_FORCE. -/
def execPageForce (m : Master) (page : Fin 256) (value : Word) (s : State) : Host.Outcome State Fault Refusal :=
  let m := masterCode m
  finish (if pageKind page = .none then s
    else s.onWrite page m fun (s : State) => s.force m 1 (page * 0x1000 + 0x018) page value)

/-- FAULT_EVENT: a source reports. -/
def execFaultEvent (page : Fin 256) (b : Fin 32) (unit : Fin 256) (detail : Word) (s : State) :
    Host.Outcome State Fault Refusal :=
  finish <|
    if s.boot.released = false ∨ hasSource page b = false then s
    else
      s.detect { page, bit := b, detail := detail.toNat
                 unit := if namesCell page b then unit.val % 32 else unitOfBit page b }

end Sys2Proof.Machine
end

