-- ==== Sys2Proof/Machine/RegRead.lean ====
section
/-! DEFINITION. What every readable register shows (the register maps of all chapters), and which of them a read of a
snapshot origin holds (R403). Reading changes nothing here; Machine/Bus.lean adds what a read does. -/

namespace Sys2Proof.Machine

/-- A register from its fields: (value, place of its lowest bit). -/
def pack (l : List (Nat × Nat)) : Word := word (l.foldl (fun a f => a + f.1 * 2 ^ f.2) 0)

/-- Bit i of the result for each i of a list. -/
def bitsOf (l : List Nat) : Nat := l.foldl (fun a i => a + 2 ^ i) 0

/-- The low `n` bits of a signed value. -/
def sfield (n : Nat) (v : Int) : Nat := (v % (2 ^ n : Nat)).toNat

/-- The word `o - base` of a 64-bit value: low at 0, high at 4. -/
def half (v : Nat) (o base : Nat) : Word := if o = base then lo32 v else hi32 v

/-! ### Codes of the state fields -/

def ChState.code : ChState → Nat
  | .off => 0
  | .starting => 1
  | .run => 2
  | .degraded => 3
  | .fenced => 4

def TbState.code : TbState → Nat
  | .crystal => 0
  | .slewing => 1
  | .following => 2
  | .frozen => 3

def TimState.code : TimState → Nat
  | .idle => 0
  | .waiting => 1
  | .running => 2
  | .halted => 3

def QState.code : QState → Nat
  | .disabled => 0
  | .monitor => 1
  | .soaking => 2
  | .qualified => 3
  | .disqualified => 4
  | .forcedOut => 5

def SynState.code : SynState → Nat
  | .off => 0
  | .cal => 1
  | .settling => 2
  | .locked => 3
  | .unlocked => 4
  | .failed => 5
  | .fenced => 6

def OState.code : OState → Nat
  | .off => 0
  | .wait => 1
  | .run => 2
  | .squelched => 3
  | .safe => 4
  | .fenced => 5

def LState.code : LState → Nat
  | .off => 0
  | .idle => 1
  | .sending => 2
  | .dnu => 3
  | .safeIdle => 4

def BState.code : BState → Nat
  | .noBook => 0
  | .running => 1
  | .activating => 2

def BookState.code : BookState → Nat
  | .empty => 0
  | .loading => 1
  | .loaded => 2
  | .verifying => 3
  | .verified => 4
  | .refused => 5
  | .activating => 6
  | .installed => 7

def CState.code : CState → Nat
  | .scheduled => 0
  | .spare => 1
  | .copying => 2
  | .testing => 3
  | .fenced => 4

def CtrlState.code : CtrlState → Nat
  | .boot => 0
  | .run => 1
  | .restart => 2
  | .failed => 3

def PtpState.code : PtpState → Nat
  | .disabled => 0
  | .listening => 1
  | .uncalibrated => 2
  | .slave => 3
  | .faulty => 4

def PState.code : PState → Nat
  | .run => 0
  | .reduced => 1
  | .survival => 2
  | .dormant => 3
  | .inReset => 4

def KeyState.code : KeyState → Nat
  | .empty => 0
  | .enabled => 1
  | .revoked => 2

/-! ### Common registers (R389, R393, R400) -/

/-- PAGE_LOCK as it reads (R393). -/
def Page.lockWord (g : Page) : Word :=
  pack ([(b2n g.lockCfg, 0), (b2n g.lockCmd, 1)] ++
    match g.lockProp with
    | some q => [(bits q.arg 1 0, 4), (1, 8), (b2n (q.master == 1), 9), (bits q.arg 31 16, 16)]
    | none => [])

/-- CMD_STATUS as it reads (R400). -/
def CmdStatus.toWord (c : CmdStatus) : Word := pack [(c.result, 0), (c.code, 8), (c.seq, 16), (b2n c.done, 31)]

/-- The common registers at 0x000 to 0x01C. -/
def State.commonValue (s : State) (p o : Nat) : Word :=
  let g := s.page p
  let k := pageKind p
  match o with
  | 0x000 => pack [(1, 0), (p - k.base, 8), (k.type, 16)]
  | 0x004 => pack [(b2n g.eventPend, 0), (b2n (g.fault != 0), 1), (b2n g.pend.isSome, 2), (b2n g.lockProp.isSome, 3),
      (g.lockResult % 8, 4), (k.island, 8)]
  | 0x008 => word (b2n g.evtIrqEn)
  | 0x00C => g.event
  | 0x010 => g.eventEn
  | 0x014 => g.fault
  | 0x01C => g.lockWord
  | _ => 0

/-! ### The pages -/

/-- ISLAND_STATUS (R406): the always-on and host islands run in every power state. -/
def State.islandStatus (s : State) : Word :=
  pack [(0x30, 0), (b2n (s.osc.running && !s.dormant) * 3, 0), (b2n (s.boot.started && !s.dormant) * 12, 0),
    (b2n s.osc.sclkLock, 8), (b2n s.dormant, 16)]

/-- A SWAP_SETS that has been accepted and not yet taken up at a boundary. -/
def State.swapIssued (s : State) : Option CmdPend := (s.page 0x00).pend.filter fun q => q.code == 1

/-- SWAP_PEND and its TIMED: SWAP_SETS was accepted and its exchange has not taken place. -/
def State.swapTimed (s : State) : Bool :=
  s.sys.timed.isSome || (match s.swapIssued with | some q => bit q.arg 0 | none => false)
def State.swapWaits (s : State) : Bool := s.sys.swapPend || s.sys.timed.isSome || s.swapIssued.isSome

/-- SYS (R406); `m` is the reading master. -/
def State.sysValue (s : State) (m o : Nat) : Word :=
  match o with
  | 0x40 => 0x3240B100
  | 0x44 => s.islandStatus
  | 0x48 => lo32 s.roundNow
  | 0x4C => hi32 s.roundNow
  | 0x50 => lo32 s.instant
  | 0x54 => hi32 s.instant
  | 0x58 => word (s.sys.flashSize % 32)
  | 0x5C => pack [(b2n s.swapWaits, 0), (b2n s.swapTimed, 1), (b2n s.sys.swapLate, 2), (b2n s.sys.copyPend, 3),
      (s.sys.lastSwap % 65536, 16)]
  | 0x60 => pack [(b2n s.sys.pcieUp, 0), (s.sys.pcieSpeed % 4, 4), (s.sys.pcieWidth % 4, 8)]
  | 0x64 => word m
  | _ => 0

/-- OSC (R40, R183). -/
def State.oscValue (s : State) (o : Nat) : Word :=
  match o with
  | 0x40 => pack [(s.osc.tb.code, 0), (s.osc.tbSrc % 4, 2), (b2n s.osc.sclkLock, 4)]
  | 0x44 => word (sfield 24 (roundDiv s.osc.ageNow ageScale))
  | _ => 0

/-- STAMP (R68, R69). -/
def State.stampValue (s : State) (k o : Nat) : Word :=
  let c := s.chan k
  let w := s.dir (stampPage k) 0x914
  match o with
  | 0x40 => pack [(c.state.code, 0), (b2n (c.activeB s.roundNow), 3), (b2n c.a.ok, 4), (b2n c.b.ok, 5),
      (b2n (s.testBusy k), 6), (c.testResult % 4, 8), (c.queue.length, 16)]
  | 0x44 => sword (c.a.c2 - c.a.c1)
  | 0x48 => sword c.a.c2
  | 0x4C => sword (c.b.c2 - c.b.c1)
  | 0x50 => sword c.b.c2
  | 0x54 => word (nmax ((c.a.lin ++ c.b.lin).map Int.natAbs) % 2 ^ 18)
  | 0x58 => word c.peak
  | 0x918 => sword ((c.interp (bit w 6)).linAt (bits w 5 0))
  | 0x91C => sword c.skew
  | _ =>
    if 0x60 ≤ o ∧ o < 0x70 then
      match c.last with
      | some e => word (e.bits128 k / 2 ^ (8 * (o - 0x60)))
      | none => 0
    else 0

/-- The item that RES_IDX selects (R102); an item that does not apply to the mode reads 0, and so does a ring position that
holds no sample yet (log entry 24). -/
def State.timItem (s : State) (i item : Nat) : Nat :=
  let x := s.tim i
  let r := x.result
  let mode := (s.timCfg i).mode
  let lv (m : Nat) : Level := (x.lv[m]?).getD .zero
  if item = 0 then s64 r.value
  else if item ≤ 3 then
    if mode = 1 then 0 else s64 (if item = 1 then r.min else if item = 2 then r.max else r.last)
  else if item = 4 then (if mode < 2 then r.aux % 2 ^ 64 else 0)
  else if 0xC0 ≤ item then
    if mode = 2 ∨ mode = 3 then
      match (x.ring[item - 0xC0]?) with
      | some (some v) => s64 v
      | some none => 2 ^ 63
      | none => 0
    else 0
  else if mode = 3 then
    if 0x10 ≤ item ∧ item < 0x24 then (lv (item - 0x10)).tdev (item - 0x10) % 2 ^ 64
    else if 0x30 ≤ item ∧ item < 0x44 then (lv (item - 0x30)).k % 2 ^ 64
    else if 0x50 ≤ item ∧ item < 0x64 then (if (lv (item - 0x50)).k = 0 then 0 else (lv (item - 0x50)).mlo % 2 ^ 64)
    else if 0x90 ≤ item ∧ item < 0xA4 then (if (lv (item - 0x90)).k = 0 then 0 else (lv (item - 0x90)).mhi % 2 ^ 64)
    else 0
  else 0

/-- TIM (R100, R101); `n` is 0 for page 0xC0 and 1 for page 0xC1. DEC_LOG2 has four bits: a log2 d above 15 shows modulo 16
(log entry 24). -/
def State.timValue (s : State) (n o : Nat) : Word :=
  if 0x40 ≤ o ∧ o < 0x100 then
    let x := s.tim (48 * n + (o - 0x40) / 4)
    pack [(x.state.code, 0), (b2n x.done, 4), (x.result.flags % 128, 16)]
  else if o = 0x918 ∨ o = 0x91C then
    let w := s.dir (0xC0 + n) 0x914
    if bits w 5 0 < 48 then half (s.timItem (48 * n + bits w 5 0) (bits w 15 8)) o 0x918 else 0
  else if 0xA00 ≤ o ∧ o < 0xD00 then
    let r := (s.tim (48 * n + (o - 0xA00) / 16)).result
    if o % 16 = 0 then lo32 (s64 r.value)
    else if o % 16 = 4 then hi32 (s64 r.value)
    else if o % 16 = 8 then pack [(r.seq % 65536, 0), (r.flags % 128, 16), (r.dec % 16, 24)]
    else word (min r.n 0xFFFFFFFF)
  else 0

/-- The bank that HV_SEL [1:0] chooses. -/
def Harvest.bank (h : Harvest) (n : Nat) : Bank :=
  match n with
  | 0 => h.b1
  | 1 => h.b60
  | 2 => h.b900
  | _ => h.bday

/-- The value that HV_SEL selects (R104). -/
def State.hvSelected (s : State) : Nat :=
  let w := s.dir hvPage 0x914
  (s.harvest.bank (bits w 1 0)).selected w

/-- HARVEST (R103). -/
def State.harvestValue (s : State) (o : Nat) : Word :=
  let h := s.harvest
  match o with
  | 0x40 => pack [(b2n h.alignAct, 0), (b2n h.timeWait, 2), (b2n h.archBusy, 4), (h.archSlot % 65536, 16)]
  | 0x44 => word h.b1.seq
  | 0x48 => word h.b60.seq
  | 0x4C => word h.b900.seq
  | 0x50 => word h.bday.seq
  | 0x54 => word h.archSeq
  | 0x918 => lo32 s.hvSelected
  | 0x91C => hi32 s.hvSelected
  | _ => 0

/-- The mask point that MASK_SEL selects (R127): the TDEV estimate, or the largest block peak-to-peak, in ps. -/
def State.maskValue (s : State) (i : Nat) : Word :=
  let w := s.dir (qualPage i) 0x918
  let q := s.qual i
  if bit w 3 then word (100 * (q.mp (bits w 2 0)).peak / ps8) else word (q.tp (bits w 2 0)).ps

/-- QUAL (R127, R128). -/
def State.qualValue (s : State) (i o : Nat) : Word :=
  let q := s.qual i
  let pts (f : Nat → Bool) : Nat := bitsOf ((List.range 8).filter f)
  match o with
  | 0x40 => pack [(q.state.code, 0), (q.reason % 16, 4), (b2n q.suspect, 8), (b2n (s.candDegraded i), 9),
      (b2n q.frozen, 10), (b2n q.fwValid, 11), (q.rank % 16, 12)]
  | 0x44 => word (q.failSet % 2048)
  | 0x48 => word q.soak
  | 0x4C => word q.guard
  | 0x50 => lo32 (s64 q.freq)
  | 0x54 => hi32 (s64 q.freq)
  | 0x58 => sword q.phLast
  | 0x5C => pack [(pts fun n => (q.tp n).fail, 0), (pts fun n => (q.mp n).fail, 8),
      (pts fun n => decide (2 ^ s.maskAvg i ≤ (q.tp n).n), 16), (pts fun n => (q.mp n).valid, 24)]
  | 0x60 => pack [(q.qlRx % 256, 0), (b2n q.qlEnh, 8), (b2n q.qlTimeout, 9)]
  | 0x64 => pack [(q.majAgree % 16, 0), (q.majVoters % 16, 8), (b2n q.disagree, 16)]
  | 0x91C => s.maskValue i
  | _ => 0

/-- SEL_STATUS (R161). -/
def State.selStatus (s : State) (d : Nat) : Word :=
  let l := (s.dom d).sel
  let used (i : Nat) : Bool := if l.ens then (l.slotAt i).w != 0 else l.valid && l.slot == i
  pack [(l.slot % 8, 0), (b2n l.valid, 3), (l.src % 4, 4), (b2n l.bridging, 6), (b2n (l.wtrRun || !l.ever), 7),
    (bitsOf ((List.range 8).filter used), 8), (bitsOf ((List.range 8).filter fun i => (l.slotAt i).parked), 16),
    (l.rank % 16, 24), (b2n l.steering, 28)]

/-- DOM_STATUS (R192). -/
def State.domStatus (s : State) (d : Nat) : Word :=
  let x := s.dom d
  pack [(x.state.code, 0), (b2n x.safe, 3), (b2n x.frozen, 4), (b2n x.forcedHo, 5), (b2n x.sluClamp, 6),
    (b2n x.pullClamp, 7), (b2n x.model.valid, 8), (b2n x.model.restored, 9), (b2n (s.followerForm d), 10),
    (x.qlOut % 16, 12), (x.seg % 16, 16)]

/-- DOM (R160, R161, R190, R192). -/
def State.domValue (s : State) (d o : Nat) : Word :=
  let x := s.dom d
  let l := x.sel
  let v := x.model
  match o with
  | 0x40 => s.domStatus d
  | 0x44 => lo32 (s64 x.err)
  | 0x48 => hi32 (s64 x.err)
  | 0x4C => lo32 (s64 x.yout)
  | 0x50 => sword (signed 16 (s64 x.yout / 2 ^ 32))
  | 0x54 => word x.hoSeconds
  | 0x58 => word x.left
  | 0x5C => x.kp
  | 0x60 => x.ki
  | 0x64 => lo32 (s64 v.a)
  | 0x68 => hi32 (s64 v.a)
  | 0x6C => sword v.b
  | 0x70 => sword v.c
  | 0x74 => pack [(sfield 16 v.thMin, 0), (sfield 16 v.thMax, 16)]
  | 0x78 => pack [(sfield 16 v.th0, 0), (min (v.learned / 28800000) 65535, 16)]
  | 0x80 => s.selStatus d
  | 0x84 => word l.wtrLeft
  | 0x88 => lo32 (s64 l.bo)
  | 0x8C => hi32 (s64 l.bo)
  | 0xF0 => l.lastSwitch
  | 0xF4 => pack [(l.manual.getD 0, 0), (b2n l.manual.isSome, 3), (l.forced.getD 0, 4), (b2n l.forced.isSome, 7),
      (b2n l.fenced, 8)]
  | _ =>
    if 0x90 ≤ o ∧ o < 0xB0 then word (l.slotAt ((o - 0x90) / 4)).w
    else if 0xB0 ≤ o ∧ o < 0xD0 then word (l.slotAt ((o - 0xB0) / 4)).t
    else if 0xD0 ≤ o ∧ o < 0xF0 then
        (if s.board.state = .noBook then 0 else word (s.sigma d ((o - 0xD0) / 4)))
    else 0

/-- SYN (R222, R223). -/
def State.synValue (s : State) (k o : Nat) : Word :=
  let y := s.syn k
  match o with
  | 0x40 => pack [(y.state.code, 0), (b2n y.lockDet, 3), (b2n y.ssActive, 4), (b2n y.ssBlocked, 5), (b2n y.assignHeld, 6),
      (b2n y.followAligned, 7), (b2n y.sync.isSome, 8), (b2n y.planErr, 9), (y.mode % 4, 10), (y.dom % 16, 12),
      (y.band % 32, 16)]
  | 0x44 => lo32 y.word
  | 0x48 => word (y.word / 2 ^ 32 % 2 ^ 27)
  | 0x4C => lo32 (s64 y.yComp)
  | 0x50 => hi32 (s64 y.yComp)
  | 0x54 => sword y.followErr
  | _ => 0

/-- OUT (R225, R226). -/
def State.outValue (s : State) (j o : Nat) : Word :=
  let x := s.out j
  match o with
  | 0x40 => pack [(x.state.code, 0), (b2n x.epochAligned, 3), (x.cfgErr % 8, 4), (b2n x.move.isSome, 7),
      (b2n x.verifyBusy, 8), (x.verifyResult % 4, 9), (b2n x.driverOk, 11)]
  | 0x44 => sword x.pathDly
  | 0x48 => word x.verifyErr
  | _ => 0

/-- REARM_PEND of time domain `t` (R241): a proposal that names it is pending. -/
def State.rearmPend (s : State) (t : Nat) : Bool :=
  match (s.page 0x09).prop with
  | some q => bits q.arg 1 0 == t
  | none => false

/-- One of the three words of a time: 0, 4 and 8 (R249). -/
def todWord (v : Int) (o : Nat) : Word :=
  let (a, b, c) := todWords v
  if o = 0 then word a else if o = 4 then word b else word c

/-- TIME (R249, R250). -/
def State.timeValue (s : State) (o : Nat) : Word :=
  if 0x40 ≤ o ∧ o < 0x50 then
    let t := (o - 0x40) / 4
    let x := s.tdom t
    pack [(b2n x.stepped, 0), (b2n x.valid, 1), (b2n (x.srcOk || s.tsrc t == 2), 2), (b2n x.inLeap, 3), (b2n x.fbPlanErr, 4),
      (b2n (s.rearmPend t), 5)]
  else if 0x50 ≤ o ∧ o < 0x90 then
    let x := s.tdom ((o - 0x50) / 16)
    if o % 16 = 12 then word x.cnt else todWord x.t (o % 16)
  else if 0x90 ≤ o ∧ o < 0xD0 then
    let x := tget (fun _ => Capture.zero) s.time.caps ((o - 0x90) / 16)
    if o % 16 = 12 then pack [(x.seq % 65536, 0), (x.dom % 4, 16), (b2n x.overwrite, 20), (b2n x.novalid, 21)]
    else todWord (x.t * 1280) (o % 16)
  else if 0xD0 ≤ o ∧ o < 0xE0 then tget (fun _ => 0) s.time.uart ((o - 0xD0) / 4)
  else if 0xE0 ≤ o ∧ o < 0x100 then
    let v := s64 (s.tdom ((o - 0xE0) / 8)).stepLast
    if o % 8 = 0 then lo32 v else hi32 v
  else 0

/-- VLINK (R270, R271). -/
def State.vlinkValue (s : State) (o : Nat) : Word :=
  let x := s.link (o % 32 / 4)
  if 0x40 ≤ o ∧ o < 0x60 then
    pack [(x.state.code, 0), (x.cfgErr % 8, 4), (x.dnuLeft % 8, 8), (b2n x.hostOk, 11)]
  else if 0x60 ≤ o ∧ o < 0x80 then word (x.markOfs % 2 ^ 20)
  else if 0x80 ≤ o ∧ o < 0xA0 then pack [(x.lastSeq % 65536, 0), (x.lastQl % 16, 16), (x.lastState % 8, 20)]
  else 0

/-- SCHED (R303, R304). -/
def State.schedValue (s : State) (o : Nat) : Word :=
  let b := s.board
  match o with
  | 0x40 => pack [(b.state.code, 0), (b.varNow % 4, 4), (b.varReq % 4, 6), (b2n b.essOver, 8), (b2n b.v3Forced, 9),
      (b2n b.overrunLast, 10), (b.actLeft % 32, 16)]
  | 0x44 => pack [(b.bookState.code, 0), (b.verifyCode % 16, 8), (b2n b.warmOk, 12)]
  | 0x48 => word b.run.id
  | 0x4C => word b.run.ver
  | 0x50 => word b.run.proto
  | 0x54 => word b.run.layout
  | 0x58 => if b.storedRead then word b.stored.id else 0
  | 0x5C => if b.storedRead then word b.stored.ver else 0
  | 0x60 => if b.storedRead then word b.stored.layout else 0
  | 0x64 => word (s.lenRun % 2 ^ 17)
  | 0x68 => word (b.barLast % 2 ^ 17)
  | 0x6C => word (b.temposLast % 2 ^ 17)
  | 0x70 => word (b.temposMin % 2 ^ 17)
  | 0x74 => word b.loadLen
  | 0x78 => word b.verifyOfs
  | _ => 0

/-- CELL (R305, R306). -/
def State.cellValue (s : State) (o : Nat) : Word :=
  if 0x40 ≤ o ∧ o < 0xC0 then
    let c := s.cell ((o - 0x40) / 4)
    pack [(c.state.code, 0), (c.logical % 32, 4), (b2n c.katOk, 9), (c.testResult % 4, 10), (c.lastCause % 16, 16)]
  else if o = 0xC0 then word (bitsOf ((List.range 15).filter s.simplex))
  else if o = 0xC4 then pack [(s.board.faultCell % 32, 0), (s.board.faultBit % 16, 8)]
  else 0

/-- PAIR (R332, R333). -/
def State.pairValue (s : State) (o : Nat) : Word :=
  let p := s.pair
  match o with
  | 0x40 => pack [(p.role.code, 0), (b2n p.bound, 2), (b2n p.linkUp, 3), (b2n p.aligned, 4), (b2n p.cfgMatch, 5),
      (b2n p.verOk, 6), (b2n p.lost, 7), (b2n p.castleBusy, 8), (b2n (s.page pairPage).prop.isSome, 9),
      (p.syncStep % 8, 12), (p.lastCause % 16, 16)]
  | 0x44 => pack [(p.partnerMinor % 256, 0), (p.partnerMajor % 256, 8), (p.partnerRole % 4, 16), (p.partnerRoom % 256, 24)]
  | 0x48 => sword p.alignErr
  | 0x4C => lo32 (s64 p.off)
  | 0x50 => hi32 (s64 p.off)
  | 0x54 => lo32 s.sec.ownUid
  | 0x58 => hi32 s.sec.ownUid
  | 0x5C => word p.recLast
  | 0x60 => word (p.recSize % 8192)
  | 0x91C => lo32 p.boundUid
  | 0x920 => hi32 p.boundUid
  | _ => 0

/-- CLI_PARENT (R362). -/
def parentWord (a : Option Announce) : Word :=
  match a with
  | some a => pack [(a.utcOfs % 65536, 0), (a.clockClass % 256, 16), (b2n a.timeTraceable, 24), (b2n a.utcValid, 25),
      (b2n a.leap61, 26), (b2n a.leap59, 27), (b2n a.ptpTimescale, 28)]
  | none => 0

/-- The four registers of client instance `i` (R362, R363). -/
def State.clientValue (s : State) (i o : Nat) : Word :=
  let c := s.client i
  let ns := c.fullOfs.tdiv 65536
  match o with
  | 0x0 => pack [(c.state.code, 0), (b2n (s.clientReceives i), 3), (b2n (s.clientOk i), 4),
      ((match c.parent with | some a => a.entry % 2 | none => 0), 5), (b2n c.cfgErr, 6), (min c.exchanges 255, 16)]
  | 0x4 => sword (ns.tdiv 1000000000)
  | 0x8 => sword (ns.tmod 1000000000)
  | _ => parentWord c.parent

/-- TSVC (R362, R363). -/
def State.tsvcValue (s : State) (o : Nat) : Word :=
  let v := s.svc
  match o with
  | 0x40 => pack [(v.ctrl.code, 0), (v.keyCur % 4, 2), (bitsOf ((List.range 4).filter fun k => (s.keySlot k).valid), 4),
      (b2n v.keyMismatch, 8), (b2n v.capActive, 9), (b2n v.fwBusy, 10), (v.fwResult % 4, 12)]
  | 0x44 => word v.fwVersion
  | 0x48 => word (s.capNow % 65536)
  | 0x4C => pack [((v.grants.length) % 4096, 0), (s.eventLoad % 2 ^ 20, 12)]
  | _ => if 0x50 ≤ o ∧ o < 0x90 then s.clientValue ((o - 0x50) / 16) (o % 16) else 0

/-- PORTS (R364, R365), and the status and the free space of the host frame queues (R340). -/
def State.portsValue (s : State) (o : Nat) : Word :=
  if 0x40 ≤ o ∧ o < 0x80 then
    let x := s.port ((o - 0x40) / 16)
    match o % 16 with
    | 0 => pack [(b2n x.linkUp, 0), (b2n x.cdrLock, 1), (b2n x.fecLock, 2), (b2n x.txHeld, 3), (b2n x.svcStop, 4),
        (b2n x.cfgErr, 5)]
    | 4 => word x.txLat
    | 8 => word x.rxLat
    | _ => 0
  else if o = 0x914 then s.rxStatus
  else if o = 0x918 then s.readRx.1
  else if o = 0x920 then word s.txFree
  else 0

/-- BUDGET (R378, R379). -/
def State.budgetValue (s : State) (o : Nat) : Word :=
  let b := s.budget
  match o with
  | 0x40 => pack [(b.pstate.code, 0), (b.level % 4, 4), (b.lt % 4, 8), (b.ls % 4, 10), (b.le % 4, 12), (b2n b.throttle, 14),
      (b2n b.floorV3, 15), (b.headroom % 256, 16)]
  | 0x44 => pack [(sfield 16 b.th, 0), (b.thSensor % 8, 16)]
  | 0x68 => pack [(b.fCell / 1024 % 1024, 0), (b.fLow / 1024 % 1024, 16)]
  | 0x98 => word (min b.pEst 65535)
  | 0x9C => word (sfield 16 b.pAvg)
  | _ =>
    if 0x48 ≤ o ∧ o < 0x68 then
      let x := s.temp ((o - 0x48) / 4)
      pack [(sfield 16 x.value, 0), (b2n x.disagree, 16)]
    else if 0x6C ≤ o ∧ o < 0x94 then
      let x := tget (fun _ => Vmon.zero) b.vmon ((o - 0x6C) / 4)
      pack [(x.now % 4096, 0), (x.low % 4096, 16)]
    else 0

/-- The slot whose window ends first, with its rounds left (R445). -/
def FaultUnit.firstSlot (f : FaultUnit) : Option (Nat × Nat) :=
  f.used.foldl (fun (b : Option (Nat × Nat)) i =>
    match f.slot i, b with
    | some x, some y => if x.left < y.1 then some (x.left, i) else some y
    | some x, none => some (x.left, i)
    | none, b => b) none

/-- FAULT_STATUS (R446). -/
def State.faultStatus (s : State) : Word :=
  let f := s.fault
  pack [(b2n f.compat, 0), (b2n (f.used.length != 0), 1), (f.used.length, 2), (b2n f.queueOvf, 7), (f.queue.length % 32, 8),
    (b2n f.sweepBusy, 16), (b2n f.sweepWait, 17), (b2n f.sweepLate, 18), (b2n (s.boot.started && s.forceOpen), 19), (f.sweepStep % 256, 24)]

/-- FAULT (R445). -/
def State.faultValue (s : State) (o : Nat) : Word :=
  let f := s.fault
  match o with
  | 0x40 => s.faultStatus
  | 0xF0 => (match f.firstSlot with | some (n, i) => pack [(n % 2 ^ 20, 0), (i, 24)] | none => 0)
  | 0xF4 => word (f.cycleSecs % 2 ^ 17)
  | 0xF8 => pack [(f.bistResult % 4, 0), (f.bistType % 65536, 8)]
  | 0x934 => word (b2n f.forceEn)
  | _ =>
    if 0x60 ≤ o ∧ o < 0x80 then
      word (bitsOf ((List.range 32).filter fun i => (s.page ((o - 0x60) / 4 * 32 + i)).fault != 0))
    else if 0x80 ≤ o ∧ o < 0xB0 then
      match f.cause ((o - 0x80) / 4) with
      | some id => word (id + 2 ^ 31)
      | none => 0
    else if 0xB0 ≤ o ∧ o < 0xF0 then
      match f.slot ((o - 0xB0) / 4) with
      | some x => word (x.identity + x.repeats * 2 ^ 24 + 2 ^ 31)
      | none => 0
    else if 0x91C ≤ o ∧ o < 0x930 then
      match s.shownRec with
      | some r => word ((r.words[(o - 0x91C) / 4]?).getD 0)
      | none => 0
    else 0

/-- TGT_STATUS of a target (R420). -/
def State.tgtStatus (s : State) (g : Bool) : Word :=
  pack [(s.isl g, 0), (b2n (if g then s.irq.reqG else s.irq.reqC), 4), (b2n (s.boot.started && s.asleep g), 5), (s.nextIrq g, 8),
    (min (if g then s.irq.insvcG else s.irq.insvcC).length 15, 16)]

/-- Word `w` of a set of source numbers. -/
def bitmap (l : List Nat) (w : Nat) : Word := word (bitsOf ((List.range 32).filter fun i => l.contains (32 * w + i)))

/-- IRQ (R419, R420). The value of CLAIM is the claim's (Machine/Bus.lean). -/
def State.irqValue (s : State) (o : Nat) : Word :=
  match o with
  | 0x40 => s.tgtStatus false
  | 0x44 => s.tgtStatus true
  | _ =>
    if 0x80 ≤ o ∧ o < 0xA0 then bitmap (s.pendingOn false) ((o - 0x80) / 4)
    else if 0xA0 ≤ o ∧ o < 0xC0 then bitmap (s.pendingOn true) ((o - 0xA0) / 4)
    else if 0xC0 ≤ o ∧ o < 0xE0 then bitmap s.irq.insvcC ((o - 0xC0) / 4)
    else if 0xE0 ≤ o ∧ o < 0x100 then bitmap s.irq.insvcG ((o - 0xE0) / 4)
    else 0

/-- BP_PEND_LO, BP_PEND_HI and BP_PEND_INFO: the pending BP_SET (R464). -/
def State.bpPend (s : State) (o : Nat) : Word :=
  match (s.page nvPage).prop with
  | some q =>
    if o = 0x58 then pack [(1, 0), (b2n (q.master == 1), 1), (bits q.arg 31 16, 16)]
    else (q.data[(o - 0x50) / 4]?).getD 0
  | none => 0

/-- NV (R464, R465): the window, and the registers of the store. -/
def State.nvValue (s : State) (o : Nat) : Word :=
  let n := s.nv
  match o with
  | 0x40 => pack [(b2n (s.harvest.archBusy && s.nvWritable), 0), (b2n (n.holdupSeen && n.holdupOk), 1), (b2n n.readOnly, 2), (n.logWait.length % 32, 3)]
  | 0x44 => word n.lastUncorr
  | 0x48 => lo32 n.bp
  | 0x4C => hi32 n.bp
  | 0x50 => s.bpPend 0x50
  | 0x54 => s.bpPend 0x54
  | 0x58 => s.bpPend 0x58
  | 0x5C => lo32 n.ctrVal
  | 0x60 => hi32 n.ctrVal
  | 0x64 => word (n.ctrResult % 16)
  | 0x68 => pack [(n.logSlot % 65536, 0), (n.logSeq % 65536, 16)]
  | _ => if 0x980 ≤ o ∧ o < 0xA00 then word (s.nvHostWord (s.winAddr ((o - 0x980) / 4))) else 0

/-- The proposal that PEND_INFO shows: the page's pending command, else its lock proposal. -/
def State.secPend (s : State) : Option Proposal :=
  match (s.page secPage).prop with
  | some q => some q
  | none => (s.page secPage).lockProp

/-- Milliseconds left of a proposal's 2 s window (R476). -/
def Proposal.msLeft (q : Proposal) : Nat := 2000 - q.age / 8

/-- SEC (R479, R480). -/
def State.secValue (s : State) (o : Nat) : Word :=
  let x := s.sec
  match o with
  | 0x40 => pack [(x.lc.code, 0), (s.dbgNow, 4), (x.dbgSet % 4, 6), (b2n (s.boot.started && s.dbgNow != 0), 8), (b2n s.secPend.isSome, 9),
      (x.svcEntries % 16, 16), (b2n (x.copyA && s.boot.started), 20), (b2n (x.copyB && s.boot.started), 21)]
  | 0x44 => pack ((List.range 4).map fun k => ((s.keyState k).code, 2 * k))
  | 0x48 => pack [(x.bookMin % 64, 0), (x.fwMin % 64, 8)]
  | 0x4C =>
    (match s.secPend with
    | some q => pack [(q.code % 256, 0), (b2n (q.master == 1), 8), (b2n (q.master == 2), 9), (bits q.arg 31 16, 16)]
    | none => 0)
  | 0x50 => (match s.secPend with | some q => q.arg | none => 0)
  | 0x54 => (match s.secPend with | some q => word q.msLeft | none => 0)
  | 0x58 => pack [(x.fwVerify % 16, 0), (x.fwSlot % 4, 4), (s.board.run.slot % 4, 8)]
  | 0x5C => word x.fwVer
  | _ => 0

/-- The status, result and direct registers of page `p` that are no plain storage. -/
def State.unitValue (s : State) (m p o : Nat) : Word :=
  match pageKind p with
  | .sys => s.sysValue m o
  | .osc => s.oscValue o
  | .stamp => s.stampValue (p - 0x10) o
  | .tim => s.timValue (p - 0xC0) o
  | .harvest => s.harvestValue o
  | .qual => s.qualValue (p - 0x40) o
  | .dom => s.domValue (p - 0x70) o
  | .syn => s.synValue (p - 0x80) o
  | .out => s.outValue (p - 0x90) o
  | .time => s.timeValue o
  | .vlink => s.vlinkValue o
  | .sched => s.schedValue o
  | .cell => s.cellValue o
  | .pair => s.pairValue o
  | .tsvc => s.tsvcValue o
  | .ports => s.portsValue o
  | .budget => s.budgetValue o
  | .fault => s.faultValue o
  | .irq => s.irqValue o
  | .nv => s.nvValue o
  | .sec => s.secValue o
  | .none => 0

/-- The counter area of page `p` (R388, R403): LO at the lower address; CMD_REFUSALS is one word. -/
def State.counterValue (s : State) (p o : Nat) : Word :=
  let k := pageKind p
  if o = k.refusals then lo32 (s.counter p o)
  else if o % 8 = 0 then lo32 (s.counter p o)
  else if o % 8 = 4 ∧ o - 4 ≠ k.refusals then hi32 (s.counter p (o - 4))
  else 0

/-- What a configuration register shows: CFG_AUX of a context only the fields that MODE of the same set gives it (R13,
R100). -/
def cfgShown (k : PageKind) (get : Nat → Word) (o : Nat) : Word :=
  if k = .tim ∧ o % 16 = 12 then timAux (get (o - 12)) (get o) else get o

/-- What register `o` of page `p` shows to master `m` (R388); reserved and unimplemented locations read 0 (R391). -/
def State.regValue (s : State) (m p o : Nat) : Word :=
  let k := pageKind p
  if k = .none ∨ o % 4 ≠ 0 then 0
  else if o < 0x40 then s.commonValue p o
  else if o < 0x100 then s.unitValue m p o
  else if o < 0x500 then cfgShown k (s.cfg p) (o - 0x100)
  else if o < 0x900 then cfgShown k (s.shadowCfg p) (o - 0x500)
  else if o = 0x90C then (if k = .osc then 0 else s.arg p m)
  else if o = 0x910 then (s.cmdStatus p m).toWord
  else if o < 0x914 then 0
  else if o < 0xA00 then (if (dirReg k o).mask = 0 then s.unitValue m p o else s.dir p o)
  else if o < 0xF00 then (if k = .tim ∧ o < 0xD00 then s.unitValue m p o else s.counterValue p o)
  else 0

/-! ### Snapshot groups (R403) -/

/-- The words that a read of `o` on a page snapshots beside itself; none where `o` is no origin. -/
def snapGroup (k : PageKind) (o : Nat) : List Nat :=
  let next (n : Nat) : List Nat := (List.range n).map fun i => o + 4 * (i + 1)
  if k = .tim ∧ 0xA00 ≤ o ∧ o < 0xD00 then (if o % 16 = 0 then next 3 else [])
  else if 0xA00 ≤ o ∧ o < 0xF00 then (if o % 8 = 0 ∧ o ≠ k.refusals then next 1 else [])
  else
    match k with
    | .sys => if o = 0x48 ∨ o = 0x50 then next 1 else []
    | .stamp => if o = 0x60 then next 3 else []
    | .tim | .harvest => if o = 0x918 then next 1 else []
    | .qual => if o = 0x50 then next 1 else []
    | .dom => if o = 0x44 ∨ o = 0x4C ∨ o = 0x88 then next 1 else if o = 0x64 then next 5 else []
    | .syn => if o = 0x44 ∨ o = 0x4C then next 1 else []
    | .time =>
      if 0x50 ≤ o ∧ o < 0xD0 ∧ o % 16 = 0 then next 3 else if 0xE0 ≤ o ∧ o < 0x100 ∧ o % 8 = 0 then next 1 else []
    | .pair => if o = 0x4C then next 1 else []
    | .tsvc => if 0x54 ≤ o ∧ o < 0x90 ∧ o % 16 = 4 then next 2 else []
    | .fault => if o = 0x91C then next 4 else []
    | .nv => if o = 0x50 ∨ o = 0x5C then next 2 else []
    | .sec => if o = 0x4C then next 2 else []
    | _ => []

/-- The origin read last by master `m` on page `p` covers `o`: the held copy. -/
def State.heldWord (s : State) (p m o : Nat) : Option Word :=
  match tget (fun _ => none) (s.page p).holds m with
  | some (h : Hold) => (h.words.find? fun e => e.1 == o).map (·.2)
  | none => none

/-- Copy the group of origin `o` into the holding set of master `m`. -/
def State.hold (s : State) (p m o : Nat) : State :=
  match snapGroup (pageKind p) o with
  | [] => s
  | g =>
    let h : Hold := { origin := o, words := g.map fun a => (a, s.regValue m p a) }
    s.setPage p fun x => { x with holds := tput (fun _ => none) x.holds m (some h) }

end Sys2Proof.Machine
end

