-- ==== Sys2Proof/Machine/Delivery.lean ====
section
/-! DEFINITION. What the hosts do with interrupts (R409 to R417): CLAIM, COMPLETE, SW_SET, TGT_CTRL and fallback. -/

namespace Sys2Proof.Machine

def irqPage : Nat := 0x04

/-- Number `n` goes into service on a target, and its edge latch clears (R412). -/
def Irq.take (q : Irq) (g : Bool) (n : Nat) : Irq :=
  let q := if n = 1 then (if g then { q with fatalG := false } else { q with fatalC := false })
    else { q with latched := q.latched.filter fun i => i != n }
  if g then { q with insvcG := q.insvcG ++ [n] } else { q with insvcC := q.insvcC ++ [n] }

/-- A read of CLAIM by master `m`: the word and the state after it (R412). -/
def State.claim (s : State) (m : Nat) : Word × State :=
  if 2 ≤ m then (0, s)
  else
    let g := m == 1
    let n := s.nextIrq g
    if n = 0 then (0, s.bump irqPage 0xA10)
    else (pack [(n, 0), (s.prio n, 8)], (s.setIrq fun q => q.take g n).bump irqPage (if g then 0xA08 else 0xA00))

/-- BAD_COMPLETE: the write is ignored and counted (R413). -/
def State.badComplete (s : State) : State := (s.bump irqPage 0xA28).event irqPage 0

/-- A write of COMPLETE by master `m` (R413). A completed number returns to its own target and waits a new SLEEP_TO
(R417); a COMPLETE of the control host that leaves its request asserted sends an MSI (R415). -/
def State.completeIrq (s : State) (m : Nat) (v : Word) : State :=
  let n := bits v 7 0
  if m = 0 ∧ s.irq.insvcC.contains n then
    (s.setIrq fun q => { q with
      insvcC := q.insvcC.filter fun i => i != n
      moved := q.moved.filter fun i => i != n
      waits := tput (fun _ => 0) q.waits n 0 }).settle true
  else if m = 1 ∧ s.irq.insvcG.contains n then
    s.setIrq fun q => { q with
      insvcG := q.insvcG.filter fun i => i != n
      moved := q.moved.filter fun i => i != n
      waits := tput (fun _ => 0) q.waits n 0 }
  else s.badComplete

/-- SW_SET: bit i fires SW[i], source 248 + i (R409). -/
def State.swSet (s : State) (v : Word) : State :=
  ((List.range 8).filter fun i => bit v i).foldl (fun s i => s.latchIrq (248 + i)) s

/-- TGT_CTRL: clearing SLEEP_C or setting C_MSI while the request is asserted sends an MSI (R415). -/
def State.writeTgt (s : State) (v : Word) : State :=
  let old := s.dir irqPage 0x924
  let s := s.setDir irqPage 0x924 v
  s.settle ((bit old 0 && !bit v 0) || (bit v 8 && !bit old 8))

/-- FALLBACK_EN of TGT_CTRL. -/
def State.fallbackEn (s : State) : Bool := bit (s.dir irqPage 0x924) 4

/-- Source `n` is eligible on its own target, which is asleep while the other is awake: it may move (R417). -/
def State.mayMove (s : State) (n : Nat) : Bool :=
  let g := s.ownG n
  s.fallbackEn && n != 1 && !s.irq.moved.contains n && s.asleep g && !s.asleep (!g) && (s.eligible g).contains n

/-- Source `n` moves to the other target. -/
def State.moveIrq (s : State) (n : Nat) : State :=
  if s.mayMove n then
    ((s.setIrq fun q => { q with moved := q.moved ++ [n], waits := tput (fun _ => 0) q.waits n 0 }).bump irqPage
      0xA18).event irqPage 1
  else s

/-- SLEEP_TO in rounds. -/
def State.sleepRounds (s : State) : Nat := 8 * max 1 (bits (s.dir irqPage 0x928) 15 0)

/-- A swap that changes TARGET: a source is judged on its new target, and a wait on the old one is void (R416). -/
def State.retarget (old s : State) : State :=
  s.setIrq fun q => { q with
    moved := q.moved.filter fun n => old.ownG n == s.ownG n
    waits := q.waits.filter fun e => old.ownG e.1 == s.ownG e.1 }

/-- A round passes: sources eligible on an asleep target without a break count, and move when SLEEP_TO is reached. -/
def State.fallbackRound (s : State) : State :=
  if s.fallbackEn = false then s.setIrq fun q => { q with waits := [] }
  else
    let l := (s.eligible false ++ s.eligible true).filter fun n =>
      n != 1 && !s.irq.moved.contains n && s.asleep (s.ownG n)
    let w := l.foldl (fun t n => tput (fun _ => 0) t n (tget (fun _ => 0) s.irq.waits n + 1)) []
    let s := s.setIrq fun q => { q with waits := w }
    l.foldl (fun s n => if s.sleepRounds ≤ tget (fun _ => 0) s.irq.waits n then s.moveIrq n else s) s

/-! ### The rows -/

/-- CLAIM. -/
def execClaim (m : Master) (s : State) : Host.Outcome State Fault Refusal :=
  finish <| s.onRead irqPage (masterCode m) fun (s : State) =>
    let (w, s) := s.claim (masterCode m)
    ([w], s)

/-- COMPLETE. -/
def execComplete (m : Master) (value : Word) (s : State) : Host.Outcome State Fault Refusal :=
  finish (s.onWrite irqPage (masterCode m) fun s => s.completeIrq (masterCode m) value)

/-- SW_SET. -/
def execSwSet (m : Master) (value : Word) (s : State) : Host.Outcome State Fault Refusal :=
  finish (s.onWrite irqPage (masterCode m) fun s => s.swSet value)

/-- TGT_CTRL. -/
def execTgtCtrl (m : Master) (value : Word) (s : State) : Host.Outcome State Fault Refusal :=
  finish (s.onWrite irqPage (masterCode m) fun s => s.writeTgt value)

/-- FALLBACK: SLEEP_TO has passed for source `n`. -/
def execFallback (n : Fin 256) (s : State) : Host.Outcome State Fault Refusal := finish (s.moveIrq n)

end Sys2Proof.Machine
end

