-- ==== Sys2Proof/Machine/Sets.lean ====
section
/-! DEFINITION. Configuration sets (R397 to R399): SWAP_SETS, at once or timed, SWAP_CANCEL and COPY_SETS; the other SYS
commands (R407). -/

namespace Sys2Proof.Machine

def sysPage : Nat := 0x00

/-- The LCK registers of locked pages that either set lists (R394). -/
def State.lockedCfg (s : State) : List Nat :=
  (s.active.map (·.1) ++ s.shadow.map (·.1)).filter fun a => (s.page (a / 0x1000)).lockCfg && (cfgAt a).lck != 0

/-- Take the values of `keys` from another table. -/
def restoreKeys (keys : List Nat) (from_ t : Table Word) : Table Word :=
  keys.foldl (fun t a => tput cfgReset t a (tget cfgReset from_ a)) t

/-- The exchange of the active and shadow sets of every page; locked LCK fields stay in both (R394, R398). -/
def State.exchange (s : State) : State :=
  let keys := s.lockedCfg
  { s with active := restoreKeys keys s.active s.shadow, shadow := restoreKeys keys s.shadow s.active }

/-- COPY_SETS: every active set into its shadow set, locked fields excepted (R399). -/
def State.copySets (s : State) : State := { s with shadow := restoreKeys s.lockedCfg s.shadow s.active }

/-- Refusals of a SYS command; RESET has its own (R407). -/
def State.sysChecks (s : State) (code : Nat) (arg : Word) : Checks :=
  match code with
  | 1 => { arg := bit arg 0 && decide (1000000000 ≤ (s.dir sysPage 0x91C).toNat)
           busy := s.busy sysPage || s.swapWaits || s.sys.copyPend, state := s.dormant }
  | 2 => { busy := s.busy sysPage, state := !s.sys.timed.isSome }
  | 3 => { busy := s.busy sysPage || s.swapWaits || s.sys.copyPend, lock := (s.page sysPage).lockCmd, state := s.dormant }
  | _ => { arg := true }

/-- The instant of a timed swap, as SWAP_AT holds it. -/
def State.swapAt (s : State) : List Word := [s.dir sysPage 0x914, s.dir sysPage 0x918, s.dir sysPage 0x91C]

/-- Issue SWAP_SETS or COPY_SETS, which wait for the boundary, or SWAP_CANCEL, which acts at once. -/
def State.sysIssue (s : State) (m code : Nat) (arg : Word) : State :=
  let c := s.sysChecks code arg
  if code = 2 then
    s.immediate sysPage m 2 c fun s => s.setSys fun x => { x with timed := none, swapPend := false }
  else if c.result = 0 then
    let s := s.accept sysPage m code arg s.swapAt
    if code = 3 then s.setSys fun x => { x with copyPend := true } else s.setSys fun x => { x with swapLate := false }
  else s.refuse sysPage m code c.result

/-- A write of `code` to the CMD register of SYS. -/
def State.sysCommand (s : State) (m code : Nat) : State :=
  if code = 0x10 then s.sysReset m (bits (s.arg sysPage m) 3 0)
  else s.onWrite sysPage m fun (s : State) => s.sysIssue m code (s.arg sysPage m)

/-- The instant of a timed swap in units of T. -/
def TimedSwap.instant (w : TimedSwap) : Int := (w.sec : Int) * secUnits + (w.ns : Int) * nsUnits

/-- The swap is late when it is armed: its domain's time is valid and has passed the instant (R398). -/
def State.swapPast (s : State) (w : TimedSwap) : Bool :=
  (s.tdom w.dom).valid && s.reached w.dom w.utc w.instant (s.tdom w.dom).t

/-- SWAP_LATE. -/
def State.swapIsLate (s : State) : State :=
  (s.setSys fun x => { x with swapPend := true, swapLate := true }).event sysPage 1

/-- The pending SYS command at its boundary: whether an exchange falls here, whether a copy does, and a timed swap is
armed. -/
def State.sysApply (s : State) : State × Bool × Bool :=
  match (s.page sysPage).pend with
  | none => (s, false, false)
  | some q =>
    let again : Nat := (s.sysChecks q.code q.arg).again
    let d (i : Nat) : Nat := ((q.data[i]?).getD 0).toNat
    let s := s.settleCmd sysPage again fun q s =>
      if q.code = 1 ∧ bit q.arg 0 then
        let w : TimedSwap := { dom := bits q.arg 2 1, utc := bit q.arg 3, sec := d 1 % 65536 * 2 ^ 32 + d 0, ns := d 2 }
        let s := s.setSys fun x => { x with timed := some w }
        if s.swapPast w then s.swapIsLate else s
      else s
    let s := s.setSys fun x => { x with copyPend := false }
    (s, again == 0 && q.code == 1 && !bit q.arg 0, again == 0 && q.code == 3)

/-- An exchange takes place at the boundary with count `n` (R398). -/
def State.swapNow (s : State) (n : Nat) : State :=
  ((s.exchange.setSys fun x => { x with
    swapPend := false, swapTrg := false, timed := if x.swapPend then none else x.timed
    lastSwap := n % 65536 }).bump sysPage 0xA20).event sysPage 0

/-- COPY_DONE. -/
def State.copyNow (s : State) : State := s.copySets.event sysPage 2

/-- The board finds, in the round before it, that a timed swap falls at the next boundary (R27, R398). -/
def State.timedSwapRound (s : State) : State :=
  match s.sys.timed with
  | some w =>
    if (s.tdom w.dom).valid ∧ s.reached w.dom w.utc w.instant ((s.tdom w.dom).t + round8 - (s.dom w.dom).slope) then
      s.setSys fun x => { x with swapPend := true }
    else s
  | none => s

/-! ### The rows -/

/-- SWAP_SETS, untimed. -/
def execSwapSets (m : Master) (s : State) : Host.Outcome State Fault Refusal :=
  finish <| s.onWrite sysPage (masterCode m) fun (s : State) =>
    s.sysIssue (masterCode m) 1 (s.arg sysPage (masterCode m) &&& ~~~(1 : Word))

/-- SWAP_SETS, timed. -/
def execSwapSetsTimed (m : Master) (s : State) : Host.Outcome State Fault Refusal :=
  finish <| s.onWrite sysPage (masterCode m) fun (s : State) =>
    s.sysIssue (masterCode m) 1 (s.arg sysPage (masterCode m) ||| 1)

/-- SWAP_CANCEL. -/
def execSwapCancel (m : Master) (s : State) : Host.Outcome State Fault Refusal := finish (s.sysCommand (masterCode m) 2)

/-- COPY_SETS. -/
def execCopySets (m : Master) (s : State) : Host.Outcome State Fault Refusal := finish (s.sysCommand (masterCode m) 3)

end Sys2Proof.Machine
end

