-- ==== Sys2Proof/Machine/Bus.lean ====
section
/-! DEFINITION. Register accesses (chapter 14): addresses and aliases, what a write does under its access code, commands
by their codes, the guarded protocol, and reads with what they hold and change. -/

namespace Sys2Proof.Machine

/-! ### Commands by page and code (R400) -/

/-- Commands that must be guarded writes (R241, R308, R434, R443, R461, R478, R484). -/
def guardedCommand (k : PageKind) (code : Nat) : Bool :=
  match k with
  | .sys => code == 0x10
  | .fault => code == 1 || code == 2
  | .nv => code == 4
  | .sec => decide (1 ≤ code) && decide (code ≤ 5)
  | .pair => code == 1 || code == 2
  | .time => code == 2
  | _ => false

/-- A write of `code` to CMD of page `p` issues that page's command (R400); an unknown code is REFUSED_ARG (R401). -/
def State.issue (s : State) (m p code : Nat) : State :=
  let w := masterOf m
  match pageKind p with
  | .sys => s.sysCommand m code
  | .sched => s.schedIssue w code
  | .budget => s.budgetCommand m code
  | .fault => s.faultCommand m code
  | .nv => s.nvCommand m code
  | .sec => s.secCommand m code
  | .pair => s.pairCommand w code
  | .harvest => s.harvestCommand w code
  | .time => s.timeCommand w code
  | .tsvc => s.tsvcCommand w code
  | .ports => s.portCommand w code
  | .stamp => s.stampCommand (p - 0x10) w code
  | .qual => s.qualCommand (p - 0x40) w code
  | .dom => if 0x10 ≤ code ∧ code < 0x20 then s.selCommand (p - 0x70) w code else s.domCommand (p - 0x70) w code
  | .syn => s.synCommand (p - 0x80) w code
  | .out => s.outCommand (p - 0x90) w code
  | .tim => s.timCommand (p - 0xC0) w code
  | .cell => s.cellCommand w code
  | .irq | .vlink => s.onWrite p m fun (s : State) => s.refuse p m code 2
  | .osc | .none => s

/-! ### Writes -/

/-- A write to a shadow register (R397): LOCK_WRITE where a lock covers it, else its implemented bits. PRIO 15 of an
interrupt source counts as 14, and the source of FATAL ignores writes (R410). -/
def State.writeShadow (s : State) (m access p o : Nat) (v : Word) : State :=
  let a := p * 0x1000 + (o - 0x400)
  let r := cfgAt a
  if r.mask = 0 then s
  else if (s.page p).lockCfg ∧ r.lck ≠ 0 then s.lockWrite m access (p * 0x1000 + o)
  else if pageKind p = .irq then
    (if o = 0x504 then s else s.setShadow a (if bits v 3 0 = 15 then v - 1 else v))
  else s.setShadow a v

/-- The offset is UTC_OFS or LEAP of a time domain: a STANDBY ignores writes to them (R327). -/
def timeRoleReg (o : Nat) : Bool := decide (0x9B0 ≤ o) && decide (o < 0x9D0)

/-- A write to a direct control (R14, R404, R405). -/
def State.writeDirect (s : State) (m access p o : Nat) (v : Word) : State :=
  let k := pageKind p
  let a := p * 0x1000 + o
  if (dirReg k o).lck ≠ 0 ∧ (s.page p).lockCfg then s.lockWrite m access a
  else
    match k with
    | .time =>
      if timeRoleReg o ∧ s.standby then s.event pairPage 7
      else if s.time.dev.contains o then s
      else if 0x920 ≤ o ∧ o < 0x9A0 ∧ o % 16 = 12 then
        s.setDir p o (v &&& ~~~(word (2 ^ 24)) ||| (s.dir p o &&& word (2 ^ 24)))
      else s.setDir p o v
    | .irq =>
      if o = 0x918 then s.completeIrq m v else if o = 0x924 then s.writeTgt v else if o = 0x92C then s.swSet v
      else s.setDir p o v
    | .sched => if o = 0x914 then s.bookWord v else s
    | .tsvc =>
      if 0x918 ≤ o ∧ o < 0x938 then
        s.setSvc fun x => { x with keyData := tput (fun _ => 0) x.keyData ((o - 0x918) / 4) v }
      else s.setDir p o v
    | .ports =>
      if o = 0x91C then s.popRx v else if o = 0x920 then s.startTx v else if o = 0x924 then s.writeTx v else s
    | .fault =>
      if o = 0x914 then s.ack v else if o = 0x930 then s.release v else s.setDir p o v
    | .nv => if 0x980 ≤ o ∧ o < 0xA00 then s.writeWin m ((o - 0x980) / 4) v else s.setDir p o v
    | _ => s.setDir p o v

/-- A GRD register: PAGE_LOCK, FORCE_EN and AGE_ADJ; a guarded command counts as one (R392, R400). -/
def isGuarded (k : PageKind) (o : Nat) (v : Word) : Bool :=
  o == 0x01C || (k == .fault && o == 0x934) || (k == .osc && o == 0x914)
    || (o == 0x908 && guardedCommand k v.toNat)

/-- Stage a value for a master. -/
def State.stage (s : State) (m p o : Nat) (v : Word) : State := s.setStaged m (some { page := p, off := o, value := v })

/-- A guarded value takes effect (R392). -/
def State.commit (s : State) (m : Nat) (g : Staged) : State :=
  let a := g.page * 0x1000 + g.off
  if g.off = 0x01C then s.writeLock g.page m g.value
  else if g.off = 0x908 then s.issue m g.page g.value.toNat
  else if (s.page g.page).lockCfg then s.lockWrite m 3 a
  else if g.off = 0x934 then s.setFault fun f => { f with forceEn := bit g.value 0 }
  else s.setDir g.page g.off (sword (iclamp (signed 24 g.value.toNat) (-5000000) 5000000))

/-- A write to GUARD of page `p` (R392). -/
def State.guardWrite (s : State) (m p : Nat) (v : Word) : State :=
  match s.stagedOf m with
  | none => s.guardFail m 4 (p * 0x1000 + 0x900)
  | some g =>
    let s := s.setStaged m none
    if g.page = p ∧ v = ~~~g.value then s.commit m g else s.guardFail m 4 (p * 0x1000 + 0x900)

/-- The 1 µs of a staged value passes (R392). -/
def State.expireStaged (s : State) (m : Nat) : State := s.access m

/-- A write to register `o` of page `p`, under its access code (R14, R388); `access` is 1, or 2 through an alias. -/
def State.regWrite (s : State) (m access p o : Nat) (v : Word) : State :=
  let k := pageKind p
  if k = .none ∨ o % 4 ≠ 0 then s
  else if isGuarded k o v then s.stage m p o v
  else if o = 0x008 then s.setPage p fun g => { g with evtIrqEn := bit v 0 }
  else if o = 0x00C then s.setPage p fun g => { g with event := g.event &&& ~~~v }
  else if o = 0x010 then s.setPage p fun g => { g with eventEn := v }
  else if o = 0x014 then s.setPage p fun g => { g with fault := g.fault &&& ~~~v }
  else if o = 0x018 then s.force m access (p * 0x1000 + 0x018) p v
  else if o < 0x100 then
    (if k = .tim ∧ 0x40 ≤ o ∧ bit v 4 then
      s.setTim (48 * (p - 0xC0) + (o - 0x40) / 4) fun t => { t with done := false }
     else s)
  else if o < 0x500 then s
  else if o < 0x900 then s.writeShadow m access p o v
  else if o = 0x908 then s.issue m p v.toNat
  else if o = 0x90C then (if k = .osc then s else s.setArg p m v)
  else if 0x914 ≤ o ∧ o < 0xA00 then s.writeDirect m access p o v
  else s

/-! ### Accesses by address (R381, R391, R396) -/

/-- A write of data bit 0 to a bit alias, under the register's own access code (R396). -/
def State.aliasBit (s : State) (m p o b : Nat) (d : Bool) : State :=
  let one := word (2 ^ b)
  if pageKind p = .none then s
  else if o = 0x01C then s.lockWrite m 2 (aliasAddr p o b)
  else if o = 0x018 then (if d then s.force m 2 (aliasAddr p o b) p one else s)
  else if o = 0x008 ∨ o = 0x010 then
    let old := s.commonValue p o
    s.regWrite m 2 p o (if d then old ||| one else old &&& ~~~one)
  else if d then s.regWrite m 2 p o one
  else s

/-- The page of a target answers (R368). -/
def State.answers (s : State) (t : Target) : Bool := match t.page with | some p => s.reaches p | none => true

/-- A write by master `m` to a register address (R14, R381, R391). A write to GUARD keeps the staged value for its
comparison; any other access discards it (R392). -/
def State.writeAt (s : State) (m addr : Nat) (v : Word) : State :=
  if s.boot.released = false then s
  else if s.mayAccess m true = false then s.tpDenied
  else
    let t := targetOf addr
    if s.answers t = false then s.access m
    else
      match t with
      | .reg p o =>
        if o = 0x900 ∧ pageKind p ≠ .none then s.guardWrite m p v else (s.access m).regWrite m 1 p o v
      | .bitAlias p o b => (s.access m).aliasBit m p o b (bit v 0)
      | .nothing => s.access m

/-! ### Reads -/

/-- What a plain read changes: the free instant of COARSE_NOW is used up, and a capture counts as read. -/
def State.afterRead (s : State) (p o : Nat) : State :=
  match pageKind p with
  | .sys => if o = 0x50 ∨ o = 0x54 then s.nextFree else s
  | .time =>
    if 0x90 ≤ o ∧ o < 0xD0 ∧ o % 16 = 0 then
      { s with time := { s.time with
        caps := tmod (fun _ => Capture.zero) s.time.caps ((o - 0x90) / 16) fun x => { x with unread := false } } }
    else s
  | _ => s

/-- A read of register `o` of page `p` by master `m`: CLAIM and HQ_RX_DATA act; a snapshot word whose origin was the
last one read shows its held copy; an origin fills the holding set (R340, R403, R412). -/
def State.regRead (s : State) (m p o : Nat) : Word × State :=
  let k := pageKind p
  if k = .irq ∧ o = 0x914 then s.claim m
  else if k = .ports ∧ o = 0x918 then s.readRx
  else
    match s.heldWord p m o with
    | some w => (w, s)
    | none => (s.regValue m p o, (s.hold p m o).afterRead p o)

/-- A read by master `m` of a register address. -/
def State.readAt (s : State) (m addr : Nat) : Word × State :=
  if s.boot.released = false then (0, s)
  else if s.mayAccess m false = false then (0, s.tpDenied)
  else
    let s := s.access m
    let t := targetOf addr
    if s.answers t = false then (0, s)
    else
      match t with
      | .reg p o => s.regRead m p o
      | .bitAlias p o b => (if bit (s.regValue m p o) b then 1 else 0, s.afterRead p o)
      | .nothing => (0, s)

/-- Reads of several addresses in order. -/
def State.readMany (m : Nat) : List Nat → State → List Word × State
  | [], s => ([], s)
  | a :: t, s =>
    let (w, s) := s.readAt m a
    let (ws, s) := State.readMany m t s
    (w :: ws, s)

/-- Writes of several words in order. -/
def State.writeMany (m : Nat) (l : List (Nat × Word)) (s : State) : State :=
  l.foldl (fun s e => s.writeAt m e.1 e.2) s

/-! ### The rows -/

/-- GUARDED_WRITE: a write to a GRD register or of a guarded command. -/
def execGuardedWrite (m : Master) (page : Fin 256) (off : Fin 4096) (value : Word) (s : State) :
    Host.Outcome State Fault Refusal := finish (s.writeAt (masterCode m) (regAddr page off) value)

/-- GUARD: a write to the page's GUARD register. -/
def execGuard (m : Master) (page : Fin 256) (value : Word) (s : State) : Host.Outcome State Fault Refusal :=
  finish (s.writeAt (masterCode m) (regAddr page 0x900) value)

/-- GUARD_FAIL: the 1 µs of the master's staged value passes. -/
def execGuardFail (m : Master) (s : State) : Host.Outcome State Fault Refusal := finish (s.expireStaged (masterCode m))

/-- ALIAS_WRITE. -/
def execAliasWrite (m : Master) (addr : Nat) (value : Word) (s : State) : Host.Outcome State Fault Refusal :=
  finish (s.writeAt (masterCode m) addr value)

/-- SNAPSHOT_READ: a read of a register, as a rule of an origin. -/
def execSnapshotRead (m : Master) (page : Fin 256) (off : Fin 4096) (s : State) : Host.Outcome State Fault Refusal :=
  let (w, s) := s.readAt (masterCode m) (regAddr page off)
  finish (s.setSys fun x => { x with reply := [w] })

/-- REGISTER_WRITE. -/
def execRegisterWrite (m : Master) (page : Fin 256) (off : Fin 4096) (value : Word) (s : State) :
    Host.Outcome State Fault Refusal := finish (s.writeAt (masterCode m) (regAddr page off) value)

/-- CMD_UNKNOWN: a write to CMD. -/
def execCmdUnknown (m : Master) (page : Fin 256) (code : Word) (s : State) : Host.Outcome State Fault Refusal :=
  finish (s.writeAt (masterCode m) (regAddr page 0x908) code)

/-- BRIDGE_TIMEOUT: the access is lost, and a read returns 0. -/
def execBridgeTimeout (m : Master) (addr : Nat) (wr : Option Word) (s : State) : Host.Outcome State Fault Refusal :=
  let k := masterCode m
  if s.boot.released = false then finish s
  else if s.mayAccess k wr.isSome = false then finish s.tpDenied
  else
    let s := (s.access k).detect { page := sysPage, bit := 5, master := k, access := b2n wr.isSome, addr }
    finish (if wr.isSome then s else s.setSys fun x => { x with reply := [0] })

end Sys2Proof.Machine
end

