-- ==== Sys2Proof/Machine/Host.lean ====
section
/-! DEFINITION. The host interfaces: SPI frames (R384 to R387), PCIe memory and configuration requests (R381, R382), the
PCIe link and its reset, and the test access port (R471). -/

namespace Sys2Proof.Machine

/-! ### SPI -/

/-- The SPI STATUS byte; `bad` is bit 0 (R387). -/
def SysUnit.spiStatus (x : SysUnit) (bad : Bool) : Nat :=
  b2n bad + 2 * b2n x.spiApplied + 4 * b2n x.spiCrc + 8 * b2n x.spiLen + 16 * (x.spiCount % 16)

/-- A damaged frame: SPI_ERRS and SPI_FRAME_CRC, master 1 (R386). -/
def State.spiDamaged (s : State) : State := (s.bump sysPage 0xA08).collectC { page := sysPage, bit := 2, master := 1 }

/-- The target's reply. -/
def State.misoIs (s : State) (l : List Nat) : State := s.setSys fun x => { x with miso := l }

/-- STATUS after an applied WRITE or GWRITE frame, and after a damaged one. -/
def State.spiApply (s : State) : State :=
  s.setSys fun x => { x with spiApplied := true, spiCrc := false, spiLen := false, spiCount := (x.spiCount + 1) % 16 }
def State.spiFail (s : State) (crc len : Bool) : State :=
  (s.setSys fun x => { x with spiApplied := false, spiCrc := !crc, spiLen := !len }).spiDamaged

/-- A WRITE frame (R386). The limit of R392 has passed for what an earlier frame staged. -/
def State.spiWriteFrame (s : State) (bs : List Nat) : State :=
  let c := (bs[5]?).getD 0
  let n := countOf c
  let len := decide (bs.length = 7 + 4 * n)
  if crcOk bs && len then
    ((s.expireStaged 1).writeMany 1 ((frameAddrs (frameAddr bs) n (fixedOf c)).zip (frameWords bs 6 n))).spiApply
  else s.spiFail (crcOk bs) len

/-- A GWRITE frame: the word and its complement as one guarded pair (R386). -/
def State.spiGwriteFrame (s : State) (bs : List Nat) : State :=
  let len := decide (bs.length = 10)
  if crcOk bs && len then
    let a := frameAddr bs
    let v := word (beNat (slice bs 5 4))
    let s := (s.expireStaged 1).writeAt 1 a v
    (match guardAddr a with
     | some g => s.writeAt 1 g (~~~v)
     | none => s).spiApply
  else s.spiFail (crcOk bs) len

/-- A READ frame: for each word the marker and its bytes, then STATUS and a CRC-8; the wait bytes are left out (log
entry 33). A frame whose CRC byte does not match performs no access. -/
def State.spiReadFrame (s : State) (bs : List Nat) : State :=
  if 7 ≤ bs.length ∧ crcOk (bs.take 7) then
    let c := (bs[5]?).getD 0
    let (ws, s) := State.readMany 1 (frameAddrs (frameAddr bs) (countOf c) (fixedOf c)) (s.expireStaged 1)
    let data := ws.flatMap fun w => beBytes 4 w.toNat
    let st := s.sys.spiStatus false
    (s.setSys fun x => { x with reply := ws }).misoIs
      ((ws.flatMap fun w => 0x5A :: beBytes 4 w.toNat) ++ [st, crc8 (data ++ [st])])
  else
    let s := s.spiDamaged
    s.misoIs [0xC3, s.sys.spiStatus true]

/-- A STATUS frame: answered whether or not its CRC byte matches. -/
def State.spiStatusFrame (s : State) (bs : List Nat) : State :=
  let ok := crcOk (bs.take 2) && decide (2 ≤ bs.length)
  let s := if ok then s else s.spiDamaged
  let st := s.sys.spiStatus (!ok)
  s.misoIs [st, crc8 [st]]

/-- A frame by its opcode (R385); an undefined opcode is ignored and counted. -/
def State.spiFrame (s : State) (bytes : List Byte) : State :=
  let bs := bytes.map BitVec.toNat
  if s.boot.released = false ∨ bs = [] then s
  else
    let s := (s.bump sysPage 0xA00).misoIs (List.replicate bs.length 0)
    match bs.head? with
    | some 0x02 => s.spiWriteFrame bs
    | some 0x03 => s.spiReadFrame bs
    | some 0x05 => s.spiStatusFrame bs
    | some 0x06 => s.spiGwriteFrame bs
    | _ => s.bump sysPage 0xA08

/-! ### PCIe -/

/-- One written DW: HOST_PARTIAL unless all its bytes are enabled (R382). -/
def State.pcieWrite (s : State) (o : Nat) (e : Word × Fin 16) : State :=
  if e.2.val = 15 then
    match windowAddr o with
    | some a => s.writeAt 0 a e.1
    | none => s.access 0
  else s.collectC { page := sysPage, bit := 3, master := 0, access := 1, addr := (windowAddr o).getD o }

/-- The DWs of a write request in ascending order. -/
def State.pcieWrites (s : State) (o : Nat) : List (Word × Fin 16) → State
  | [] => s
  | e :: t => (s.pcieWrite o e).pcieWrites (o + 4) t

/-- The DWs of a read request in ascending order. -/
def State.pcieReads (o : Nat) : Nat → State → List Word × State
  | 0, s => ([], s)
  | n + 1, s =>
    let (w, s) := match windowAddr o with
      | some a => s.readAt 0 a
      | none => (0, s.access 0)
    let (ws, s) := State.pcieReads (o + 4) n s
    (w :: ws, s)

/-- A memory request inside BAR0; the endpoint takes none while it is in reset. -/
def State.pcieRequest (s : State) (q : PcieReq) : State :=
  let o := q.offset / 4 * 4
  if s.boot.released = false ∨ s.sys.perst then s
  else
    match q.writes with
    | some l => s.pcieWrites o l
    | none =>
      let (ws, s) := State.pcieReads o q.count s
      s.setSys fun x => { x with reply := ws }

/-- The link comes up as Gen 3 x2, or goes down; PCIE_LINK_CHANGE (R382, R406). -/
def State.pcieLink (s : State) (up : Bool) : State :=
  if s.sys.pcieUp = up then s
  else
    (s.setSys fun x => { x with
      pcieUp := up, pcieSpeed := if up then 3 else 0, pcieWidth := if up then 2 else 0 }).event sysPage 3

/-- A DW of the configuration space that the spec gives; any other is a free value (R382; log entry 5). -/
def State.cfgDw (s : State) (dw : Nat) : Word :=
  match dw with
  | 0 => 0x32401F3D
  | 2 => 0x088000B1
  | 11 => if s.boot.subsys = 0 then 0x32401F3D else word s.boot.subsys
  | _ => sword (Config.freeInt 8 (s.free * 1024 + dw))

/-- A configuration request: Retry Status until start-up has read SUBSYS (R382). -/
def State.pcieConfig (s : State) (q : CfgReq) : State :=
  if s.boot.released = false ∨ s.sys.perst then s
  else if s.sys.cfgReady = false then s.setSys fun x => { x with cfgReply := 0, reply := [] }
  else
    let s := s.setSys fun x => { x with cfgReply := 1 }
    match q with
    | .read dw => (s.setSys fun x => { x with reply := [s.cfgDw dw] }).nextFree
    | .msiEnable on => s.setSys fun x => { x with msiEnable := on }

/-! ### The test access port (R471) -/

/-- The instruction is allowed at the debug level in effect. -/
def State.tapAllowed (s : State) (ir : TapIr) : Bool :=
  match ir with
  | .bypass | .idcode | .sample => true
  | .dbgAccess => decide (1 ≤ s.dbgNow)
  | .extest | .scan => decide (2 ≤ s.dbgNow)

/-- EXTEST and internal scan drive the balls. -/
def tapDrives (ir : TapIr) : Bool := ir == .extest || ir == .scan

/-- EXTEST and internal scan may take effect. -/
def State.scanFree (s : State) : Bool := s.allInit && (List.range 40).all fun j => (s.out j).state == .off

/-- The instruction register takes an instruction; leaving EXTEST or internal scan resets the islands. -/
def State.tapLoad (s : State) (ir : TapIr) : State :=
  let old := s.sec.tap
  let s := s.setSec fun x => { x with tap := ir }
  if tapDrives old && ir != old then s.islandsReset 6 else s

/-- A TAP instruction: what is not allowed acts as BYPASS. -/
def State.tapInstruction (s : State) (ir : TapIr) : State :=
  if s.tapAllowed ir = false then
    let s := s.tapLoad .bypass
    if s.boot.released then s.tpDenied else s
  else if tapDrives ir && s.sec.tap != ir && !s.scanFree then s.tapLoad .bypass
  else
    let s := s.tapLoad ir
    if ir = .idcode then s.setSys fun x => { x with reply := [0x132409CB] } else s

/-! ### The rows -/

/-- WRITE frame. -/
def execSpiWrite (bytes : List Byte) (s : State) : Host.Outcome State Fault Refusal := finish (s.spiFrame bytes)

/-- READ frame. -/
def execSpiRead (bytes : List Byte) (s : State) : Host.Outcome State Fault Refusal := finish (s.spiFrame bytes)

/-- STATUS frame. -/
def execSpiStatus (bytes : List Byte) (s : State) : Host.Outcome State Fault Refusal := finish (s.spiFrame bytes)

/-- GWRITE frame. -/
def execGwrite (bytes : List Byte) (s : State) : Host.Outcome State Fault Refusal := finish (s.spiFrame bytes)

/-- A frame with an undefined opcode. -/
def execSpiUnknownOpcode (bytes : List Byte) (s : State) : Host.Outcome State Fault Refusal := finish (s.spiFrame bytes)

/-- PCIE_REQUEST. -/
def execPcieRequest (q : PcieReq) (s : State) : Host.Outcome State Fault Refusal := finish (s.pcieRequest q)

/-- PCIE_LINK_CHANGE. -/
def execPcieLinkChange (up : Bool) (s : State) : Host.Outcome State Fault Refusal :=
  finish (if s.boot.released = false ∨ (s.sys.perst ∧ up) then s else s.pcieLink up)

/-- PERST_N: low holds the endpoint alone in reset. -/
def execPerstN (low : Bool) (s : State) : Host.Outcome State Fault Refusal :=
  let s := if low then (s.pcieLink false).setSys fun x => { x with msiEnable := false } else s
  finish (s.setSys fun x => { x with perst := low })

/-- PCIE_CONFIG_REQUEST. -/
def execPcieConfigRequest (q : CfgReq) (s : State) : Host.Outcome State Fault Refusal := finish (s.pcieConfig q)

/-- TAP_INSTRUCTION: an instruction, or an access by master 2. -/
def execTapInstruction (q : TapReq) (s : State) : Host.Outcome State Fault Refusal :=
  match q with
  | .instruction ir => finish (s.tapInstruction ir)
  | .read addr =>
    let (w, s) := s.readAt 2 addr
    finish (s.setSys fun x => { x with reply := [w] })
  | .write addr value => finish (s.writeAt 2 addr value)

end Sys2Proof.Machine
end

