-- ==== Sys2Proof/Machine/Cells.lean ====
section
/-! DEFINITION. The cells run the book (R273 to R285, R288): the programs of the used pairs, tempo by tempo, over the cells'
registers and memories, with groups, twins, poison, banks, the drain unit and the barrier. A tempo is numbered as LEN_V counts
them, so that the first operation of a program issues in tempo 5 and its BAR in tempo LEN_V − 8 (log entry 68). A round that
has no program takes no time to work out. -/

namespace Sys2Proof.Machine

/-! ### The state of a round -/

/-- One twin: the physical cell, its logical number, and what it holds. -/
structure Twin where
  cell : Nat
  logical : Nat
  regs : Table Nat
  dmem : Table Nat
  /-- register codes that hold a poisoned value -/
  poison : List Nat
  /-- register codes whose value comes with a latency, and the tempo from which it may be read -/
  ready : List (Nat × Nat)
  deriving DecidableEq, Repr

/-- An open LOOP: its body and the repetitions left. -/
structure LoopFrame where
  start : Nat
  stop : Nat
  left : Nat
  deriving DecidableEq, Repr

/-- A twin pair at its place in the program, with its group buffer (R280). -/
structure Thread where
  pair : Nat
  imem : Table Nat
  twins : List Twin
  pc : Nat
  loops : List LoopFrame
  /-- tempo of the next issue -/
  wake : Nat
  /-- tempo at which BAR issued -/
  bar : Option Nat
  /-- stores of the open group: cell memory, shared memory, staging ports; newest first -/
  data : List (Nat × Nat)
  shared : List (Nat × Nat)
  ports : List (Nat × Nat)
  /-- the open group will not close; the rest of it is suppressed -/
  spoiled : Bool
  mute : Bool
  /-- entries taken so far, by channel -/
  drains : List (Nat × Nat)
  deriving DecidableEq, Repr

/-- A value on its way to a receive register. -/
structure Sent where
  due : Nat
  logical : Nat
  reg : Nat
  value : Nat
  bad : Bool
  deriving DecidableEq, Repr

/-- A round of the board. -/
structure Run where
  threads : List Thread
  shared : Table Nat
  staging : Table Nat
  sent : List Sent
  /-- pairs of a sequence violation, pairs of a mismatch, pairs whose STC came too late -/
  seq : List Nat
  mism : List Nat
  lateStc : List Nat
  /-- groups that did not close: the pair, and the shared words they had stored -/
  lost : List (Nat × List Nat)
  deriving DecidableEq, Repr

/-- What does not change in a round: the serial number of its free values, the entries of each channel with the tempo from
which they are present, the configuration image as sorted words, and LEN_V. -/
structure RoundInput where
  free : Nat
  entries : List (Nat × List (Nat × Nat))
  active : List (Nat × Nat)
  direct : List (Nat × Nat)
  len : Nat
  deriving DecidableEq, Repr

/-! ### Registers -/

/-- Width of a register by its code (R274). -/
def regWidth (c : Nat) : Nat := if isA c then 48 else if isP c then 1 else 18

/-- The value of a register in tempo `t`, and whether it is poisoned. A value that is read before its latency is over is
one that the spec does not state (log entry 5). -/
def Twin.read (free t : Nat) (w : Twin) (c : Nat) : Nat × Bool :=
  let early := w.ready.any fun r => r.1 == c && decide (t < r.2)
  (if early then (Config.freeInt (0x1000 + 64 * t + c) free % 2 ^ regWidth c).toNat else tget (fun _ => 0) w.regs c,
    w.poison.contains c)

/-- A register takes a value, to be read from tempo `t` on. -/
def Twin.write (t c v : Nat) (bad : Bool) (w : Twin) : Twin :=
  let rest := w.poison.filter (· != c)
  { w with
    regs := tput (fun _ => 0) w.regs c (v % 2 ^ regWidth c)
    ready := (c, t) :: w.ready.filter fun r => r.1 != c
    poison := if bad then c :: rest else rest }

/-- Does an operation act in this twin, and is its predicate poisoned? SEL takes its predicate as an operand (R275). -/
def Twin.acts (free t : Nat) (i : CellIns) (w : Twin) : Bool × Bool :=
  if i.pen && i.opc != 0x0F then
    let p := w.read free t (0x38 + i.psel)
    ((p.1 == 1) != i.pinv, p.2)
  else (true, false)

/-! ### Operations -/

/-- What an operation gives to the world outside its twin. -/
inductive CellOut where
  | nothing
  | store (a v : Nat)
  | shared (a v : Nat)
  | port (a v : Nat)
  | send (cell q v : Nat)
  deriving DecidableEq, Repr

/-- The eight words of 18 bits of a drained entry, least significant first; the last one's top bit says that none is left
(log entry 68). -/
def entryWords (v : Nat) : List Nat := (List.range 8).map fun n => v / 2 ^ (18 * n) % 2 ^ 18

/-- The next entry of a channel for a thread: its words and whether the request came too early (R282). -/
def RoundInput.drain (x : RoundInput) (t ch n : Nat) : List Nat × Bool :=
  let none_ := List.replicate 7 0 ++ [2 ^ 17]
  match (x.entries.find? fun e => e.1 == ch).bind fun e => e.2[n]? with
  | some (due, v) => if t < due then (none_, true) else (entryWords v, false)
  | none => (none_, false)

/-- What the operation reads from memories: the group buffer, the shared memory, a bank conflict, the next entry. -/
structure Around where
  data : List (Nat × Nat)
  stores : List (Nat × Nat)
  shared : Table Nat
  conflict : Bool
  entry : List Nat × Bool

/-- The newest buffered store to a word, else the word of the memory (R280). -/
def buffered (l : List (Nat × Nat)) (mem : Table Nat) (a : Nat) : Nat :=
  match l.find? fun p => p.1 == a with
  | some p => p.2
  | none => tget (fun _ => 0) mem a

/-- One operation in one twin, in tempo `t`: the twin after it, what it gives outside, and whether it consumed a poisoned
value (R276, R278). -/
def Twin.op (x : RoundInput) (t : Nat) (i : CellIns) (r : Around) (w : Twin) : Twin × CellOut × Bool :=
  let acc := w.read x.free t i.dst
  let a := w.read x.free t i.a
  let b := w.read x.free t i.b
  let at11 := i.imm % 2 ^ 11
  let at16 := i.imm % 2 ^ 16
  let put (lat v : Nat) (bad : Bool) : Twin × CellOut × Bool := (w.write (t + lat) i.dst v bad, .nothing, bad)
  match i.opc with
  | 0x01 => put 2 (buffered r.data w.dmem at11) false
  | 0x02 => (w, .store at11 a.1, a.2)
  | 0x03 => (w.write (t + 4) i.dst (buffered r.stores r.shared at16) r.conflict, .nothing, false)
  | 0x04 => (w, .shared at16 a.1, a.2 || r.conflict)
  | 0x05 => put 1 (i.imm % 2 ^ 18) false
  | 0x06 => put 4 (mulResult i.su a.1 b.1) (a.2 || b.2)
  | 0x07 => put 4 (macResult i.su acc.1 a.1 b.1) (acc.2 || a.2 || b.2)
  | 0x08 => put 4 (msuResult i.su acc.1 a.1 b.1) (acc.2 || a.2 || b.2)
  | 0x09 => put 2 (addaResult acc.1 a.1 i.imm) (acc.2 || a.2)
  | 0x0A => put 2 (shaResult acc.1 i.imm) acc.2
  | 0x0B => put 2 (extResult a.1 i.imm) a.2
  | 0x0C => put 2 (insResult acc.1 a.1 i.imm) (acc.2 || a.2)
  | 0x0D => put 1 (aluResult i.imm a.1 b.1) (a.2 || (b.2 && i.imm != 7))
  | 0x0E => put 1 (b2n (setpResult i.imm a.1 b.1)) (a.2 || b.2)
  | 0x0F =>
    let p := w.read x.free t (0x38 + i.psel)
    let v := if p.1 = 1 then a else b
    put 1 v.1 (p.2 || v.2)
  | 0x10 => put 1 (divsResult acc.1 b.1) (acc.2 || b.2)
  | 0x11 => (w, .send (i.imm / 16 % 32) (i.imm % 8) a.1, a.2)
  | 0x12 =>
    ((r.entry.1.zipIdx).foldl (fun (w : Twin) (p : Nat × Nat) => w.write (t + 2) (0x30 + p.2) p.1 r.entry.2) w, .nothing, false)
  | 0x13 => put 4 (Config.cfgWord x.active x.direct (i.imm % 2 ^ 20) % 2 ^ 18) false
  | 0x14 => (w, .port at16 a.1, a.2)
  | _ => (w, .nothing, false)

/-! ### A pair -/

/-- The instruction at an address. -/
def Thread.insAt (th : Thread) (pc : Nat) : CellIns := cellIns (tget (fun _ => 0) th.imem pc)

/-- Where the next operation issues: LOOP takes no tempo, and a body that ends begins again or is left (R276). The first
argument bounds the LOOPs passed in one tempo. -/
def Thread.settle (th : Thread) : Nat → Nat → List LoopFrame → Nat × List LoopFrame
  | 0, pc, fs => (pc, fs)
  | k + 1, pc, fs =>
    match fs.head?.filter fun f => f.stop == pc with
    | some f =>
      if f.left = 0 then th.settle k pc fs.tail else th.settle k f.start ({ f with left := f.left - 1 } :: fs.tail)
    | none =>
      let i := th.insAt pc
      let n := i.imm % 2 ^ 12
      if i.opc ≠ 0x16 then (pc, fs)
      else if n = 0 then th.settle k (pc + 1) fs
      else th.settle k (pc + 1) ({ start := pc + 1, stop := pc + 1 + n, left := i.imm / 2 ^ 12 % 2 ^ 16 } :: fs)

/-- LOOPs that one tempo may pass. -/
def settleFuel : Nat := 262144

/-- The thread at its next operation. -/
def Thread.settled (th : Thread) : Thread :=
  let (pc, loops) := th.settle settleFuel th.pc th.loops
  { th with pc, loops }

/-- An operation issues in tempo `t`. -/
def Thread.live (t : Nat) (th : Thread) : Bool := th.bar.isNone && decide (th.wake ≤ t)

/-- The bank of shared memory that the operation accesses: LDS and STS at their issue, the twins together (R279; log entry
68). -/
def Thread.bank (x : RoundInput) (t : Nat) (th : Thread) : Option Nat :=
  let i := th.insAt th.pc
  if (i.opc = 0x03 ∨ i.opc = 0x04) ∧ th.twins.any (fun w => (w.acts x.free t i).1) then some (i.imm % 16) else none

/-- What one issue of a pair brings. -/
structure Issue where
  th : Thread
  shared : List (Nat × Nat) := []
  ports : List (Nat × Nat) := []
  sent : List Sent := []
  mism : Bool := false
  lateStc : Bool := false
  early : Bool := false
  lost : Option (List Nat) := none
  deriving DecidableEq, Repr

/-- The group is over, closed or not. -/
def Thread.newGroup (th : Thread) : Thread :=
  { th with data := [], shared := [], ports := [], spoiled := false, mute := false }

/-- STC in tempo `t`: the group's writes reach their memories and ports in this tempo, or none of them does (R280); one later
than LEN_V − 16 closes nothing (R288). -/
def Thread.stc (x : RoundInput) (t : Nat) (th : Thread) : Issue :=
  let late := decide (x.len < t + 16)
  if th.spoiled ∨ late then { th := th.newGroup, lateStc := late, lost := some (th.shared.map (·.1)) }
  else
    let twins := th.twins.map fun w =>
      { w with dmem := th.data.reverse.foldl (fun m p => tput (fun _ => 0) m p.1 (p.2 % 2 ^ 18)) w.dmem }
    { th := { th.newGroup with twins }, shared := th.shared.reverse, ports := th.ports.reverse }

/-- The limits of a group (R280). -/
def Thread.overfull (th : Thread) : Bool :=
  decide (256 < th.data.length) || decide (256 < th.shared.length) || decide (64 < th.ports.length)

/-- What both twins give outside (R281): equal stores join the group, equal sends go out; a difference in a store ends the
group for both, one in a SEND goes out poisoned. `bad` says that the value came from a poisoned one. -/
def Thread.give (t : Nat) (th : Thread) (outs : List CellOut) (bad : Bool) : Issue :=
  let differ := outs.any fun o => decide (o ≠ outs.headD .nothing)
  if th.mute then { th }
  else if differ then
    match outs.find? fun o => match o with | .send .. => true | _ => false with
    | some (.send c q v) => { th, sent := [{ due := t + 3, logical := c, reg := q, value := v, bad := true }] }
    | _ => { th := { th with spoiled := true, mute := true }, mism := true }
  else
    match outs.headD .nothing with
    | .nothing => { th }
    | .store a v => { th := { th with data := (a, v) :: th.data } }
    | .shared a v => { th := { th with shared := (a, v) :: th.shared } }
    | .port a v => { th := { th with ports := (a, v) :: th.ports } }
    | .send c q v => { th, sent := [{ due := t + 3, logical := c, reg := q, value := v, bad }] }

/-- The pair issues its operation in tempo `t`; `conflict` says that its bank is accessed twice (R279, R281, R284). -/
def Thread.issue (x : RoundInput) (shared : Table Nat) (conflict : Bool) (t : Nat) (th : Thread) : Issue :=
  let i := th.insAt th.pc
  let next := { th with pc := th.pc + 1, wake := t + 1 }
  let acting := th.twins.any fun w => (w.acts x.free t i).1
  match i.opc with
  | 0x17 => { th := { next with bar := some t } }
  | 0x18 => { th := { next with wake := t + 64 } }
  | 0x15 => if acting then next.stc x t else { th := next }
  | _ =>
    let ch := i.imm % 64
    let taken := (th.drains.find? fun d => d.1 == ch).elim 0 (·.2)
    let entry := x.drain t ch taken
    let drains := i.opc == 0x12 && acting
    let around : Around := { data := th.data, stores := th.shared, shared, conflict, entry }
    let res : List (Twin × CellOut × Bool) := th.twins.map fun w =>
      let g := w.acts x.free t i
      if g.1 then
        let r := w.op x t i around
        (r.1, r.2.1, r.2.2 || g.2)
      else (w, CellOut.nothing, g.2)
    let next := { next with
      twins := res.map fun (q : Twin × CellOut × Bool) => q.1
      drains := if drains then (ch, taken + 1) :: th.drains.filter (fun d => d.1 != ch) else th.drains }
    let bad := res.any (·.2.2)
    let g := next.give t (res.map fun (q : Twin × CellOut × Bool) => q.2.1) bad
    { g with th := { g.th with spoiled := g.th.spoiled || bad || g.th.overfull }, early := drains && entry.2 }

/-! ### A round -/

/-- The values that reach their receive registers in tempo `t`; a poisoned one reaches both twins. -/
def Run.deliver (t : Nat) (r : Run) : Run :=
  let now := r.sent.filter fun v => v.due == t
  { r with
    sent := r.sent.filter fun v => v.due != t
    threads := r.threads.map fun th => { th with
      twins := th.twins.map fun w => now.foldl (fun (w : Twin) (v : Sent) =>
        if w.logical = v.logical ∨ (v.bad = true ∧ w.logical / 2 = v.logical / 2) then w.write t (0x28 + v.reg) v.value v.bad
        else w) w } }

/-- One tempo of the board. -/
def Run.tempo (x : RoundInput) (t : Nat) (r : Run) : Run :=
  let r := r.deliver t
  let ths := r.threads.map fun th => if th.live t then th.settled else th
  let banks := ths.filterMap fun th => if th.live t then th.bank x t else none
  let twice (b : Option Nat) : Bool := match b with | some b => decide (2 ≤ (banks.filter (· == b)).length) | none => false
  let iss : List Issue := ths.map fun th => if th.live t then th.issue x r.shared (twice (th.bank x t)) t else { th }
  let pairsOf (f : Issue → Bool) : List Nat := (iss.filter f).map (·.th.pair)
  { threads := iss.map (·.th)
    shared := (iss.flatMap (·.shared)).foldl (fun m p => tput (fun _ => 0) m p.1 (p.2 % 2 ^ 18)) r.shared
    staging := (iss.flatMap (·.ports)).foldl (fun m p => tput (fun _ => 0) m p.1 (p.2 % 2 ^ 18)) r.staging
    sent := r.sent ++ iss.flatMap (·.sent)
    seq := r.seq ++ pairsOf (·.early) ++ (ths.filter fun th => th.live t && twice (th.bank x t)).map (·.pair)
    mism := r.mism ++ pairsOf (·.mism)
    lateStc := r.lateStc ++ pairsOf (·.lateStc)
    lost := r.lost ++ iss.filterMap fun i => i.lost.map fun l => (i.th.pair, l) }

/-- The tempos from `t` on, `n` of them at most. -/
def Run.go (x : RoundInput) : Nat → Nat → Run → Run
  | 0, _, r => r
  | n + 1, t, r => if r.threads.all (·.bar.isSome) && r.sent.isEmpty then r else Run.go x n (t + 1) (r.tempo x t)

/-- The program of a pair, when it is used and one of its cells is scheduled; it starts at the entry of the variant (R285). -/
def State.thread (s : State) (p : Nat) : Option Thread :=
  let twins := [2 * p, 2 * p + 1].filterMap fun n => (s.holder n).map fun c =>
    ({ cell := c, logical := n, regs := (s.cell c).regs, dmem := (s.cell c).dmem, poison := (s.cell c).poison, ready := [] } : Twin)
  let imem := match twins with | w :: _ => (s.cell w.cell).imem | [] => []
  if s.board.run.pairMask.testBit p ∧ imem ≠ [] then
    some { pair := p, imem, twins, pc := ((s.board.run.entries[s.board.varNow]?).bind (·[p]?)).getD 0, loops := [], wake := 5
           bar := none, data := [], shared := [], ports := [], spoiled := false, mute := false, drains := [] }
  else none

/-- The entries that the drain unit delivers, with the tempo by which each is present: 16 + 2k for entry k in drain order
(R282). -/
def State.drainPlan (s : State) : List (Nat × List (Nat × Nat)) :=
  (drainOrder.foldl (fun (a : List (Nat × List (Nat × Nat)) × Nat) (k : Nat) =>
    let l := (s.chan k).took
    (a.1 ++ [(k, (l.zipIdx a.2).map fun e => (16 + 2 * e.2, e.1.bits128 k))], a.2 + l.length)) ([], 0)).1

/-- What the round gives to every cell; CFG reads the active set and the direct controls as they stand at tempo 0 (R283). -/
def State.roundInput (s : State) : RoundInput :=
  { free := s.free, entries := s.drainPlan, active := s.active.map fun e => (e.1, e.2.toNat)
    direct := s.direct.map fun e => (e.1, e.2.toNat), len := s.lenRun }

/-- The mismatch sources of the block that owns a page, for the domains that a pair serves (R281). -/
def State.blockSources (s : State) (pair page : Nat) : List (Nat × Nat) :=
  let served := s.served [pair]
  match pageKind page with
  | .qual => [(page, 2)]
  | .dom => [(page, 0)]
  | .time => (served.filter fun t => decide (t < 4)).map fun t => (page, 4 * t)
  | .vlink => ((List.range 8).filter fun v => bit (s.linkCfg v) 0 && served.contains (s.linkDom v)).map fun v => (page, 4 * v)
  | .pair => [(page, 1)]
  | _ => []

/-- Once each, in their first order. -/
def onceEach : List (Nat × Nat) → List (Nat × Nat)
  | [] => []
  | a :: l => a :: (onceEach l).filter (· != a)

/-- What the round leaves in the cells, in shared memory and at the staging ports. -/
def State.leaveRun (s : State) (r : Run) : State :=
  let s := r.threads.foldl (fun (s : State) (th : Thread) => th.twins.foldl (fun (s : State) (w : Twin) =>
    s.setCell w.cell fun c => { c with regs := w.regs, dmem := w.dmem, poison := w.poison }) s) s
  s.setBoard fun b => { b with shared := r.shared, staging := r.staging }

/-- The faults that the round's own checks find (R279, R281, R288). -/
def State.runFaults (s : State) (r : Run) (len : Nat) : State :=
  let s := if r.seq = [] then s
    else s.detect { page := 0x01, bit := 2, detail := (List.range 15).foldl (fun a p => if r.seq.contains p then a + 2 ^ p else a) 0 }
  let s := r.mism.foldl (fun (s : State) (p : Nat) =>
    s.detect { page := 0xC8, bit := 6, unit := (s.holder (2 * p)).getD 0 }) s
  let s := (r.threads.filter fun th => r.lateStc.contains th.pair || th.bar.any (fun b => b + 8 != len)).foldl
    (fun (s : State) (th : Thread) => th.twins.foldl (fun (s : State) (w : Twin) =>
      s.detect { page := 0x01, bit := 1, unit := w.cell }) s) s
  (onceEach (r.lost.flatMap fun g => (onceEach (g.2.filterMap fun a => (s.board.run.owner a).map fun q => (g.1, q)))
      |>.flatMap fun q => s.blockSources q.1 q.2)).foldl (fun (s : State) (q : Nat × Nat) =>
    s.detect { page := q.1, bit := q.2, unit := unitOfBit q.1 q.2 }) s

/-- The cells run the round that begins (R273 to R288): up to the barrier, or in a round that overruns up to a tempo that the
spec leaves open (log entry 59). Cells that have not reached the barrier in the tempos of the round make it overrun. -/
def State.cellsRound (s : State) : State :=
  let ths := (List.range 15).filterMap s.thread
  if ths = [] then s
  else
    let n := if s.board.late then (Config.freeInt 0x7F0 s.free % (s.board.tempos + 1)).toNat else s.board.tempos
    let r := Run.go s.roundInput n 1
      { threads := ths, shared := s.board.shared, staging := [], sent := [], seq := [], mism := [], lateStc := [], lost := [] }
    let short := r.threads.any (·.bar.isNone)
    let s := ((s.nextFree).leaveRun r).setBoard fun b => { b with late := b.late || short }
    s.runFaults r s.lenRun

end Sys2Proof.Machine
end

