-- ==== Sys2Proof/Machine/Startup.lean ====
section
/-! DEFINITION. Resets from the balls and start-up (chapter 19): the boot record, the stamp-clock lock, the boot book and
firmware, the configuration image, the DEFER entries of a bound device and the boot report. -/

namespace Sys2Proof.Machine

/-! ### The boot record (R485, R486) -/

/-- A word of the NV store as the device reads it. -/
def State.nvAt (s : State) (a : Nat) : Nat := s.nvHostWord a

/-- A copy of the boot record is valid: its magic is right and its commit word is the complement of its SEQ. -/
def State.recordValid (s : State) (a : Nat) : Bool :=
  s.nvAt a == 0x424F4F54 && s.nvAt (a + 124) == 0xFFFFFFFF - s.nvAt (a + 4) && !s.nv.badIn a 128

/-- The copy in use: 1 A, 2 B, 0 none. -/
def State.recordCopy (s : State) : Nat :=
  let a := s.recordValid 0
  let b := s.recordValid 0x80
  if a && (!b || decide (s.nvAt 0x84 ≤ s.nvAt 4)) then 1 else if b then 2 else 0

/-- Step 2: the boot record is read, COMPAT and AGE_PRESET are taken, and SUBSYS is known. -/
def State.readBootRecord (s : State) : State :=
  let c := s.recordCopy
  let w (o : Nat) : Nat := if c = 0 then 0 else s.nvAt ((c - 1) * 0x80 + o)
  let s := s.setBoot fun b => { b with
    copy := c, flags := w 8, bookA := w 12, bookB := w 16, fwA := w 20, fwB := w 24
    imgAddr := w 28 % 2 ^ 19, reportAddr := w 32 % 2 ^ 19
    agePreset := signed 32 (w 36), subsys := w 40 }
  let s := s.setFault fun f => { f with compat := s.boot.flags.testBit 0 }
  (s.presetAge s.boot.agePreset).setSys fun x => { x with cfgReady := true }

def Boot.bookEn (b : Boot) : Bool := b.flags.testBit 1
def Boot.imgEn (b : Boot) : Bool := b.flags.testBit 3
def Boot.reportEn (b : Boot) : Bool := b.flags.testBit 4
/-- PAIR_WAIT in rounds. -/
def Boot.waitRounds (b : Boot) : Nat := 800 * nbits b.flags 23 16

/-! ### The configuration image (R487, R491) -/

/-- Word `k` of the image, and its number of entries. -/
def State.imgAt (s : State) (k : Nat) : Nat := s.nvAt (s.boot.imgAddr + 4 * k)

/-- The image is valid: magic, commit word and count, inside the store. -/
def State.imageValid (s : State) : Bool :=
  let n := s.imgAt 2
  s.imgAt 0 == 0x494D4731 && decide (1 ≤ n) && decide (n ≤ 16384) && decide (s.boot.imgAddr % 128 = 0)
    && decide (s.boot.imgAddr + 16 + 8 * n ≤ nvBytes) && s.imgAt (3 + 2 * n) == 0xFFFFFFFF - s.imgAt 1
    && !s.nv.badIn s.boot.imgAddr (16 + 8 * n)

/-- Step 4 begins. -/
def State.openImage (s : State) : State :=
  if s.boot.imgEn = false then s.setBoot fun b => { b with image := 1 }
  else if s.imageValid then
    let n := s.imgAt 2
    s.setBoot fun b => { b with image := 0, imgCount := n, imgNext := 0 }
  else s.setBoot fun b => { b with image := 2 }

/-- Entry `i`: address, DEFER, GUARDED, value. -/
def State.imgEntry (s : State) (i : Nat) : Nat × Bool × Bool × Word :=
  let w := s.imgAt (3 + 2 * i)
  (w % 2 ^ 25, w.testBit 30, w.testBit 31, word (s.imgAt (4 + 2 * i)))

/-- The page whose CMD register the address names. -/
def cmdPage (a : Nat) : Option Nat :=
  match targetOf a with
  | .reg p o => if o = 0x908 ∧ pageKind p ≠ .none ∧ pageKind p ≠ .osc then some p else none
  | _ => none

/-- An entry was refused or timed out. -/
def State.imgRefused (s : State) (i : Nat) : State :=
  s.setBoot fun b => { b with imgCmd := none, refused := b.refused + 1, firstRefused := some (b.firstRefused.getD i) }

/-- An entry has been applied. -/
def State.imgApplied (s : State) : State := s.setBoot fun b => { b with imgCmd := none, applied := b.applied + 1 }

/-- The command that the runner waits for has answered. -/
def State.imgAnswer (s : State) : State :=
  match s.boot.imgCmd with
  | some (p, q, i) =>
    let c := s.cmdStatus p 3
    if c.seq = q ∧ c.result ≠ 0 then s.imgRefused i else if c.seq = q ∧ c.done then s.imgApplied else s
  | none => s

/-- A write as master 3, as a guarded pair where the entry says so. -/
def State.imgWrite (s : State) (a : Nat) (guarded : Bool) (v : Word) : State :=
  let s := s.writeAt 3 a v
  if guarded then
    match guardAddr a with
    | some g => s.writeAt 3 g (~~~v)
    | none => s
  else s

/-- Apply entry `i`. -/
def State.imgApply (s : State) (i : Nat) : State :=
  let (a, _, guarded, v) := s.imgEntry i
  match cmdPage a with
  | some p =>
    let q := ((s.page p).seq + 1) % 32768
    (((s.imgWrite a guarded v).setBoot fun b => { b with imgCmd := some (p, q, i), imgWait := 0 })).imgAnswer
  | none => (s.imgWrite a guarded v).imgApplied

/-- DEFER entries wait for the role. -/
def State.defers (s : State) : Bool := s.pair.bound && s.boot.waitRounds != 0
/-- The wait of R491 is over. -/
def State.roleSettled (s : State) : Bool := s.boot.pairWait == some 0

/-- The entry is held until the board runs: a CMD write of a page other than SYS. -/
def State.imgHeld (s : State) (i : Nat) : Bool :=
  (match cmdPage (s.imgEntry i).1 with | some p => p != sysPage | none => false) && s.board.state != .running

/-- The runner takes its next entry, when it waits for nothing. -/
def State.imageStep (s : State) : State :=
  let b := s.boot
  if b.wake ∨ s.osc.running = false ∨ b.imgCmd.isSome then s
  else if b.imgNext < b.imgCount then
    let i := b.imgNext
    let next (s : State) : State := s.setBoot fun b => { b with imgNext := i + 1 }
    if (s.imgEntry i).2.1 ∧ s.defers ∧ s.roleSettled = false then
      (next s).setBoot fun b => { b with deferred := b.deferred ++ [i] }
    else if (s.imgEntry i).2.1 ∧ s.defers ∧ s.standby then (next s).setBoot fun b => { b with dropped := b.dropped + 1 }
    else if s.imgHeld i then s
    else (next s).imgApply i
  else
    match b.deferred with
    | i :: t => if s.roleSettled ∧ s.imgHeld i = false then (s.setBoot fun b => { b with deferred := t }).imgApply i else s
    | [] => s

/-- Several entries in one round. -/
def State.imageSteps : Nat → State → State
  | 0, s => s
  | n + 1, s => State.imageSteps n s.imageStep

/-- The longest wait for a command: 2 s. -/
def imageRounds : Nat := 16000

/-- The image runner in one round: it looks at the command it waits for, then applies up to 125 entries (1 µs each). -/
def State.imageRound (s : State) : State :=
  let s := s.imgAnswer
  match s.boot.imgCmd with
  | some (_, _, i) =>
    if imageRounds ≤ s.boot.imgWait + 1 then s.imgRefused i else s.setBoot fun b => { b with imgWait := b.imgWait + 1 }
  | none => if s.boot.imgNext < s.boot.imgCount ∨ s.boot.deferred ≠ [] then State.imageSteps 125 s else s

/-- The role is settled: held entries are dropped on a STANDBY, and applied otherwise (R491). -/
def State.settleRole (s : State) : State :=
  s.setBoot fun b => { b with
    pairWait := some 0
    dropped := if s.standby then b.dropped + b.deferred.length else b.dropped
    deferred := if s.standby then [] else b.deferred }

/-- A round of the wait for a partner record. -/
def State.pairWaitRound (s : State) : State :=
  if s.defers = false then s
  else
    match s.boot.pairWait with
    | none =>
      if s.board.state = .running then s.setBoot fun b => { b with pairWait := some b.waitRounds } else s
    | some 0 => s
    | some (n + 1) =>
      if s.pair.role ≠ .solo ∨ n = 0 then s.settleRole else s.setBoot fun b => { b with pairWait := some n }

/-! ### The boot book and firmware (R474, R475, R488, R489) -/

/-- A firmware image of `len` bytes: 0, or the code of its first failure (R475). -/
def State.fwDefect (s : State) (st : Table Nat) (len : Nat) : Nat :=
  let total := imgWord st 8
  let sec := imgWord st 0x14
  let code := imgWord st 0x18
  let entry := imgWord st 0x1C
  if imgWord st 0 ≠ 0x46544657 ∨ imgWord st 4 ≠ 0x00400001 ∨ (imgWords st 0x20 8).any (· != 0) then 1
  else if total % 16 ≠ 0 ∨ total < 256 ∨ 262144 < total then 2
  else if len < total then 15
  else if targetOk (imgWord st 0x0C) = false then 3
  else if s.checkSignature st (total - 128) ≠ 0 then s.checkSignature st (total - 128)
  else if sec < s.sec.fwMin then 6
  else if total - 192 < code ∨ code ≤ entry ∨ entry % 4 ≠ 0 then 9
  else 0

/-- The image starts: its slot and versions are shown (R479). -/
def State.fwTake (s : State) (st : Table Nat) : State :=
  let total := imgWord st 8
  ({ s with sec := { s.sec with
    fwSlot := imgWord st (total - 124) % 4, fwVer := imgWord st 0x10, fwSecVer := imgWord st 0x14 } }).setSvc fun v =>
      { v with fwVersion := imgWord st 0x10 }

/-- TSVC_FW_REFUSED. -/
def State.fwRefused (s : State) : State := s.raise tsvcPage 4

/-- Verification of a firmware image ends: of FW_UPDATE, or of start-up, whose fallback is tried next (R358, R475). -/
def State.fwVerified (s : State) (image : List Word) (readOk : Bool) : State :=
  let st := tableFrom 0 (image.map BitVec.toNat)
  let code := if readOk then s.fwDefect st (4 * image.length) else 15
  let note (s : State) : State := s.setSec fun x => { x with fwVerify := code }
  if s.serviceOn = false then s
  else if s.svc.fwBusy then
    let s := note s
    if code = 0 then
      (((s.fwTake st).setSvc fun v => { v with fwBusy := false, fwResult := 1 }).event tsvcPage 3).ctrlRestart
    else ((s.setSvc fun v => { v with fwBusy := false, fwResult := 2 }).event tsvcPage 3).fwRefused
  else if s.boot.fwTry ≠ 0 then
    let s := note s
    if code = 0 then
      ((s.fwTake st).setSvc fun v => { v with ctrl := .run }).setBoot fun b => { b with fw := b.fwTry, fwTry := 0 }
    else
      let s := (s.setBoot fun b => { b with fwVerify := code }).fwRefused
      if s.boot.fwTry = 1 then s.setBoot fun b => { b with fwTry := 2 }
      else (s.setBoot fun b => { b with fw := 3, fwTry := 0 }).setSvc fun v => { v with ctrl := .failed }
  else s

/-- The boot book that is tried fails: its fallback is read, or no book runs (R489). -/
def State.bookFails (s : State) : State :=
  let s := s.setBoot fun b => { b with bookVerify := s.board.verifyCode }
  if s.boot.bookTry = 1 then (s.setBoot fun b => { b with bookTry := 2 }).startLoad 0 true
  else s.setBoot fun b => { b with book := 3, bookTry := 0 }

/-- What start-up does once a boot book has been read or verified: a good one is verified, then activated cold. -/
def State.bookNext (s : State) : State :=
  if s.boot.bookTry = 1 ∨ s.boot.bookTry = 2 then
    match s.board.bookState with
    | .loaded => s.setBoard fun b => { b with bookState := .verifying }
    | .verified =>
      (s.setBoot fun b => { b with book := b.bookTry, bookTry := 3 }).setBoard fun b => { b with bookState := .activating }
    | .refused => s.bookFails
    | _ => s
  else s

/-- Step 5, at the eighth boundary: the flash is probed, and the reads of book and firmware begin. -/
def State.bootProbe (s : State) : State :=
  if s.boot.probed ∨ s.boot.started = false ∨ s.osc.count < 8 then s
  else
    let size := s.boot.probe
    let s := (s.setBoot fun b => { b with probed := true }).setSys fun x => { x with flashSize := size }
    let s := if s.boot.bookEn then
        (if size = 0 then s.setBoot fun b => { b with book := 3, bookVerify := 15 }
         else (s.setBoot fun b => { b with bookTry := 1 }).startLoad 0 true)
      else s
    s.setBoot fun b => b.tryFw size

/-- A host has emptied or replaced the book that start-up tried. -/
def State.bookTaken (s : State) : State :=
  if (s.boot.bookTry = 1 ∨ s.boot.bookTry = 2)
      ∧ ¬ (s.board.bookState = .loading ∨ s.board.bookState = .loaded ∨ s.board.bookState = .verifying) then
    s.setBoot fun b => { b with book := 3, bookTry := 0 }
  else s

/-- Step 6: POWER_ONS is incremented at the end of step 5. -/
def State.bootPower (s : State) : State :=
  if s.boot.powerDue ∧ s.boot.probed ∧ ¬ (s.boot.bookTry ≠ 0 ∧ s.board.bookState = .loading) then
    (s.setBoot fun b => { b with powerDue := false }).deviceCounter 0
  else s

/-- The boot book's cold activation begins at this boundary. -/
def State.bootActivate (s : State) : State :=
  if s.boot.bookTry = 3 then (s.setBoot fun b => { b with bookTry := 0 }).beginActivation false else s

/-- Without firmware to verify the controller is FAILED until FW_UPDATE. -/
def State.bootController (s : State) : State :=
  if s.boot.probed ∧ s.boot.fwTry = 0 ∧ s.svc.ctrl = .boot then s.setSvc fun v => { v with ctrl := .failed } else s

/-! ### The boot report (R493) -/

/-- Word 2 of the report. -/
def State.reportWord (s : State) : Nat :=
  let b := s.boot
  b.cause % 16 + b.copy % 4 * 0x10 + b.book % 4 * 0x40 + b.bookVerify % 16 * 0x100 + b.fw % 4 * 0x1000
    + b.fwVerify % 16 * 0x4000 + b.image % 4 * 0x40000 + b2n s.fault.compat * 0x100000

/-- SEQ of the next report. -/
def State.reportSeq (s : State) : Nat :=
  let a := s.boot.reportAddr
  let q := s.nvAt (a + 4)
  if s.nvAt a = 0x42525054 ∧ s.nvAt (a + 28) = 0xFFFFFFFF - q ∧ s.nv.badIn a 32 = false then (q + 1) % 2 ^ 32 else 1

/-- Start-up has ended. -/
def State.bootDone (s : State) : Bool :=
  let b := s.boot
  b.probed && !b.powerDue && !b.wake && b.bookTry == 0 && s.board.state != .activating && b.fwTry == 0
    && s.svc.ctrl != .boot && b.imgCmd.isNone && b.deferred == []
    && (decide (b.imgCount ≤ b.imgNext) || (s.board.state == .noBook && s.imgHeld b.imgNext))

/-- The report is written at the end of start-up. -/
def State.bootReport (s : State) : State :=
  if s.boot.reported ∨ s.bootDone = false then s
  else
    let b := s.boot
    let q := s.reportSeq
    let s := s.setBoot fun b => { b with reported := true }
    if b.reportEn ∧ b.reportAddr % 32 = 0 ∧ s.nvProtected b.reportAddr = false then
      s.nvWrite b.reportAddr [0x42525054, q, s.reportWord, b.applied, b.refused, b.firstRefused.getD 0xFFFFFFFF, b.dropped,
        0xFFFFFFFF - q]
    else s

/-- The controller's start-up work at a round boundary. -/
def State.bootRound (s : State) : State :=
  s.bootProbe.bookTaken.bootPower.bootController.pairWaitRound.imageRound.bootReport

/-! ### Stamp-clock lock (R41, R71, R489) -/

/-- The first lock after a reset or WAKE: the coarse count and the round timer start, SC[47] enters RUN, and a start-up
that is no WAKE opens the image. -/
def State.firstLock (s : State) (coarse : Nat) : State :=
  let s := s.setOsc fun o => { o with sclkLock := true, running := true, bnd := coarse, count := 0 }
  let s := (s.chTo 47 .run).setChan 47 fun c => { c with stamping := true }
  if s.boot.wake then s else (s.setBoot fun b => { b with powerDue := true }).openImage

/-- SCLK_LOCK becomes 1. -/
def State.sclkLocks (s : State) (coarse : Nat) : State :=
  if s.boot.started = false ∨ s.dormant ∨ s.osc.sclkLock then s
  else if s.osc.running then s.setOsc fun o => { o with sclkLock := true }
  else s.firstLock coarse

/-! ### The rows -/

/-- RESET_RELEASE: steps 1 and 2 (R482, R488); `flashSize` is what the flash's SFDP table will give. -/
def execResetRelease (flashSize : Fin 32) (s : State) : Host.Outcome State Fault Refusal :=
  if s.boot.resetPin = false ∨ s.boot.started then finish s
  else
    let s := s.setBoot fun b => { b with released := true, started := true, probe := flashSize }
    let s := s.setBudget fun x => { x with pstate := .run }
    finish s.resetDebug.loadFuses.readBootRecord

/-- SCLK_LOCK. -/
def execSclkLock (coarse : Nat) (s : State) : Host.Outcome State Fault Refusal := finish (s.sclkLocks coarse)

/-- SCLK_RECALIBRATE: it may end in lock. -/
def execSclkRecalibrate (locks : Option Nat) (s : State) : Host.Outcome State Fault Refusal :=
  match locks with
  | some c => finish (s.sclkLocks c)
  | none => finish s

/-- RESET_N: low for `heldNs` so far, or high again after it. From 200 ns to 1 µs a pulse resets or not (R482). -/
def execResetN (low : Bool) (heldNs : Nat) (s : State) : Host.Outcome State Fault Refusal :=
  let hit := decide (1000 ≤ heldNs) || (decide (200 ≤ heldNs) && Config.freeInt 9 s.free % 2 == 1)
  let s := s.nextFree
  let s := if hit then s.por 1 else s
  finish (s.setBoot fun b => { b with resetPin := !low })

/-- BROWN_OUT: a POR, with the store as the failing supply left it. -/
def execBrownOut (s : State) : Host.Outcome State Fault Refusal := finish s.brownOut

/-- FLASH_LOAD_DONE. -/
def execFlashLoadDone (words : List Word) (ok : Bool) (s : State) : Host.Outcome State Fault Refusal :=
  finish (s.flashLoaded words ok).bookNext

/-- VERIFY_DONE. -/
def execVerifyDone (s : State) : Host.Outcome State Fault Refusal := finish s.verified.bookNext

/-- FW_VERIFY_DONE. -/
def execFwVerifyDone (image : List Word) (readOk : Bool) (s : State) : Host.Outcome State Fault Refusal :=
  finish (s.fwVerified image readOk)

/-- IMAGE_ENTRY: the next entry, once the previous one has finished. -/
def execImageEntry (s : State) : Host.Outcome State Fault Refusal := finish s.imgAnswer.imageStep

/-- PAIR_WAIT: the wait ends without a record. -/
def execPairWait (s : State) : Host.Outcome State Fault Refusal :=
  finish (match s.boot.pairWait with
    | some (_ + 1) => if s.defers then s.settleRole else s
    | _ => s)

end Sys2Proof.Machine
end

