-- ==== Sys2Proof/Machine/Round.lean ====
section
/-! DEFINITION. A round boundary (R23, R24): what the ending round leaves, the ordered actions of the boundary, and the
board's work of the round that begins. A boundary while the round timer does not run changes nothing. -/

namespace Sys2Proof.Machine

/-! ### The ending round -/

/-- The round timer marks the boundary (R21); the first one after the lock is that of count 0. -/
def Osc.next (o : Osc) : Osc :=
  { o with bnd := if o.count = 0 then o.bnd else o.bnd + roundLen, count := o.count + 1 }

def State.nextBoundary (s : State) : State :=
  let s := s.setOsc Osc.next
  let s := s.links.foldl (fun (s : State) e => s.linkEnds e.1) s
  let s := s.time.doms.foldl (fun (s : State) e => s.setTdom e.1 fun x => { x with wasValid := x.valid }) s
  let s := s.setPair fun p => { p with ordered := s.osc.count % 2 ^ 24 }
  { s with time := { s.time with dev := [] } }

/-- In a round that overruns, block `u` closed its groups in time; which ones do, the schedule fixes and the spec leaves open
(log entry 59). -/
def State.closes (s : State) (u : Nat) : Bool := Config.freeInt (0x800 + u) s.free % 2 == 0

/-- The age of a page's proposals: one lapses at the first boundary after 2 s (R241, R393). -/
def proposalRounds : Nat := 16000

def Proposal.older (q : Proposal) : Proposal := { q with age := q.age + 1 }

def Proposal.lapsed (q : Option Proposal) : Bool := match q with | some q => decide (proposalRounds < q.age) | none => false

/-- The proposals of one page at a boundary. -/
def State.ageProps (s : State) (p : Nat) : State :=
  let s := s.setPage p fun g => { g with prop := g.prop.map Proposal.older, lockProp := g.lockProp.map Proposal.older }
  let s := if Proposal.lapsed (s.page p).prop then s.lapseProp p else s
  if Proposal.lapsed (s.page p).lockProp then s.lapseLock p else s

/-- Every page that holds a proposal, in ascending order. -/
def State.ageAll (s : State) : State :=
  ((List.range 256).filter fun p => (s.page p).prop.isSome || (s.page p).lockProp.isSome).foldl State.ageProps s

/-- The 16 rounds of an activation pass (R295). -/
def State.activationRound (s : State) : State :=
  if s.board.state = .activating then
    let s := s.setBoard fun b => { b with actLeft := b.actLeft - 1 }
    if s.board.actLeft = 0 then s.activated else s
  else s

/-- What the ending round leaves: its count, the record that leaves with it, timers, tests and check windows. -/
def State.roundEnds (s : State) (env : RoundEnv) : State :=
  let first := s.osc.count == 0
  let s := s.nvSettled
  let s := if first then s else s.endBoardRound
  let s := if first ∨ (s.board.late = true ∧ s.closes 0xD0 = false) then s else s.sendRecord
  let s := ((List.range 96).filter fun i => (s.tim i).due != []).foldl State.postDue s
  let s := if first then s.nextBoundary.harvestOpen else s.nextBoundary.setHarvest Harvest.count
  let s := s.ageAll.checkRound
  let s := if s.boardRuns then (List.range 40).foldl (fun s j => (s.outRound env.verify j).verifyDue j) s else s
  (List.range 8).foldl (fun s k => (s.countLocked k).synTimers k) s

/-! ### Steps 2 and 3 -/

/-- The words, and the level, variant and service cap that were chosen for the new round. -/
def State.takeRound (s : State) (env : RoundEnv) : State :=
  let s := (List.range 8).foldl (State.takeWord (env.parity.map Fin.val)) s
  let s := s.activationRound.budgetCounts.takeLevel
  ((s.takeVariant s.budget.level).refloor).capRoundEnd

/-! ### Domains and outputs in the safe state (R433) -/

/-- A domain whose F reaction is due enters INIT with SAFE = 1, and its outputs enter SAFE. -/
def State.enterSafe (s : State) (d : Nat) : State :=
  match (s.dom d).safePend with
  | none => s
  | some id =>
    if s.isInit d then s.setDom d fun x => { x with safePend := none }
    else
      let js := s.domOuts d
      let s := ((s.domInit d).setDom d fun x => { x with safe := true }).setCause d id
      js.foldl (fun (s : State) (j : Nat) =>
        match (s.out j).state with
        | .wait | .run | .squelched => s.setOutState j .safe ((s.out j).cfg.src != 2)
        | _ => s) s

/-- ENABLE of a domain brings its outputs from SAFE to WAIT (R213); `before` is the state in which the domains that were
enabled since are still INIT. -/
def State.leaveSafe (before s : State) : State :=
  (List.range 40).foldl (fun (s : State) (j : Nat) =>
    match s.outDom j with
    | some d =>
      if (s.out j).state = .safe ∧ before.isInit d = true ∧ s.isInit d = false then s.setOutState j .wait true else s
    | none => s) s

/-- Output `j` at the boundary: at a swap, a stronger cause of R218 that reaches it there, SAFE or the loss of its
source, leaves only the new settings for later. -/
def State.outAt (before : State) (swap : Bool) (s : State) (j : Nat) : State :=
  let s := s.setOut j fun o => { o with hit := false }
  let was := (before.out j).state
  let now := (s.out j).state
  if swap ∧ was ≠ now ∧ (now = .safe ∨ now = .squelched) then
    let c := s.cfgOut j
    let err := if bit (s.cfg (outPage j) 0) 0 then s.outError j c else 0
    let s := s.eventIf (err != 0 && err != (s.out j).cfgErr) (outPage j) 1
    (s.setOut j fun o => { o with cfg := c, cfgErr := err }).outBoundary false j
  else s.outBoundary swap j

/-! ### T at the boundary -/

/-- The stamps of the ending round reach the synthesisers and the oscillators. -/
def State.fillStamps (s : State) : State :=
  (List.range 8).foldl (fun (s : State) (k : Nat) =>
    let l := (s.chan (36 + k)).drained
    let e := match l, l.getLast? with | a :: _, some z => some (a.edge, z.edge) | _, _ => none
    s.setSyn k fun y => { y with fb := l.map (·.t), fbEdge := e }) s

/-- The board takes in the ending round; `ran` says that it ran in it. -/
def State.intake (s : State) (env : RoundEnv) (ran : Bool) : State :=
  let s := env.warm.foldl (fun (s : State) w => s.setChan w.1 fun c => { c with warm := w.2 }) s
  let s := s.drainAll ran env.ecc
  let s := if s.boardRuns ∧ s.osc.count ≠ 1 then s.stampRound env (s.roundNow - 1) else s
  s.fillStamps

/-- The phase that the feedback of a domain in INIT has gained in the round: 0 unless one run of its events goes on. -/
def State.idlePhase (a b : Syn) : Int :=
  match a.fbTrack, b.fbTrack with
  | some x, some y => if x.anchor = y.anchor ∧ 2 ≤ b.fb.length then b.fbX - a.fbX else 0
  | _, _ => 0

/-- Feedback phases and T; `before` is the state before the boundary's commands: no edge of the ending round follows an
ENABLE or a TIME_REARM of this boundary (R165, R230). -/
def State.phases (before s : State) : State :=
  let s := (List.range 8).foldl State.feedFb s
  let s := (List.range 40).foldl State.startTime s
  let s := (List.range 12).foldl (fun (s : State) (d : Nat) => if before.isInit d then s else s.fbRound d) s
  (List.range 4).foldl (fun (s : State) (t : Nat) =>
    let fresh := (s.tdom t).anchor && (before.isInit t || !(before.tdom t).anchor)
    let idle := if before.isInit t then State.idlePhase (before.syn (s.dom t).fbSyn) (s.syn (s.dom t).fbSyn) else (s.dom t).dx
    State.timeRound fresh idle s t) s

/-- What T of each time domain gains in the ending round, when a step at this boundary needs it (R238). -/
def State.gains (s : State) (env : RoundEnv) (ran : Bool) : List Int :=
  if (s.page 0x09).pend.isSome ∨ (List.range 4).any (fun t => (s.tdom t).autoStep) then
    let a := State.phases s (s.intake env ran)
    (List.range 4).map fun t => (a.tdom t).t - (s.tdom t).t
  else []

/-- Move T of the time domains by the gains, forth before the steps of a boundary and back after them. -/
def State.moveTimes (s : State) (gs : List Int) (back : Bool) : State :=
  (gs.zipIdx).foldl (fun (s : State) (g : Int × Nat) =>
    s.setTdom g.2 fun x => { x with t := if back then x.t - g.1 else x.t + g.1 }) s

/-- STEP_TIME, TIME_REARM and AUTO_STEP at their boundary, where T is that of the boundary. -/
def State.timeSteps (s : State) (gs : List Int) : State :=
  let s := (s.moveTimes gs false).timeApply
  ((List.range 4).foldl State.autoApply s).moveTimes gs true

/-! ### Step 4 -/

/-- What a swap boundary does to the units that act on their configuration at once; `old` is the state before it. -/
def State.swapEffects (old s : State) : State :=
  let s := State.predivSwap old s
  let s := (List.range 40).foldl (State.qualSwap old) s
  let s := (List.range 12).foldl (fun s d => State.loopSwap old s d) s
  State.retarget old (State.serviceSwap old s).essCheck

/-- The exchange of the sets, when a cause falls here; the first boundary after WAKE is a swap boundary without one
(R506). -/
def State.swapStep (s : State) : State × Bool :=
  let old := s
  let wake := s.osc.wakeSwap
  let (s, now, copy) := s.sysApply
  let due := now || s.sys.swapPend || s.sys.swapTrg
  let s := if due then s.swapNow s.roundNow else s
  let s := if copy then s.copyNow else s
  let s := s.setOsc fun o => { o with wakeSwap := false }
  if due || wake then (State.swapEffects old s, true) else (s, false)

/-- The commands that wait for the boundary, page by page; those of the TIME page come before the triggers, those of the
stamp and TIM pages follow the drain. -/
def State.commands (s : State) : State :=
  let s := (List.range 12).foldl State.domApply s
  let s := (List.range 40).foldl State.qualApply s
  let s := (s.cellRound.cellApply).schedApply.bootActivate
  let s := s.harvestApply.tsvcApply
  s.portApply.pairApply

/-- Step 4 of R23, `ends` being the state at the end of the ending round: the steps of T, triggers, swap, safe state, commands; then synthesisers, outputs and links act on what results. -/
def State.actStep (ends s : State) (env : RoundEnv) (ran : Bool) : State :=
  let s := (List.range 12).foldl State.enterSafe s
  let s := s.timeSteps (s.trgFireAll.swapStep.1.gains env ran)
  let (s, swap) := s.trgFireAll.swapStep
  let before := s
  let s := s.commands
  let s := State.leaveSafe before (s.synAssign swap)
  let s := (List.range 40).foldl (State.outAt ends swap) s
  let s := (List.range 8).foldl State.synApply s
  let s := (List.range 40).foldl State.outApply s
  let s := (List.range 8).foldl (State.linkBoundary swap) s
  let s := ((List.range 8).filter fun v => bit (s.linkCfg v) 0 || (s.link v).state != .off).foldl (fun s v =>
    State.stageLink (ends.board.late && !ends.closes (0xC8 + v)) ends s v) s
  s.faultApply.budgetApply

/-! ### Step 5 -/

/-- The harvest boundary, when it is due, and the model records of a 900 s one. -/
def State.latchStep (s : State) : State :=
  let (s, quarter) := s.archResume.harvestStep
  let s := if quarter then s.saveModels else s
  s.archRound.setHarvest (Harvest.seeVariant s.varSeen)

/-! ### Step 6: the board -/

/-- Contexts: those that ran in the ending round take its stamps under the configuration they had in it; then a swap and
the commands of this boundary act on them (R76, R77, R92); aligned ones begin at a 1 s boundary (R75). `before` is the
state before step 4. -/
def State.timStep (before s : State) : State :=
  let is := (List.range 96).filter fun i => (before.tim i).state == .running
  let s := is.foldl (fun (s : State) (i : Nat) =>
    let c := before.timCfg i
    if s.boardRuns = false then s.timIdle c i
    else if s.board.late = true ∧ s.closes (0x60 + i) = false then s
    else s.timRound c i) s
  let s := is.foldl (State.timSwap before) s
  let second := s.harvest.b1.seq != before.harvest.b1.seq
  let s := (s.timApply 0).timApply 1
  if second then s.timAligned else s

/-- LOCKED time domains: the last whole second of T (R348). -/
def State.noteLocked (s : State) (t : Nat) : State :=
  if (s.dom t).state = .locked then
    s.setTdom t fun x => { x with lockedSec := (floorDiv x.t secUnits).toNat }
  else s

/-- The time domains in a round that the board runs: leap, triggers, sources and captures. -/
def State.timeWork (s : State) : State :=
  let s := (List.range 4).foldl (fun s t => (s.leapRound t).leapCheck t) s
  s.trgRound.timedSwapRound

/-- A page's event bits and counters as they were. -/
def State.pageBack (old s : State) (p : Nat) : State :=
  let keys := ((s.ctr ++ old.ctr).map (·.1)).filter fun k => k / 0x1000 == p
  { (s.setPage p fun g => { g with event := (old.page p).event }) with
    ctr := keys.foldl (fun (t : Table Nat) (k : Nat) => tput (fun _ => 0) t k (tget (fun _ => 0) old.ctr k)) s.ctr }

/-- A round that overruns: the blocks whose groups did not close in time stay as they were in `old` (R26, R284). -/
def State.abandonRound (old s : State) : State :=
  if s.board.late = false then s
  else
    let s := ((List.range 12).filter fun d => !s.closes d).foldl (fun (s : State) (d : Nat) =>
      (State.pageBack old s (domPage d)).setDom d fun _ => old.dom d) s
    let s := ((List.range 40).filter fun i => !s.closes (0x10 + i)).foldl (fun (s : State) (i : Nat) =>
      (State.pageBack old s (qualPage i)).setQual i fun _ => old.qual i) s
    let s := ((List.range 4).filter fun t => !s.closes (0x40 + t)).foldl (fun (s : State) (t : Nat) =>
      let x := old.tdom t
      s.setTdom t fun y => { y with
        pulses := x.pulses, nextLabel := x.nextLabel, srcOk := x.srcOk, autoStep := x.autoStep }) s
    let s := ((List.range 8).filter fun k => !s.closes (0x50 + k)).foldl (fun (s : State) (k : Nat) =>
      let x := old.syn k
      s.setSyn k fun y => { y with
        staged := none, y := x.y, yComp := x.yComp, followErr := x.followErr, followPh := x.followPh
        followI := x.followI, followBad := x.followBad }) s
    if s.closes 0xD1 then s else { s with osc := old.osc }

/-- The round of a board that runs (R134, R283 to R285). -/
def State.boardRound (before s : State) (env : RoundEnv) : State :=
  let s := (s.beginBoardRound env.late env.tempos).cellsRound
  let s := (State.phases before s).timeWork
  let s := State.leaveSafe s s.pairRound
  let old := s
  let s := s.oscStamps.tbAgeRound
  let s := (List.range 4).foldl State.sourceRound s
  let s := (List.range 4).foldl State.capRound s
  let s := State.qualRound before s
  let s := (List.range 12).foldl (fun s d => (s.selRound d).loopRound d) s
  let s := s.pairAlign
  let s := s.links.foldl (fun (s : State) e => s.linkDomain e.1) s
  let s := (List.range 8).foldl (fun s k => s.followRound k) s
  let s := (List.range 8).foldl (fun s k => s.stageWord k) s
  (List.range 4).foldl State.noteLocked (State.abandonRound old s)

/-- A candidate in a round that the board does not run holds as R114 fixes for a frozen one (R296). -/
def State.candIdle (s : State) (i : Nat) : State :=
  let s := if 32 ≤ i ∧ i < 36 then s.esmcRound i else s
  if (s.qual i).state = .disabled then s.setQual i fun q => { q with frozen := true, samples := [] }
  else ((s.setQual i fun q => { q with
    errs := q.errs.filterMap fun e => if e.1 + 1 < errRounds then some (e.1 + 1, e.2) else none }).qualFreeze i).countQualified i

/-- A domain in such a round holds as R189 fixes for a frozen one (R296). -/
def State.domIdle (s : State) (d : Nat) : State :=
  if s.isInit d then s
  else ((slotNums.foldl (State.idleSlot d) s).setDom d fun x => { x with
    xraw := x.xraw + x.slope, dx := x.slope }).loopFreeze d

/-- The pair logic in such a round: records and roles, without mirror and offset. -/
def State.pairIdle (s : State) : State :=
  if s.pair.bound = false then s
  else
    let s := match s.pair.inbox with
      | some r => (s.applyRecord r).roleRecord r
      | none => s
    s.lossRound.castleRound

/-- A round that the board does not run: NO_BOOK, or one of the 16 of an activation. -/
def State.idleRound (s : State) : State :=
  let s := s.setBoard fun b => { b with late := false, tempos := 0, staging := [] }
  let s := (List.range 12).foldl State.domIdle s
  let s := (List.range 4).foldl (fun s t => State.timeRound false (if s.isInit t then 0 else (s.dom t).dx) s t) s
  let s := s.links.foldl (fun (s : State) e => s.linkDomain e.1) s
  ((List.range 40).foldl State.candIdle s).pairIdle

/-- Step 6: the board begins the new round, and the other units do their work of a round; `before` is the state before
step 4. -/
def State.workStep (before s : State) (env : RoundEnv) (ran : Bool) : State :=
  let s := s.intake env ran
  let s := (List.range 48).foldl State.stampApply s
  let s := if s.boardRuns then State.boardRound before s env else s.idleRound
  let s := (State.timStep before s).serviceRound
  let s := s.logResume.sweepRound.fallbackRound
  (s.bootRound).logDrain 16

/-! ### The boundary -/

/-- While the round timer runs, nothing else of a boundary moves its count (R21). -/
def Osc.marked (before o : Osc) : Osc :=
  if o.running then { o with bnd := before.next.bnd, count := before.next.count } else o

/-- ROUND_BOUNDARY. A boundary that begins DORMANT or BIST ends with step 4. -/
def State.roundBoundary (s : State) (env : RoundEnv) : State :=
  if s.roundsRun = false then s
  else
    let before := s.osc
    let ran := s.boardRuns && s.osc.count != 0
    let ends := s.roundEnds env
    let start := ends.takeRound env
    let s := State.actStep ends start env ran
    let s := if s.roundsRun = false then s else State.workStep start s.latchStep env ran
    s.setOsc (Osc.marked before)

/-- ROUND_BOUNDARY. -/
def execRoundBoundary (env : RoundEnv) (s : State) : Host.Outcome State Fault Refusal := finish (s.roundBoundary env)

end Sys2Proof.Machine
end

