-- ==== Sys2Proof/Machine/Dispatch.lean ====
section
/-! DEFINITION. The meaning of every command: one arm per row of the table. -/

namespace Sys2Proof.Machine

def exec (i : Instr) (s : State) : Host.Outcome State Fault Refusal :=
  match i with
  | .roundBoundary env => Sys2Proof.Machine.execRoundBoundary env s
  | .harvestBoundary => Sys2Proof.Machine.execHarvestBoundary s
  | .sclkLock coarse => Sys2Proof.Machine.execSclkLock coarse s
  | .oscSclkUnlock => Sys2Proof.Machine.execOscSclkUnlock s
  | .stampEvent ch coarse raw falling => Sys2Proof.Machine.execStampEvent ch coarse raw falling s
  | .stampEnable ch m => Sys2Proof.Machine.execStampEnable ch m s
  | .stampDisable ch m => Sys2Proof.Machine.execStampDisable ch m s
  | .predivSync ch m => Sys2Proof.Machine.execPredivSync ch m s
  | .stampTest ch m => Sys2Proof.Machine.execStampTest ch m s
  | .stampRetry ch m => Sys2Proof.Machine.execStampRetry ch m s
  | .linRestart ch m => Sys2Proof.Machine.execLinRestart ch m s
  | .startingEnd ch => Sys2Proof.Machine.execStartingEnd ch s
  | .stampTestEnd ch => Sys2Proof.Machine.execStampTestEnd ch s
  | .linTableComplete ch interpB => Sys2Proof.Machine.execLinTableComplete ch interpB s
  | .tbFollowing => Sys2Proof.Machine.execTbFollowing s
  | .oscTbSrcLoss => Sys2Proof.Machine.execOscTbSrcLoss s
  | .tbResume => Sys2Proof.Machine.execTbResume s
  | .tbCrystal => Sys2Proof.Machine.execTbCrystal s
  | .timStart p m => Sys2Proof.Machine.execTimStart p m s
  | .timStop p m => Sys2Proof.Machine.execTimStop p m s
  | .clearStab p m => Sys2Proof.Machine.execClearStab p m s
  | .gateEnd ix => Sys2Proof.Machine.execGateEnd ix s
  | .tieSample ix => Sys2Proof.Machine.execTieSample ix s
  | .resync m => Sys2Proof.Machine.execResync m s
  | .archClear m => Sys2Proof.Machine.execArchClear m s
  | .qualEnable ix m => Sys2Proof.Machine.execQualEnable ix m s
  | .qualDisable ix m => Sys2Proof.Machine.execQualDisable ix m s
  | .forceOut ix m => Sys2Proof.Machine.execForceOut ix m s
  | .restore ix m => Sys2Proof.Machine.execRestore ix m s
  | .skipSoak ix m => Sys2Proof.Machine.execSkipSoak ix m s
  | .clearMask ix m => Sys2Proof.Machine.execClearMask ix m s
  | .soakExpiry ix => Sys2Proof.Machine.execSoakExpiry ix s
  | .guardExpiry ix => Sys2Proof.Machine.execGuardExpiry ix s
  | .fwGateEnd ix => Sys2Proof.Machine.execFwGateEnd ix s
  | .maskSample ix => Sys2Proof.Machine.execMaskSample ix s
  | .esmcTimeout p => Sys2Proof.Machine.execEsmcTimeout p s
  | .receiverRelock p => Sys2Proof.Machine.execReceiverRelock p s
  | .linkChange p up => Sys2Proof.Machine.execLinkChange p up s
  | .forceSelect d m => Sys2Proof.Machine.execForceSelect d m s
  | .manualSelect d m => Sys2Proof.Machine.execManualSelect d m s
  | .clearSelect d m => Sys2Proof.Machine.execClearSelect d m s
  | .park d m => Sys2Proof.Machine.execPark d m s
  | .unpark d m => Sys2Proof.Machine.execUnpark d m s
  | .realignBo d m => Sys2Proof.Machine.execRealignBo d m s
  | .wtrExpiry d => Sys2Proof.Machine.execWtrExpiry d s
  | .parkTimeExpiry d slot => Sys2Proof.Machine.execParkTimeExpiry d slot s
  | .wtSample d => Sys2Proof.Machine.execWtSample d s
  | .domEnable d m => Sys2Proof.Machine.execDomEnable d m s
  | .domDisable d m => Sys2Proof.Machine.execDomDisable d m s
  | .forceHoldover d m => Sys2Proof.Machine.execForceHoldover d m s
  | .releaseHoldover d m => Sys2Proof.Machine.execReleaseHoldover d m s
  | .sluiceRestart d m => Sys2Proof.Machine.execSluiceRestart d m s
  | .modelReset d m => Sys2Proof.Machine.execModelReset d m s
  | .modelSave d m => Sys2Proof.Machine.execModelSave d m s
  | .lockCriterion d => Sys2Proof.Machine.execLockCriterion d s
  | .unlockCriterion d => Sys2Proof.Machine.execUnlockCriterion d s
  | .holdoverLimit d => Sys2Proof.Machine.execHoldoverLimit d s
  | .sluiceSegmentEnd d => Sys2Proof.Machine.execSluiceSegmentEnd d s
  | .modelSample d => Sys2Proof.Machine.execModelSample d s
  | .domFbLoss d => Sys2Proof.Machine.execDomFbLoss d s
  | .domFbRange d => Sys2Proof.Machine.execDomFbRange d s
  | .synCalDone k band => Sys2Proof.Machine.execSynCalDone k band s
  | .synVcoRange k => Sys2Proof.Machine.execSynVcoRange k s
  | .synLock k => Sys2Proof.Machine.execSynLock k s
  | .synUnlock k => Sys2Proof.Machine.execSynUnlock k s
  | .synRelockTimeout k => Sys2Proof.Machine.execSynRelockTimeout k s
  | .synFollowRange k => Sys2Proof.Machine.execSynFollowRange k s
  | .divSync k m => Sys2Proof.Machine.execDivSync k m s
  | .divSyncEpoch k => Sys2Proof.Machine.execDivSyncEpoch k s
  | .synRetry k m => Sys2Proof.Machine.execSynRetry k m s
  | .outputStart j => Sys2Proof.Machine.execOutputStart j s
  | .moveSwitch j => Sys2Proof.Machine.execMoveSwitch j s
  | .outVerify j m => Sys2Proof.Machine.execOutVerify j m s
  | .verifyEnd j => Sys2Proof.Machine.execVerifyEnd j s
  | .outRestart j m => Sys2Proof.Machine.execOutRestart j m s
  | .outRetry j m => Sys2Proof.Machine.execOutRetry j m s
  | .outDriver j => Sys2Proof.Machine.execOutDriver j s
  | .outBankSupply b => Sys2Proof.Machine.execOutBankSupply b s
  | .outDivMismatch j => Sys2Proof.Machine.execOutDivMismatch j s
  | .stepTime m => Sys2Proof.Machine.execStepTime m s
  | .timeRearm m => Sys2Proof.Machine.execTimeRearm m s
  | .autoStep t => Sys2Proof.Machine.execAutoStep t s
  | .uartMessage u bytes afterUs beforeUs => Sys2Proof.Machine.execUartMessage u bytes afterUs beforeUs s
  | .ppsPulse t => Sys2Proof.Machine.execPpsPulse t s
  | .leap t => Sys2Proof.Machine.execLeap t s
  | .trgFired g => Sys2Proof.Machine.execTrgFired g s
  | .timedSwapDue => Sys2Proof.Machine.execTimedSwapDue s
  | .tick v => Sys2Proof.Machine.execTick v s
  | .loadHost m => Sys2Proof.Machine.execLoadHost m s
  | .loadFlash m => Sys2Proof.Machine.execLoadFlash m s
  | .bookData m value => Sys2Proof.Machine.execBookData m value s
  | .flashLoadDone words ok => Sys2Proof.Machine.execFlashLoadDone words ok s
  | .schedVerify m => Sys2Proof.Machine.execSchedVerify m s
  | .verifyDone => Sys2Proof.Machine.execVerifyDone s
  | .activateWarm m => Sys2Proof.Machine.execActivateWarm m s
  | .activateCold m => Sys2Proof.Machine.execActivateCold m s
  | .activationComplete => Sys2Proof.Machine.execActivationComplete s
  | .schedClear m => Sys2Proof.Machine.execSchedClear m s
  | .resume m => Sys2Proof.Machine.execResume m s
  | .spareIn m => Sys2Proof.Machine.execSpareIn m s
  | .cellTest m => Sys2Proof.Machine.execCellTest m s
  | .cellTestDone c pass => Sys2Proof.Machine.execCellTestDone c pass s
  | .storeScrub err => Sys2Proof.Machine.execStoreScrub err s
  | .bind m => Sys2Proof.Machine.execBind m s
  | .unbind m => Sys2Proof.Machine.execUnbind m s
  | .castle m => Sys2Proof.Machine.execCastle m s
  | .recordArrival bytes => Sys2Proof.Machine.execRecordArrival bytes s
  | .orderedSet count coarse => Sys2Proof.Machine.execOrderedSet count coarse s
  | .blockLock => Sys2Proof.Machine.execBlockLock s
  | .syncStep => Sys2Proof.Machine.execSyncStep s
  | .partnerLost => Sys2Proof.Machine.execPartnerLost s
  | .castleFail => Sys2Proof.Machine.execCastleFail s
  | .takenEnd => Sys2Proof.Machine.execTakenEnd s
  | .aligned => Sys2Proof.Machine.execAligned s
  | .alignLoss => Sys2Proof.Machine.execAlignLoss s
  | .pairPclkLoss => Sys2Proof.Machine.execPairPclkLoss s
  | .pairAlignRange => Sys2Proof.Machine.execPairAlignRange s
  | .frameReceived p frame => Sys2Proof.Machine.execFrameReceived p frame s
  | .ntpRequest p q => Sys2Proof.Machine.execNtpRequest p q s
  | .ntsRequest p q n => Sys2Proof.Machine.execNtsRequest p q n s
  | .sync ix msg => Sys2Proof.Machine.execSync ix msg s
  | .followUp ix seq origin correction => Sys2Proof.Machine.execFollowUp ix seq origin correction s
  | .delayReq p ctx msg => Sys2Proof.Machine.execDelayReq p ctx msg s
  | .delayResp ix seq receive correction => Sys2Proof.Machine.execDelayResp ix seq receive correction s
  | .announce ix a => Sys2Proof.Machine.execAnnounce ix a s
  | .signaling p q => Sys2Proof.Machine.execSignaling p q s
  | .arpRequest p ipv6 target => Sys2Proof.Machine.execArpRequest p ipv6 target s
  | .esmcPdu p ssm enhanced => Sys2Proof.Machine.execEsmcPdu p ssm enhanced s
  | .launch => Sys2Proof.Machine.execLaunch s
  | .syncTx p ctx at_ => Sys2Proof.Machine.execSyncTx p ctx at_ s
  | .announceTx p ctx => Sys2Proof.Machine.execAnnounceTx p ctx s
  | .delayReqTx ix at_ => Sys2Proof.Machine.execDelayReqTx ix at_ s
  | .clientSample ix => Sys2Proof.Machine.execClientSample ix s
  | .announceTimeout ix => Sys2Proof.Machine.execAnnounceTimeout ix s
  | .grantExpiry ctx => Sys2Proof.Machine.execGrantExpiry ctx s
  | .bucketDecay => Sys2Proof.Machine.execBucketDecay s
  | .esmcInfoPdu p => Sys2Proof.Machine.execEsmcInfoPdu p s
  | .txHeldReturn p => Sys2Proof.Machine.execTxHeldReturn p s
  | .gratuitousArp => Sys2Proof.Machine.execGratuitousArp s
  | .hqRxData m => Sys2Proof.Machine.execHqRxData m s
  | .hqRxPop m value => Sys2Proof.Machine.execHqRxPop m value s
  | .hqTxCtrl m value => Sys2Proof.Machine.execHqTxCtrl m value s
  | .hqTxData m value => Sys2Proof.Machine.execHqTxData m value s
  | .keyInstall m => Sys2Proof.Machine.execKeyInstall m s
  | .keyCurrent m => Sys2Proof.Machine.execKeyCurrent m s
  | .keyErase m => Sys2Proof.Machine.execKeyErase m s
  | .fwUpdate m => Sys2Proof.Machine.execFwUpdate m s
  | .fwVerifyDone image readOk => Sys2Proof.Machine.execFwVerifyDone image readOk s
  | .rlClear m => Sys2Proof.Machine.execRlClear m s
  | .portRestart m => Sys2Proof.Machine.execPortRestart m s
  | .tsvcCtrlWdog => Sys2Proof.Machine.execTsvcCtrlWdog s
  | .ctrlRestartDone => Sys2Proof.Machine.execCtrlRestartDone s
  | .budgetLatch env => Sys2Proof.Machine.execBudgetLatch env s
  | .budgetHoldExpiry => Sys2Proof.Machine.execBudgetHoldExpiry s
  | .sag mv => Sys2Proof.Machine.execSag mv s
  | .supplyFault r mv => Sys2Proof.Machine.execSupplyFault r mv s
  | .brownOut => Sys2Proof.Machine.execBrownOut s
  | .thermTrip sensor => Sys2Proof.Machine.execThermTrip sensor s
  | .dormant m => Sys2Proof.Machine.execDormant m s
  | .wake m => Sys2Proof.Machine.execWake m s
  | .spiWrite bytes => Sys2Proof.Machine.execSpiWrite bytes s
  | .spiRead bytes => Sys2Proof.Machine.execSpiRead bytes s
  | .spiStatus bytes => Sys2Proof.Machine.execSpiStatus bytes s
  | .gwrite bytes => Sys2Proof.Machine.execGwrite bytes s
  | .spiUnknownOpcode bytes => Sys2Proof.Machine.execSpiUnknownOpcode bytes s
  | .pcieRequest q => Sys2Proof.Machine.execPcieRequest q s
  | .pcieLinkChange up => Sys2Proof.Machine.execPcieLinkChange up s
  | .perstN low => Sys2Proof.Machine.execPerstN low s
  | .guardedWrite m page off value => Sys2Proof.Machine.execGuardedWrite m page off value s
  | .guard_ m page value => Sys2Proof.Machine.execGuard m page value s
  | .guardFail m => Sys2Proof.Machine.execGuardFail m s
  | .aliasWrite m addr value => Sys2Proof.Machine.execAliasWrite m addr value s
  | .pageForce m page value => Sys2Proof.Machine.execPageForce m page value s
  | .snapshotRead m page off => Sys2Proof.Machine.execSnapshotRead m page off s
  | .registerWrite m page off value => Sys2Proof.Machine.execRegisterWrite m page off value s
  | .cmdUnknown m page code => Sys2Proof.Machine.execCmdUnknown m page code s
  | .bridgeTimeout m addr wr => Sys2Proof.Machine.execBridgeTimeout m addr wr s
  | .swapSets m => Sys2Proof.Machine.execSwapSets m s
  | .swapSetsTimed m => Sys2Proof.Machine.execSwapSetsTimed m s
  | .swapCancel m => Sys2Proof.Machine.execSwapCancel m s
  | .copySets m => Sys2Proof.Machine.execCopySets m s
  | .resetFull m => Sys2Proof.Machine.execResetFull m s
  | .resetIslands m => Sys2Proof.Machine.execResetIslands m s
  | .resetService m => Sys2Proof.Machine.execResetService m s
  | .claim m => Sys2Proof.Machine.execClaim m s
  | .complete m value => Sys2Proof.Machine.execComplete m value s
  | .swSet m value => Sys2Proof.Machine.execSwSet m value s
  | .tgtCtrl m value => Sys2Proof.Machine.execTgtCtrl m value s
  | .fallback n => Sys2Proof.Machine.execFallback n s
  | .faultEvent page bit unit detail => Sys2Proof.Machine.execFaultEvent page bit unit detail s
  | .checkWindowEnd slot => Sys2Proof.Machine.execCheckWindowEnd slot s
  | .uAck m value => Sys2Proof.Machine.execUAck m value s
  | .recRelease m value => Sys2Proof.Machine.execRecRelease m value s
  | .fAck m => Sys2Proof.Machine.execFAck m s
  | .bist m => Sys2Proof.Machine.execBist m s
  | .bistEnd failType => Sys2Proof.Machine.execBistEnd failType s
  | .sweepRestart m => Sys2Proof.Machine.execSweepRestart m s
  | .sweepStep => Sys2Proof.Machine.execSweepStep s
  | .sweepRetry => Sys2Proof.Machine.execSweepRetry s
  | .faultSweepLate => Sys2Proof.Machine.execFaultSweepLate s
  | .win m w value => Sys2Proof.Machine.execWin m w value s
  | .countInit m => Sys2Proof.Machine.execCountInit m s
  | .countInc m => Sys2Proof.Machine.execCountInc m s
  | .countRead m => Sys2Proof.Machine.execCountRead m s
  | .bpSet m => Sys2Proof.Machine.execBpSet m s
  | .logClear m => Sys2Proof.Machine.execLogClear m s
  | .logAppend => Sys2Proof.Machine.execLogAppend s
  | .runHours => Sys2Proof.Machine.execRunHours s
  | .nvScrub w err => Sys2Proof.Machine.execNvScrub w err s
  | .nvHoldupLow low => Sys2Proof.Machine.execNvHoldupLow low s
  | .lcSet m => Sys2Proof.Machine.execLcSet m s
  | .dbgSet m => Sys2Proof.Machine.execDbgSet m s
  | .keyWrite m => Sys2Proof.Machine.execKeyWrite m s
  | .keyRevoke m => Sys2Proof.Machine.execKeyRevoke m s
  | .minverSet m => Sys2Proof.Machine.execMinverSet m s
  | .proposalCancel m page => Sys2Proof.Machine.execProposalCancel m page s
  | .lapse page => Sys2Proof.Machine.execLapse page s
  | .secCryptoKat ok => Sys2Proof.Machine.execSecCryptoKat ok s
  | .pstoreScrub err => Sys2Proof.Machine.execPstoreScrub err s
  | .tapInstruction q => Sys2Proof.Machine.execTapInstruction q s
  | .resetN low heldNs => Sys2Proof.Machine.execResetN low heldNs s
  | .resetRelease flashSize => Sys2Proof.Machine.execResetRelease flashSize s
  | .imageEntry => Sys2Proof.Machine.execImageEntry s
  | .pairWait => Sys2Proof.Machine.execPairWait s
  | .sclkRecalibrate locks => Sys2Proof.Machine.execSclkRecalibrate locks s
  | .castlingLinkDown => Sys2Proof.Machine.execCastlingLinkDown s
  | .pcieConfigRequest q => Sys2Proof.Machine.execPcieConfigRequest q s

end Sys2Proof.Machine
end

