-- ==== Sys2Proof/Safety.lean ====
section
/-! DEFINITION. The terms that claims use: a step that goes on, a state whose units are those of another, and the
requests that follow the eligible sources; the forms in which claims say what a command does. -/

namespace Sys2Proof

open Machine

/-- The block answers a next state. -/
def Safety.Continues (s : State) : Prop := ∃ t, step s = .next t

/-- The fault unit but for what the collector holds: captures, queue and check slots. -/
def Safety.faultRest (f : FaultUnit) : FaultUnit :=
  { f with captures := [], queue := [], queueOvf := false, rseq := 0, slots := [] }

/-- `t` is `s` but for what records and interrupt requests touch: the fault collector, interrupt delivery, the PAGE_EVENT
and PAGE_FAULT flags, counters, the NV store and the serial number of free values. -/
structure Safety.Kept (s t : State) : Prop where
  pending : t.pending = s.pending
  sys : t.sys = s.sys
  active : t.active = s.active
  shadow : t.shadow = s.shadow
  direct : t.direct = s.direct
  osc : t.osc = s.osc
  chans : t.chans = s.chans
  tims : t.tims = s.tims
  harvest : t.harvest = s.harvest
  quals : t.quals = s.quals
  doms : t.doms = s.doms
  syns : t.syns = s.syns
  outs : t.outs = s.outs
  time : t.time = s.time
  links : t.links = s.links
  board : t.board = s.board
  pair : t.pair = s.pair
  svc : t.svc = s.svc
  budget : t.budget = s.budget
  sec : t.sec = s.sec
  boot : t.boot = s.boot
  fault : Safety.faultRest t.fault = Safety.faultRest s.fault
  page : ∀ p, { t.page p with event := (s.page p).event, fault := (s.page p).fault } = s.page p

/-- Every unit reads in `t` as in `s`, but for what records and interrupt requests touch and for the common registers of
the pages in `but`. -/
structure Safety.Same (s t : State) (but : List Nat := []) : Prop where
  pending : t.pending = s.pending
  sys : t.sys = s.sys
  active : t.active = s.active
  shadow : t.shadow = s.shadow
  direct : t.direct = s.direct
  osc : t.osc = s.osc
  chan : ∀ i, t.chan i = s.chan i
  tim : ∀ i, t.tim i = s.tim i
  harvest : t.harvest = s.harvest
  qual : ∀ i, t.qual i = s.qual i
  dom : ∀ i, t.dom i = s.dom i
  syn : ∀ i, t.syn i = s.syn i
  out : ∀ i, t.out i = s.out i
  time : { t.time with doms := s.time.doms } = s.time
  tdom : ∀ i, t.tdom i = s.tdom i
  link : ∀ i, t.link i = s.link i
  board : { t.board with cells := s.board.cells } = s.board
  cell : ∀ i, t.cell i = s.cell i
  pair : t.pair = s.pair
  svc : { t.svc with ports := s.svc.ports, clients := s.svc.clients, grants := s.svc.grants } = s.svc
  port : ∀ i, t.port i = s.port i
  client : ∀ i, t.client i = s.client i
  grant : ∀ i, t.grant i = s.grant i
  budget : t.budget = s.budget
  sec : t.sec = s.sec
  boot : t.boot = s.boot
  fault : Safety.faultRest t.fault = Safety.faultRest s.fault
  page : ∀ p, p ∉ but → { t.page p with event := (s.page p).event, fault := (s.page p).fault } = s.page p

/-- `t` is `s` but for what a fault event in native mode may touch besides its source's own reaction: what `Kept`
allows, the F reaction (the domain's due SAFE, the levels its outputs hold), a castling request and a stopped port
(R422, R423, R433). -/
structure Safety.Reported (s t : State) : Prop where
  pending : t.pending = s.pending
  sys : t.sys = s.sys
  active : t.active = s.active
  shadow : t.shadow = s.shadow
  direct : t.direct = s.direct
  osc : t.osc = s.osc
  chans : t.chans = s.chans
  tims : t.tims = s.tims
  harvest : t.harvest = s.harvest
  quals : t.quals = s.quals
  syns : t.syns = s.syns
  time : t.time = s.time
  links : t.links = s.links
  board : t.board = s.board
  budget : t.budget = s.budget
  sec : t.sec = s.sec
  boot : t.boot = s.boot
  fault : Safety.faultRest t.fault = Safety.faultRest s.fault
  svc : { t.svc with ports := s.svc.ports } = s.svc
  port : ∀ p, { t.port p with svcStop := (s.port p).svcStop } = s.port p
  dom : ∀ d, { t.dom d with safePend := (s.dom d).safePend } = s.dom d
  out : ∀ j, t.out j = s.out j ∨ t.out j = { s.out j with held := true }
  pair : { t.pair with
    castleReq := s.pair.castleReq, castleBusy := s.pair.castleBusy, reqLeft := s.pair.reqLeft, cause := s.pair.cause
    lastCause := s.pair.lastCause, waiting := s.pair.waiting } = s.pair
  page : ∀ p, { t.page p with event := (s.page p).event, fault := (s.page p).fault } = s.page p

/-- REQ of both targets, and both lines, are what the eligible sources make them: a target requests exactly while it has
an eligible source, the guardian's line is its request, and the control host's line stays released while MSIs serve an
awake host (R411, R414, R417). A source that judges on the other target has been claimed or its own target sleeps. -/
def Safety.RequestsFollow (s : State) : Prop :=
  s.irq.reqC = ((s.eligible false).length != 0) ∧ s.irq.reqG = ((s.eligible true).length != 0) ∧
  s.irq.lineG = s.irq.reqG ∧ s.irq.lineC = (s.irq.reqC && !(s.msiMode && !s.asleep false)) ∧
  ∀ n ∈ s.irq.moved, (s.irq.insvcC ++ s.irq.insvcG).contains n = true ∨ s.asleep (s.ownG n) = true

end Sys2Proof

/-! ### The form of claims about commands -/

namespace Sys2Proof.Stated

open Machine

/-- A write by master `m` reaches page `p`: registers answer, the master may write, the page's island runs, and the
master has no guarded value staged (R368, R392, R471). -/
def Ready (s : State) (p : Nat) (m : Master) : Prop :=
  s.boot.released = true ∧ s.mayAccess (masterCode m) true = true ∧ s.reaches p = true ∧
    s.stagedOf (masterCode m) = none

/-- A read by master `m` reaches page `p`, and the master has no guarded value staged (R368, R392, R471). -/
def Answers (s : State) (p : Nat) (m : Master) : Prop :=
  s.boot.released = true ∧ s.mayAccess (masterCode m) false = true ∧ s.reaches p = true ∧
    s.stagedOf (masterCode m) = none

/-- No command of page `p` waits. -/
def Idle (s : State) (p : Nat) : Prop := (s.page p).pend = none

/-- What CMD_STATUS of a master shows after the next accepted command of page `p` (R400). -/
def accepted (s : State) (p code : Nat) (done : Bool) : CmdStatus :=
  { result := 0, code, seq := ((s.page p).seq + 1) % 32768, done }

/-- The command that waits on page `p` once the next one is accepted (R400, R507). -/
def waiting (s : State) (p : Nat) (m : Master) (code : Nat) (arg : Word) (data : List Word := []) : CmdPend :=
  { master := masterCode m, code, arg, seq := ((s.page p).seq + 1) % 32768, data }

/-- Command `c` completes: it answers a next state, in which CMD_STATUS of its master shows ACCEPTED and the command
waits on page `p`; and `apply`, the part of a round boundary that takes the page's command, has the effect `effect` from
every state `u` in which that command waits, with the words it captured, and `legal` still holds. -/
def Waits (c : Instr) (s : State) (p : Nat) (m : Master) (code : Nat) (arg : Word) (apply : State → State)
    (legal : State → Prop) (effect : State → State → Prop) (data : List Word := []) : Prop :=
  ∃ t, exec c s = .next t ∧ t.cmdStatus p (masterCode m) = accepted s p code false ∧
    (t.page p).pend = some (waiting s p m code arg data) ∧
    ∀ u, (u.page p).pend = some (waiting s p m code arg data) → legal u → effect u (apply u)

/-- Command `c` completes: it answers a next state in which every unit reads as in `u`, but for the common registers of
the pages in `but`. -/
def Does (c : Instr) (s u : State) (but : List Nat := []) : Prop := ∃ t, exec c s = .next t ∧ Safety.Same u t but

/-- Command `c` completes at once: CMD_STATUS of its master shows ACCEPTED and DONE, and every unit reads as in `u`. -/
def Carries (c : Instr) (s : State) (p : Nat) (m : Master) (code : Nat) (u : State) : Prop :=
  ∃ t, exec c s = .next t ∧ t.cmdStatus p (masterCode m) = accepted s p code true ∧ Safety.Same u t [p]

/-- A two-party command of master `m` on page `p` may be proposed: no proposal stands, the nonce is not 0, the master is a
party, and neither lifecycle state nor fuses bar it (R476). -/
def MayPropose (s : State) (p : Nat) (m : Master) (code : Nat) (arg : Word) : Prop :=
  (s.page p).prop = none ∧ (s.page p).lockProp = none ∧ bits arg 31 16 ≠ 0 ∧ s.noParty (masterCode m) = false ∧
    s.partyBarred p code = false

/-- Command `c` completes as a proposal: CMD_STATUS shows ACCEPTED and DONE, the proposal stands on the page with the
words that it captures, and every unit reads as before (R476). -/
def Proposes (c : Instr) (s : State) (p : Nat) (m : Master) (code : Nat) (arg : Word) (data : List Word) : Prop :=
  ∃ t, exec c s = .next t ∧ t.cmdStatus p (masterCode m) = accepted s p code true ∧
    (t.page p).prop = some { master := masterCode m, code, arg, data, age := 0 } ∧ Safety.Same s t [0x06, p]

/-- A two-party command of master `m` meets a standing proposal of another party with the same command and argument,
which captured `data` (R476). -/
def Countersigns (s : State) (p : Nat) (m : Master) (code : Nat) (arg : Word) (data : List Word) : Prop :=
  (∃ q, (s.page p).prop = some q ∧ q.master ≠ masterCode m ∧ q.code = code ∧ q.arg = arg ∧ q.data = data) ∧
    bits arg 31 16 ≠ 0 ∧ s.noParty (masterCode m) = false ∧ s.partyBarred p code = false

/-- Command `c` completes with a fault event: it answers a next state that is `u` but for what the event may touch in
native mode. -/
def Reports (c : Instr) (s u : State) : Prop := ∃ t, exec c s = .next t ∧ Safety.Reported u t

/-- Command `c` completes: it answers a next state of which `effect` holds. -/
def Completes (c : Instr) (s : State) (effect : State → Prop) : Prop := ∃ t, exec c s = .next t ∧ effect t

/-- The codes of the commands of a page (the command tables of the chapters). -/
def commandCodes (k : PageKind) : List Nat :=
  match k with
  | .sys => [1, 2, 3, 0x10]
  | .sched | .sec | .stamp | .qual => [1, 2, 3, 4, 5, 6]
  | .budget | .harvest | .time | .syn | .cell => [1, 2]
  | .fault | .pair | .out | .tim => [1, 2, 3]
  | .nv | .tsvc => [1, 2, 3, 4, 5]
  | .ports => [1]
  | .dom => [1, 2, 3, 4, 5, 6, 7, 0x10, 0x11, 0x12, 0x13, 0x14, 0x15]
  | .irq | .vlink | .osc | .none => []

end Sys2Proof.Stated
end

