-- ==== Sys2Proof/Certificates/Slice0/Obligations.lean ====
section
/-! DEFINITION. The statements for the provers. The forms in which they say what a command does (`Waits`, `Does`,
`Completes`, `Reports`, `Proposes`, `Countersigns`) stand in Safety.lean. -/

open Sys2Proof Sys2Proof.Machine Sys2Proof.Stated

/-- A STEP RUNS THE FRONT COMMAND. With a command at the front of the queue, a step is that command's `exec` on the state
with the queue's rest; with none waiting the block idles (the model's choice, log entry 1). -/
def Obligations.StepRunsTheFrontCommand : Prop :=
  (∀ (c : Instr) (s : State), step { s with pending := c :: s.pending } = exec c s) ∧
    ∀ s : State, s.pending = [] → step s = .next s

/-- Every command of every state is answered by a next state: no command faults and none is refused by the model. -/
def Obligations.EveryCommandIsAnswered : Prop :=
  (∀ (c : Instr) (s : State), ∃ t, exec c s = .next t) ∧ ∀ s : State, Safety.Continues s

/-- The requests, the guardian's line and the control host's line follow the eligible sources (R411, R414, R417): every
step keeps this, and every command establishes it. -/
def Obligations.StepsKeepRequests : Prop :=
  ∀ s t : State, step s = .next t → (Safety.RequestsFollow s ∨ s.pending ≠ []) → Safety.RequestsFollow t

/-- What power-on reset leaves (R12, R33, R64, R401, R484): no command waits, no record, slot or interrupt stands, both
configuration sets hold their Reset values, SC[0] to SC[46] are OFF, domains INIT, outputs and synthesisers OFF, role SOLO,
no book, no round runs; the invariant of the requests holds. -/
def Obligations.PowerOnLeavesReset : Prop :=
  let s := State.reset
  s.pending = [] ∧ (∀ p, s.page p = Page.zero) ∧ (∀ k, tget cfgReset s.active k = cfgReset k) ∧
    (∀ k, tget cfgReset s.shadow k = cfgReset k) ∧ (∀ p o, s.dir p o = dirReset (p * 0x1000 + o)) ∧
    (∀ p o, s.counter p o = 0) ∧ (∀ k, k ≠ 47 → (s.chan k).state = .off) ∧ (∀ d, (s.dom d).state = .init) ∧
    (∀ k, (s.syn k).state = .off) ∧ (∀ j, (s.out j).state = .off) ∧ (∀ i, (s.qual i).state = .disabled) ∧
    (∀ i, (s.tim i).state = .idle) ∧ s.pair.role = .solo ∧ s.board.state = .noBook ∧ s.board.bookState = .empty ∧
    s.osc.running = false ∧ (∀ p, s.fault.capture p = none) ∧ s.fault.queue = [] ∧ s.fault.used = [] ∧
    s.irq.insvcC = [] ∧ s.irq.insvcG = [] ∧ s.irq.latched = [] ∧ s.nv.mem = [] ∧
    Safety.RequestsFollow s

/-- STAMP_EVENT, STARTING_END, the end of a TEST and LIN_TABLE_COMPLETE (R43, R46 to R50, R60, R64, R66, R230, R508), in
native mode where they end in a fault event. A selected edge of a stamping channel is counted by the pre-divider, or
missed in the dead time, or lost to a full queue, or written as an entry with the channel's SEQ, its missed count and its
lost mark. STARTING ends in RUN, DEGRADED or FENCED with both, one or none of the interpolators accepted. A passed test
leaves the channel as it was with result 1; one that failed shows result 2. A complete histogram leaves a table that waits
to be adopted when every entry lies within 4,096 × 4, and excludes the interpolator otherwise. -/
def Obligations.StampArrayEventsTakeEffect : Prop :=
  ∀ (ch : Fin 48) (coarse raw : Nat) (falling : Bool) (s : State), let c := s.chan ch
    let r := s.countEdge ch coarse falling
    (ch.val < 36 ∨ 44 ≤ ch.val ∨ falling = true → r = s) ∧
    (36 ≤ ch.val → ch.val < 44 → falling = false → (s.syn (ch - 36)).edgeAt = none →
      (r.syn (ch - 36)).edges = ((s.syn (ch - 36)).edges + 1) % 2 ^ 64) ∧
    (s.reachesChan ch = false → Does (.stampEvent ch coarse raw falling) s s) ∧
    (s.reachesChan ch = true → c.stamping = false ∨ s.osc.running = false ∨ s.edgeSelected ch falling = false →
      Does (.stampEvent ch coarse raw falling) s r) ∧
    (s.reachesChan ch = true → c.stamping = true → s.osc.running = true → s.edgeSelected ch falling = true →
      let n := bits (s.cfg (stampPage ch) 4) 23 0
      (c.prediv ≠ 0 →
        Does (.stampEvent ch coarse raw falling) s (r.setChan ch fun c => { c with prediv := c.prediv - 1 })) ∧
      (c.prediv = 0 → (∃ l, c.lastStop = some l ∧ coarse ≤ l + 5) →
        Does (.stampEvent ch coarse raw falling) s
          (r.setChan ch fun c => { c with prediv := n, missed := min (c.missed + 1) 511 })) ∧
      (c.prediv = 0 → (∀ l, c.lastStop = some l → l + 5 < coarse) → 1024 ≤ c.queue.length →
        Does (.stampEvent ch coarse raw falling) s
          (r.setChan ch fun c => { c with prediv := n, lost := true, lastStop := some coarse })) ∧
      (c.prediv = 0 → (∀ l, c.lastStop = some l → l + 5 < coarse) → c.queue.length < 1024 →
        ∃ e : Entry, e.coarse = coarse ∧ e.raw = raw % 2 ^ 18 ∧ e.falling = falling ∧ e.seq = c.seq ∧
          e.missCnt = c.missed ∧ e.miss = (c.missed != 0) ∧ e.ovf = c.lost ∧
          Does (.stampEvent ch coarse raw falling) s
            (r.setChan ch fun c => { c with
              prediv := n, lastStop := some coarse, queue := c.queue ++ [e], last := some e, seq := (c.seq + 1) % 256
              missed := 0, lost := false, peak := max c.peak (c.queue.length + 1) }))) ∧
    (c.state = .starting → c.test = none → s.fault.compat = false →
      let good (i : Interp) : Prop := i.accepted = true ∧ i.blame = 0
      Completes (.startingEnd ch) s fun t =>
        (good c.a ∧ good c.b → (t.chan ch).state = .run) ∧
        (good c.a ∧ ¬good c.b ∨ ¬good c.a ∧ good c.b → (t.chan ch).state = .degraded) ∧
        (¬good c.a ∧ ¬good c.b → (t.chan ch).state = .fenced)) ∧
    (∀ x, c.test = some x → s.fault.compat = false →
      Completes (.stampTestEnd ch) s fun t => (t.chan ch).test = none ∧
        (x.failA = false ∧ x.failB = false → (t.chan ch).state = c.state ∧ (t.chan ch).testResult = 1) ∧
        (x.failA = true ∨ x.failB = true → (t.chan ch).testResult = 2) ∧
        (x.failA = true ∨ x.failB = true → s.osc.lastTestFail = false → c.state = .off → (t.chan ch).state = .fenced) ∧
        (x.failA ≠ x.failB → s.osc.lastTestFail = false → c.state = .run → (t.chan ch).state = .degraded)) ∧
    (∀ b : Bool, let i := c.interp b; let total := i.hist.foldl (· + ·) 0; let table := (List.range 63).map fun n =>
        ((((i.hist.take (n + 1)).foldl (· + ·) 0) * 262144 / total : Nat) : Int) - ((n + 1) * 4096 : Nat)
      total ≠ 0 → i.excluded = false →
        ((∀ v ∈ table, v.natAbs ≤ 16384) →
          Does (.linTableComplete ch b) s
            (s.setInterp ch b fun i => { i with hist := [], histRounds := 0, linNew := some table })) ∧
        ((∃ v ∈ table, 16384 < v.natAbs) → s.fault.compat = false → c.state = .run → c.test = none →
          Completes (.linTableComplete ch b) s fun t =>
            (ch.val ≠ 47 → ((t.chan ch).interp b).excluded = true ∧ (t.chan ch).state = .degraded) ∧
            (ch.val = 47 → (t.chan ch).state = .run)))

/-- STAMP commands (R64, R65, R66, R45, R60): where the channel's state allows the command and nothing stands in its way,
each is accepted, and at its boundary ENABLE and RETRY bring the channel to STARTING, DISABLE to OFF, PREDIV_SYNC
restarts the pre-divider, TEST begins a test of twice the rounded count of idle rounds, and LIN_RESTART discards both
histograms in progress. -/
def Obligations.StampCommandsTakeEffect : Prop :=
  ∀ (ch : Fin 48) (m : Master) (s : State), let p := stampPage ch; let a := s.arg p (masterCode m)
    Ready s p m → Idle s p → (s.chan ch).test = none →
    (ch.val ≠ 47 → (s.chan ch).state = .off →
      Waits (.stampEnable ch m) s p m 1 a (State.stampApply · ch) (fun u => (u.chan ch).state = .off)
        fun _ v => (v.chan ch).state = .starting) ∧
    (ch.val ≠ 47 → (s.chan ch).state ≠ .off → s.chanInUse ch = false →
      Waits (.stampDisable ch m) s p m 2 a (State.stampApply · ch)
        (fun u => (u.chan ch).state ≠ .off ∧ u.chanInUse ch = false) fun _ v => (v.chan ch).state = .off) ∧
    (ch.val < 32 → (s.chan ch).state = .run ∨ (s.chan ch).state = .degraded →
      Waits (.predivSync ch m) s p m 3 a (State.stampApply · ch)
        (fun u => (u.chan ch).state = .run ∨ (u.chan ch).state = .degraded)
        fun u v => v.chan ch = { u.chan ch with prediv := 0 }) ∧
    (ch.val ≠ 47 → 64 ≤ bits a 15 0 → (s.chan ch).state = .off ∨ (s.chan ch).state = .run →
      Waits (.stampTest ch m) s p m 4 a (State.stampApply · ch)
        (fun u => (u.chan ch).state = .off ∨ (u.chan ch).state = .run)
        fun _ v => (v.chan ch).test.map (·.left) = some (2 * ((bits a 15 0 + 63) / 64))) ∧
    ((s.chan ch).state = .degraded ∨ (s.chan ch).state = .fenced → s.chanInUse ch = false →
      Waits (.stampRetry ch m) s p m 5 a (State.stampApply · ch)
        (fun u => ((u.chan ch).state = .degraded ∨ (u.chan ch).state = .fenced) ∧ u.chanInUse ch = false)
        fun _ v => (v.chan ch).state = .starting) ∧
    ((s.chan ch).state = .run →
      Waits (.linRestart ch m) s p m 6 a (State.stampApply · ch) (fun u => (u.chan ch).state = .run)
        fun _ v => (v.chan ch).a.histRounds = 0 ∧ (v.chan ch).b.histRounds = 0)

/-- Context commands, GATE_END and TIE_SAMPLE (R75 to R78, R85, R86, R92). START waits for the boundary and brings an IDLE
or HALTED context to WAITING, and without ALIGN at once to RUNNING with gate 0; STOP brings it to IDLE; CLEAR_STAB clears
the ring and the estimators. The end of a gate posts its result and opens the next without a gap; where intervals still
wait for their stops, the gate is only closed. A sample instant puts one sample into the ring. -/
def Obligations.ContextCommandsTakeEffect : Prop :=
  ∀ (p : Fin 2) (m : Master) (s : State), let q := 0xC0 + p.val; let a := s.arg q (masterCode m)
    let i := 48 * p.val + bits a 5 0
    (Ready s q m → Idle s q → bits a 5 0 < 48 →
      ((s.timCfg i).bad = false → (s.tim i).state = .idle ∨ (s.tim i).state = .halted →
        s.timSourceLost (s.timCfg i) = false →
        Waits (.timStart p m) s q m 1 a (State.timApply · p)
          (fun u => (u.timCfg i).bad = false ∧ ((u.tim i).state = .idle ∨ (u.tim i).state = .halted) ∧
            u.timSourceLost (u.timCfg i) = false)
          fun u v => ((u.timCfg i).align = true → (v.tim i).state = .waiting) ∧
            ((u.timCfg i).align = false → (v.tim i).state = .running ∧ (v.tim i).gates = [Gate.new 0])) ∧
      ((s.tim i).state ≠ .idle →
        Waits (.timStop p m) s q m 2 a (State.timApply · p) (fun u => (u.tim i).state ≠ .idle)
          fun _ v => (v.tim i).state = .idle) ∧
      ((s.tim i).state = .running → 2 ≤ (s.timCfg i).mode →
        Waits (.clearStab p m) s q m 3 a (State.timApply · p)
          (fun u => (u.tim i).state = .running ∧ 2 ≤ (u.timCfg i).mode)
          fun u v => v.tim i = { u.tim i with ring := [], levels := [] })) ∧
    ∀ j : Fin 96, (s.tim j).state = .running →
      (∀ g, (s.tim j).gates = [g] → (s.timCfg j).mode ≠ 0 ∨ g.a = [] →
        Completes (.gateEnd j) s fun t => (t.tim j).done = true ∧ (t.tim j).state = .running ∧
          (t.tim j).result = (s.timCfg j).resultOf { g with ended := true } ∧
          (t.tim j).gates = [Gate.new (s.tim j).nextSeq] ∧ (t.tim j).nextSeq = (s.tim j).nextSeq + 1) ∧
      (∀ gs g h r, (s.tim j).gates = gs ++ [g] → gs ++ [g] = h :: r → (s.timCfg j).mode = 0 → h.a ≠ [] →
        (s.tim j).due = [] →
          Completes (.gateEnd j) s fun t => (t.tim j).state = .running ∧
            (t.tim j).gates = gs ++ [{ g with ended := true }, Gate.new (s.tim j).nextSeq] ∧
            (t.tim j).result = (s.tim j).result) ∧
      (2 ≤ (s.timCfg j).mode →
        Completes (.tieSample j) s fun t => (t.tim j).sinceSample = 0 ∧ (t.tim j).state = .running ∧
          (t.tim j).ring = ((s.tim j).sampleNow (s.timCfg j) :: (s.tim j).ring).take 64)

/-- HARVEST commands and HARVEST_BOUNDARY (R93 to R95, R99, R103). RESYNC closes all four periods SHORT at its boundary;
ARCH_CLEAR restarts the ring at slot 0; a 1 s boundary latches every counter and statistic into the 1 s bank and opens the
next period empty. A longer period that ends with it latches its rounds, statistics and sums of the 1 s values and opens
anew; one that goes on keeps its bank and adds the second's values. Aligned, a period of n seconds ends where the second
label of DOM[0] is a multiple of n; free-running, with every n-th second from the origin (a boundary between those of the
count ends it after n seconds: the model's choice, log entry 66). -/
def Obligations.HarvestCommandsTakeEffect : Prop :=
  ∀ (m : Master) (s : State), let a := s.arg 0x08 (masterCode m)
    (Ready s 0x08 m → Idle s 0x08 →
      (s.harvest.alignAct = false →
        Waits (.resync m) s 0x08 m 1 a State.harvestApply (fun u => u.harvest.alignAct = false)
          fun u v => let h := u.harvest; let k := v.harvest
            k.b1.seq = (h.b1.seq + 1) % 2 ^ 32 ∧ k.b60.seq = (h.b60.seq + 1) % 2 ^ 32 ∧
            k.b900.seq = (h.b900.seq + 1) % 2 ^ 32 ∧ k.bday.seq = (h.bday.seq + 1) % 2 ^ 32 ∧
            k.b1.flags.testBit 1 = true ∧ k.b60.flags.testBit 1 = true ∧ k.b900.flags.testBit 1 = true ∧
            k.bday.flags.testBit 1 = true ∧
            k.p1.rounds = 0 ∧ k.p60.rounds = 0 ∧ k.p900.rounds = 0 ∧ k.pday.rounds = 0 ∧ k.origin = u.roundNow) ∧
      (s.harvest.arch = none → Waits (.archClear m) s 0x08 m 2 a State.harvestApply (fun _ => True)
        fun u v => v.harvest = { u.harvest with archSlot := 0 })) ∧
    let h := s.harvest
    let ends (n : Nat) (p : Period) : Prop :=
      if h.alignAct = true then s.dayLabel % (n : Int) = 0
      else if s.secondDue = true then (s.roundNow - h.origin) / 8000 % n = 0 else n ≤ p.secs + 1
    let latched (n : Nat) (p p' : Period) (b b' : Bank) : Prop :=
      (ends n p → b'.seq = (b.seq + 1) % 2 ^ 32 ∧ b'.rounds = p.rounds ∧ b'.start = p.start ∧ b'.ctx = p.ctx ∧
        b'.ctr = addTable p.ctr s.ctr ∧ p'.rounds = 0 ∧ p'.secs = 0 ∧ p'.ctr = [] ∧ p'.ctx = []) ∧
      (¬ends n p → b' = b ∧ p'.rounds = p.rounds ∧ p'.start = p.start ∧ p'.ctx = p.ctx ∧ p'.secs = p.secs + 1 ∧
        p'.ctr = addTable p.ctr s.ctr)
    Completes .harvestBoundary s fun t => let k := t.harvest
      k.b1.seq = (h.b1.seq + 1) % 2 ^ 32 ∧ k.b1.rounds = h.p1.rounds ∧ k.b1.start = h.p1.start ∧ k.b1.ctr = s.ctr ∧
      k.b1.ctx = h.p1.ctx ∧ k.p1.rounds = 0 ∧ k.p1.start = s.osc.bnd ∧ k.p1.ctx = [] ∧
      latched 60 h.p60 k.p60 h.b60 k.b60 ∧ latched 900 h.p900 k.p900 h.b900 k.b900 ∧
      latched 86400 h.pday k.pday h.bday k.bday

/-- The timebase loop and the stamp clock (R38 to R42, R21, R22). FOLLOWING, FROZEN, SLEWING and CRYSTAL are entered as
R40 fixes, each entry starting its counts anew; the first lock after reset starts the coarse count, the round timer and
SC[47], a later one only sets SCLK_LOCK; a lost lock clears SCLK_LOCK, makes FATAL stand on both targets, and every domain
that is not in INIT is due in SAFE. -/
def Obligations.ClockEventsTakeEffect : Prop :=
  ∀ (s : State) (n : Nat),
    let into (st : TbState) : State :=
      s.setOsc fun o => { o with tb := st, tbSince := s.osc.count - 1, tbGood := 0, tbSilent := 0 }
    (s.osc.tb = .slewing → s.osc.tbSrc ≠ 0 → Does .tbFollowing s (into .following)) ∧
    (s.osc.tb = .slewing ∨ s.osc.tb = .following → s.osc.tbSrc ≠ 0 → Does .oscTbSrcLoss s (into .frozen)) ∧
    (s.osc.tb = .frozen → Does .tbResume s (into .slewing)) ∧
    (s.osc.tb = .slewing → s.osc.tbSrc = 0 → s.osc.tbTerm = 0 → Does .tbCrystal s (into .crystal)) ∧
    (s.boot.started = true → s.dormant = false → s.osc.sclkLock = false →
      ∀ c ∈ [Instr.sclkLock n, Instr.sclkRecalibrate (some n)],
        (s.osc.running = true → Does c s (s.setOsc fun o => { o with sclkLock := true })) ∧
        (s.osc.running = false → Completes c s fun t => t.osc.sclkLock = true ∧ t.osc.running = true ∧
          t.osc.bnd = n ∧ t.osc.count = 0 ∧ (t.chan 47).state = .run ∧ (t.chan 47).stamping = true)) ∧
    Does (.sclkRecalibrate none) s s ∧
    (s.osc.sclkLock = true →
      Completes .oscSclkUnlock s fun t => t.osc = { s.osc with sclkLock := false } ∧ t.irq.fatalC = true ∧
        t.irq.fatalG = true ∧ ∀ d, d < 12 → (s.dom d).state ≠ .init → (t.dom d).safePend.isSome = true)

/-- QUAL commands (R111, R113, R126, R130, R509). Each waits for the boundary; in a round in which the candidate is not
frozen ENABLE brings it to MONITOR, DISABLE to DISABLED, FORCE_OUT to FORCED_OUT; RESTORE brings it to SOAKING with the
soak timer started, or to DISQUALIFIED with its lowest failing reason, or with reason 10 when it is fenced; SKIP_SOAK
ends the soak timer; CLEAR_MASK clears both masks. -/
def Obligations.QualificationCommandsTakeEffect : Prop :=
  ∀ (i : Fin 40) (m : Master) (s : State), let p := 0x40 + i.val; let a := s.arg p (masterCode m)
    Ready s p m → Idle s p →
    ((s.page p).lockCmd = false → 36 ≤ i.val ∨ s.nomOk i = true → (s.qual i).state = .disabled →
      36 ≤ i.val ∨ ((s.chan i).state ≠ .off ∧ (s.chan i).state ≠ .fenced) →
      Waits (.qualEnable i m) s p m 1 a (State.qualApply · i)
        (fun u => u.candFrozen i = false ∧ (u.page p).lockCmd = false ∧
          (u.qual i).state = .disabled ∧ (36 ≤ i.val ∨ ((u.chan i).state ≠ .off ∧ (u.chan i).state ≠ .fenced)))
        fun _ v => (v.qual i).state = .monitor ∧ (v.qual i).reason = 0 ∧ (v.qual i).failSet = 0 ∧
          (v.qual i).fenced = false) ∧
    ((s.page p).lockCmd = false → (s.qual i).state ≠ .disabled → s.candInUse i = false →
      Waits (.qualDisable i m) s p m 2 a (State.qualApply · i)
        (fun u => u.candFrozen i = false ∧ (u.page p).lockCmd = false ∧ (u.qual i).state ≠ .disabled ∧
          u.candInUse i = false)
        fun _ v => (v.qual i).state = .disabled ∧ (v.qual i).failSet = 0 ∧ (v.qual i).fenced = false) ∧
    (s.standby = false → (s.qual i).state ≠ .disabled → (s.qual i).state ≠ .forcedOut →
      Waits (.forceOut i m) s p m 3 a (State.qualApply · i)
        (fun u => u.candFrozen i = false ∧ u.standby = false ∧ (u.qual i).state ≠ .disabled ∧
          (u.qual i).state ≠ .forcedOut)
        fun _ v => (v.qual i).state = .forcedOut) ∧
    (s.standby = false → (s.qual i).state = .forcedOut →
      Waits (.restore i m) s p m 4 a (State.qualApply · i)
        (fun u => u.candFrozen i = false ∧ u.standby = false ∧ (u.qual i).state = .forcedOut)
        fun u v =>
          ((u.qual i).failSet = 0 → (u.qual i).fenced = false →
            (v.qual i).state = .soaking ∧ (v.qual i).soak = bits (u.cfg p 0x14) 15 0 * 1000) ∧
          ((u.qual i).failSet = 0 → (u.qual i).fenced = true →
            (v.qual i).state = .disqualified ∧ (v.qual i).reason = 10) ∧
          ∀ r, r ≤ 10 → (u.qual i).failSet.testBit r = true → (∀ k, k < r → (u.qual i).failSet.testBit k = false) →
            (v.qual i).state = .disqualified ∧ (v.qual i).reason = r) ∧
    ((s.page p).lockCmd = false → s.standby = false → (s.qual i).state = .soaking → (s.qual i).failSet = 0 →
      Waits (.skipSoak i m) s p m 5 a (State.qualApply · i)
        (fun u => u.candFrozen i = false ∧ (u.page p).lockCmd = false ∧ u.standby = false ∧
          (u.qual i).state = .soaking)
        fun u v => v.qual i = { u.qual i with soak := 0 }) ∧
    ((s.qual i).state ≠ .disabled →
      Waits (.clearMask i m) s p m 6 a (State.qualApply · i)
        (fun u => u.candFrozen i = false ∧ (u.qual i).state ≠ .disabled)
        fun u v => v.qual i = { u.qual i with tdev := [], mtie := [], maskSince := 0, maskK := 0 })

/-- Events of the qualification of a candidate and of the ports that feed candidates 32 to 35 (R108, R111, R112, R116,
R119, R121, R124). A soaked candidate becomes QUALIFIED; a SUSPECT one whose failure outlasts GUARD becomes DISQUALIFIED
with its lowest failing reason. A gate posts the frequency of its fit and judges it against FW_LIM with its hysteresis, or
posts nothing when the gate is spoilt. Without ESMC information the rank is 15. A relock or a link that comes up marks the
candidate. -/
def Obligations.QualificationEventsTakeEffect : Prop :=
  ∀ (i : Fin 40) (p : Fin 4) (s : State), let q := s.qual i
    (s.candFrozen i = false →
      (q.state = .soaking → q.failSet = 0 →
        Does (.soakExpiry i) s (s.setQual i fun q => { q with state := .qualified, reason := 0, soak := 0 })) ∧
      (∀ r, r ≤ 10 → q.state = .qualified → q.suspect = true → q.failSet.testBit r = true →
        (∀ k, k < r → q.failSet.testBit k = false) →
        Completes (.guardExpiry i) s fun t => (t.qual i).state = .disqualified ∧ (t.qual i).reason = r ∧
          (t.qual i).suspect = false ∧ (t.qual i).failSet = q.failSet) ∧
      (q.state ≠ .disabled → s.nomOk i = true →
        let fit := fitRatio (s.nomStep i) q.fwGate; let lim := (s.qcfg i 0x18).toNat
        let m (y : Int × Int) : Nat := (ratioBits 64 y).natAbs * 256 * 1000000000
        (q.fwBad = true ∨ fit = none →
          Completes (.fwGateEnd i) s fun t => (t.qual i).fwPosted = false ∧ (t.qual i).fwGate = [] ∧
            (t.qual i).freq = q.freq ∧ (t.qual i).fwFail = q.fwFail) ∧
        ∀ y, q.fwBad = false → fit = some y →
          Completes (.fwGateEnd i) s fun t => (t.qual i).fwPosted = true ∧ (t.qual i).fwGate = [] ∧
            (t.qual i).freq = ratioBits 64 y ∧
            (lim = 0 → (t.qual i).fwFail = false) ∧
            (lim ≠ 0 → lim * 2 ^ 64 < m y → (t.qual i).fwFail = true) ∧
            (lim ≠ 0 → 8 * m y ≤ 7 * lim * 2 ^ 64 → (t.qual i).fwFail = false) ∧
            (lim ≠ 0 → m y ≤ lim * 2 ^ 64 → 7 * lim * 2 ^ 64 < 8 * m y → (t.qual i).fwFail = q.fwFail))) ∧
    (q.state ≠ .disabled → s.board.varNow ≠ 3 → s.nomOk i = true →
      Completes (.maskSample i) s fun t => (t.qual i).maskSince = 0 ∧ (t.qual i).maskK = q.maskK + 1 ∧
        (t.qual i).state = q.state ∧ (t.qual i).failSet = q.failSet) ∧
    Does (.esmcTimeout p) s (s.setQual (32 + p) fun q => { q with esmcAge := 40000, qlTimeout := true }) ∧
    (s.qlSrc (32 + p) = 1 → Completes (.esmcTimeout p) s fun t => t.rankOf (32 + p) = 15) ∧
    (s.portUp p = true →
      Does (.receiverRelock p) s ((s.setPort p fun x => { x with cdrLock := true }).setQual (32 + p.val) fun q =>
        { q with relock := true })) ∧
    (bit (s.cfg 0x0C (0x80 * p.val)) 0 = true → s.serviceOn = true → (s.port p).linkUp = false →
      Completes (.linkChange p true) s fun t => (t.port p).linkUp = true ∧ (t.port p).cdrLock = true ∧
        (t.qual (32 + p)).relock = true) ∧
    Does (.linkChange p false) s (s.setPort p fun x => { x with linkUp := false, cdrLock := false, fecLock := false })

/-- Selection commands (R136, R139, R140, R143, R152, R159, R163). Each names slot CMD_ARG [2:0] of its domain and waits
for the boundary of a round in which the domain is not frozen: FORCE_SELECT and MANUAL_SELECT note the slot, CLEAR_SELECT
clears both, PARK takes the slot out of the ensemble, UNPARK ends its parking, REALIGN_BO asks for the build-out to be
absorbed. -/
def Obligations.SelectionCommandsTakeEffect : Prop :=
  ∀ (d : Fin 12) (m : Master) (s : State), let p := 0x70 + d.val; let a := s.arg p (masterCode m); let k := bits a 2 0
    Ready s p m → Idle s p → s.standby = false →
    let open_ (u : State) : Prop := (u.page p).lockCmd = false ∧ u.standby = false ∧
      (u.domRuns d = true ∨ (u.dom d).state = .init)
    ((s.page p).lockCmd = false →
      (s.slotCand d k ≠ none → (s.dom d).state ≠ .init → s.selMode d ≠ 2 →
        Waits (.forceSelect d m) s p m 0x10 a (State.domApply · d)
          (fun u => open_ u ∧ u.slotCand d k ≠ none ∧ (u.dom d).state ≠ .init ∧ u.selMode d ≠ 2)
          fun u v => (v.dom d).sel = { (u.dom d).sel with forced := some k, manual := none }) ∧
      (s.slotCand d k ≠ none → (s.dom d).state ≠ .init → s.selMode d ≠ 2 → (s.dom d).sel.forced = none →
        Waits (.manualSelect d m) s p m 0x11 a (State.domApply · d)
          (fun u => open_ u ∧ u.slotCand d k ≠ none ∧ (u.dom d).state ≠ .init ∧ u.selMode d ≠ 2 ∧
            (u.dom d).sel.forced = none)
          fun u v => (v.dom d).sel = { (u.dom d).sel with manual := some k }) ∧
      Waits (.clearSelect d m) s p m 0x12 a (State.domApply · d) open_
        (fun u v => (v.dom d).sel = { (u.dom d).sel with forced := none, manual := none, fenced := false }) ∧
      ((s.dom d).state ≠ .init → s.selMode d = 2 → (s.dslot d k).parked = true →
        Waits (.unpark d m) s p m 0x14 a (State.domApply · d)
          (fun u => open_ u ∧ (u.dom d).state ≠ .init ∧ u.selMode d = 2 ∧ (u.dslot d k).parked = true)
          fun _ v => (v.dslot d k).parked = false ∧ (v.dslot d k).calm = 0) ∧
      ((s.dom d).state = .acquire ∨ (s.dom d).state = .locked → s.selMode d ≠ 2 → s.pboMode d ≠ 0 →
        (s.dom d).sel.valid = true →
        Waits (.realignBo d m) s p m 0x15 a (State.domApply · d)
          (fun u => open_ u ∧ ((u.dom d).state = .acquire ∨ (u.dom d).state = .locked) ∧ u.selMode d ≠ 2 ∧
            u.pboMode d ≠ 0 ∧ (u.dom d).sel.valid = true)
          fun u v => (v.dom d).sel = { (u.dom d).sel with realign := true })) ∧
    (s.slotCand d k ≠ none → (s.dom d).state ≠ .init → s.selMode d = 2 →
      Waits (.park d m) s p m 0x13 a (State.domApply · d)
        (fun u => u.standby = false ∧ u.domRuns d = true ∧ u.slotCand d k ≠ none ∧ (u.dom d).state ≠ .init ∧
          u.selMode d = 2 ∧ (u.dslot d k).parked = false)
        fun _ v => (v.dslot d k).parked = true ∧ (v.dslot d k).eligible = false)

/-- WTR_EXPIRY, PARK_TIME_EXPIRY and WT_SAMPLE (R138, R143, R149, R150, R152, R157, R160). The domain reverts to the slot
its count belongs to and notes the switch with cause 1; x_ref stands at the new slot's phase and build-out, and so stays
unless the build-out is OFF. A parked slot that is measured and QUALIFIED is admitted again with weight 0 and its σ
estimator cleared, and the other members keep their weights. The residuals of the members are sampled, and no weight
changes; a paused estimator samples nothing. -/
def Obligations.SelectionEventsTakeEffect : Prop :=
  ∀ (d : Fin 12) (k : Fin 8) (s : State), let l := (s.dom d).sel
    s.domRuns d = true →
    (∀ n, l.wtrSlot = some n → l.wtrRun = true → l.valid = true → s.selectable d none n = true →
      Completes (.wtrExpiry d) s fun t => let r := (t.dom d).sel
        r.slot = n ∧ r.wtrRun = false ∧ r.wtrSlot = none ∧ r.rank = s.slotRank d n ∧
          r.lastSwitch = word (l.slot % 8 + n % 8 * 16 + 256 + (s.osc.count - 1) % 65536 * 65536) ∧
          r.xref = (s.dslot d n).p.getD 0 + r.bo ∧ r.brg = 0 ∧ r.wtrLeft = 0 ∧
          (s.pboMode d ≠ 0 → r.xref = l.xref) ∧ (s.pboMode d = 0 → r.bo = s.slotOfs d n)) ∧
    ((s.dslot d k).parked = true → s.ensReady d k = true →
      Completes (.parkTimeExpiry d k) s fun t => let v := t.dslot d k
        v.parked = false ∧ v.eligible = true ∧ v.w = 0 ∧ v.calm = 0 ∧ v.sig = .zero ∧ v.sigSince = 0 ∧
          ∀ j, j ≠ k.val → (t.dslot d j).w = (s.dslot d j).w ∧ (t.dslot d j).eligible = (s.dslot d j).eligible) ∧
    (l.ens = true →
      (s.sigPaused d = false →
        Completes (.wtSample d) s fun t =>
          (∀ j ∈ s.members d, let v := s.dslot d j
            (t.dslot d j).sigSince = 0 ∧
              (t.dslot d j).sig = v.sig.sample (s.wtLevel d) (s.wtAvg d) 256
                (some (v.p.getD 0 + s.slotOfs d j - l.xref))) ∧
          ∀ j, (t.dslot d j).w = (s.dslot d j).w ∧
            (j ∉ s.members d → (t.dslot d j).sig = (s.dslot d j).sig)) ∧
      (s.sigPaused d = true → Does (.wtSample d) s s))

/-- Loop commands of a domain (R165, R174, R178, R181, R182, R185, R186, R433, R509). ENABLE brings a domain of INIT to
FREERUN with y_out 0, DISABLE brings it to INIT with QL_OUT 15; FORCE_HOLDOVER and RELEASE_HOLDOVER set and clear the
forced holdover; SLUICE_RESTART returns to segment 0; MODEL_RESET discards the model; MODEL_SAVE writes the record of the
model into one of its two slots. -/
def Obligations.DomainCommandsTakeEffect : Prop :=
  ∀ (d : Fin 12) (m : Master) (s : State), let p := 0x70 + d.val; let a := s.arg p (masterCode m)
    Ready s p m → Idle s p →
    let runs (u : State) : Prop := u.domRuns d = true ∨ (u.dom d).state = .init
    let hold (u : State) : Prop := (u.dom d).state = .holdover ∨ (u.dom d).state = .holdoverLimited
    let track (u : State) : Prop := (u.dom d).state = .acquire ∨ (u.dom d).state = .locked
    let cleared (u : State) : Prop := (u.dom d).safe = false ∨ u.fault.cause d = none
    (s.member d (s.cfgFb d) = true → s.standby = false → (s.dom d).state = .init → cleared s →
      Waits (.domEnable d m) s p m 1 a (State.domApply · d)
        (fun u => u.standby = false ∧ (u.dom d).state = .init ∧ cleared u)
        fun _ v => (v.dom d).state = .freeRun ∧ (v.dom d).yout = 0 ∧ (v.dom d).forcedHo = false) ∧
    ((s.page p).lockCmd = false → s.standby = false → (s.dom d).state ≠ .init → 4 ≤ d.val ∨ s.domServes d = false →
      Waits (.domDisable d m) s p m 2 a (State.domApply · d)
        (fun u => u.domRuns d = true ∧ (u.page p).lockCmd = false ∧ u.standby = false ∧ (u.dom d).state ≠ .init ∧
          (4 ≤ d.val ∨ u.domServes d = false))
        fun _ v => (v.dom d).state = .init ∧ (v.dom d).sel.valid = false ∧ (v.dom d).qlOut = 15) ∧
    (s.standby = false → track s →
      Waits (.forceHoldover d m) s p m 3 a (State.domApply · d)
        (fun u => u.domRuns d = true ∧ u.standby = false ∧ track u)
        fun u v => v.dom d = { u.dom d with forcedHo := true }) ∧
    (s.standby = false → hold s → (s.dom d).forcedHo = true → (s.dom d).fencedHo = false →
      Waits (.releaseHoldover d m) s p m 4 a (State.domApply · d)
        (fun u => u.domRuns d = true ∧ u.standby = false ∧ hold u ∧ (u.dom d).forcedHo = true ∧
          (u.dom d).fencedHo = false)
        fun u v => v.dom d = { u.dom d with forcedHo := false }) ∧
    (s.standby = false → (s.dom d).state ≠ .init →
      Waits (.sluiceRestart d m) s p m 5 a (State.domApply · d)
        (fun u => u.domRuns d = true ∧ u.standby = false ∧ (u.dom d).state ≠ .init)
        fun u v => v.dom d = { u.dom d with seg := 0, left := (u.dcfg d 0x84).toNat, acc := 0 }) ∧
    ((s.page p).lockCmd = false → ¬hold s →
      Waits (.modelReset d m) s p m 6 a (State.domApply · d)
        (fun u => runs u ∧ (u.page p).lockCmd = false ∧ ¬hold u)
        fun _ v => (v.dom d).model.valid = false ∧ (v.dom d).model.samples = [] ∧ (v.dom d).model.fenced = false) ∧
    ((s.dom d).state ≠ .init → (s.dom d).model.valid = true →
      Waits (.modelSave d m) s p m 7 a (State.domApply · d)
        (fun u => u.domRuns d = true ∧ (u.dom d).state ≠ .init ∧ (u.dom d).model.valid = true)
        fun u v =>
          (u.modelNvOk d = true → u.nvWritable = true → ∃ i seq, i < 2 ∧
            v.nv.mem = setNvWords u.nv.mem (u.modelAddr d + 64 * i) (u.modelRecord d seq) ∧
            (u.modelSeq d 0 = none → u.modelSeq d 1 = none → i = 0 ∧ seq = 1) ∧
            ∀ q, u.modelSeq d 0 = some q → u.modelSeq d 1 = none → i = 1 ∧ seq = (q + 1) % 2 ^ 32) ∧
          (u.modelNvOk d = false → v.nv.mem = u.nv.mem))

/-- Events of a domain (R174, R175, R177 to R179, R184, R187, R195), in native mode where they end in a fault event.
A domain that tracks becomes LOCKED, or loses LOCKED and returns to ACQUIRE; HOLDOVER freezes into HOLDOVER_LIMITED at its
prediction, with QL_OUT as configured; the sluice takes its next segment; an interval of the model ends; a lost or wild
feedback opens the loop. -/
def Obligations.DomainEventsTakeEffect : Prop :=
  ∀ (d : Fin 12) (s : State), let x := s.dom d; let q := s.dcfg d 0x28
    (s.domLive d = true →
      (x.state = .acquire → 10 * x.err.natAbs ≤ bits (s.dcfg d 0x10) 15 0 * 8388608 → x.sluClamp = false →
        Does (.lockCriterion d) s (s.setDom d fun x => { x with
          state := .locked, lockCnt := 0, unlockCnt := 0, eHist := [], qlOut := x.sel.rank })) ∧
      (x.state = .locked → 4 * (bits (s.dcfg d 0x10) 15 0 * 8388608) < 10 * x.err.natAbs →
        Does (.unlockCriterion d) s (s.setDom d fun x => { x with
          state := .acquire, lockCnt := 0, unlockCnt := 0, eHist := [], yHist := [], qlOut := x.sel.rank })) ∧
      (x.state = .holdover →
        Does (.holdoverLimit d) s (s.setDom d fun x => { x with
          state := .holdoverLimited, lockCnt := 0, unlockCnt := 0, eHist := [], ye := s.predict d
          qlOut := bits q 11 8 }))) ∧
    (x.state ≠ .init → s.domRuns d = true →
      ((s.dcfg d (0x84 + 8 * x.seg)).toNat ≠ 0 →
        (x.seg < 15 → Does (.sluiceSegmentEnd d) s (s.setDom d fun x => { x with
          seg := x.seg + 1, left := (s.dcfg d (0x84 + 8 * (x.seg + 1))).toNat })) ∧
        (15 ≤ x.seg → Does (.sluiceSegmentEnd d) s (s.setDom d fun x => { x with left := 0 }))) ∧
      Completes (.modelSample d) s fun t => (t.dom d).model.cnt = 0 ∧ (t.dom d).model.bad = false ∧
        (x.model.bad = true ∨ x.model.fenced = true ∨ x.model.cnt = 0 →
          (t.dom d).model.samples = x.model.samples ∧ (t.dom d).model.learned = x.model.learned) ∧
        (x.model.bad = false → x.model.fenced = false → x.model.cnt ≠ 0 →
          (t.dom d).model.samples.length = x.model.samples.length + 1 ∧
          (t.dom d).model.learned = x.model.learned + x.model.cnt)) ∧
    (x.state ≠ .init → s.fault.compat = false →
      Reports (.domFbLoss d) s (s.setDom d fun x => { x with open_ := true }) ∧
      Reports (.domFbRange d) s (s.setDom d fun x => { x with open_ := true }))

/-- SYN commands and events (R198, R206, R213, R216, R224, R228, R341), in native mode where they end in a fault event.
A found band keeps the word taken at the last boundary; a search without a band fails; lock brings the synthesiser to LOCKED and its
squelched outputs to WAIT, a lost lock to UNLOCKED and its running outputs to SQUELCHED, and every port that transmits
from it is held; without lock in time it calibrates again; a follower out of range clears FOLLOW_ALIGNED. DIV_SYNC holds
the running outputs of its groups until the next epoch starts them together, one that moves restarts where it moves to
(R217), and one that a stronger cause restarted at the boundary is left (R218); RETRY leads a FAILED or FENCED synthesiser
to CAL. -/
def Obligations.SynthesiserCommandsTakeEffect : Prop :=
  ∀ (k : Fin 8) (m : Master) (band : Fin 32) (s : State), let p := 0x80 + k.val; let a := s.arg p (masterCode m)
    let y := s.syn k
    let driven (u : State) (j mask : Nat) : Prop := j < 40 ∧ (u.out j).state = .run ∧ (u.out j).cfg.syn = k.val ∧
      (u.out j).cfg.src ≠ 1 ∧ (bits (u.cfg (0x90 + j) 0) 23 16).land mask ≠ 0
    (Ready s p m → Idle s p →
      (s.standby = false → y.state = .locked → y.sync = none → bits a 7 0 ≠ 0 →
        Waits (.divSync k m) s p m 1 a (State.synApply · k) (fun u => u.standby = false ∧ (u.syn k).state = .locked ∧ (u.syn k).syncTrg = none)
          fun u v => v.syn k = { u.syn k with sync := some (bits a 7 0) } ∧
            ∀ j, driven u j (bits a 7 0) →
              ((u.out j).hit = false → (v.out j).held = true ∧ (v.out j).starting = true ∧ (v.out j).sync =
                (u.out j).move.isNone) ∧
              ((u.out j).hit = true → v.out j = u.out j)) ∧
      ((s.page p).lockCmd = false → y.state = .failed ∨ y.state = .fenced → y.planErr = false →
        Waits (.synRetry k m) s p m 2 a (State.synApply · k)
          (fun u => (u.page p).lockCmd = false ∧ ((u.syn k).state = .failed ∨ (u.syn k).state = .fenced) ∧
            (u.syn k).planErr = false)
          fun _ v => (v.syn k).state = .cal ∧ (v.syn k).left = 16)) ∧
    (y.state = .cal →
      Does (.synCalDone k band) s (s.setSyn k fun y => { y with
        state := .settling, lockDet := false, followAligned := false, followHold := false, followBad := 0, left := 0
        band := band })) ∧
    (y.state = .cal → s.fault.compat = false →
      Completes (.synVcoRange k) s fun t => (t.syn k).state = .failed) ∧
    (y.state = .settling ∨ y.state = .unlocked →
      Completes (.synLock k) s fun t => (t.syn k).state = .locked ∧ (t.syn k).lockDet = true ∧
        (y.followHold = false → ∀ j, j < 40 → (s.out j).cfg.syn = k.val → (s.out j).state = .squelched →
          (t.out j).state = .wait)) ∧
    (y.state = .locked → s.fault.compat = false →
      Completes (.synUnlock k) s fun t => (t.syn k).state = .unlocked ∧ (t.syn k).left = 80 ∧
        (∀ j, j < 40 → (s.out j).cfg.syn = k.val → (s.out j).state = .run →
          (t.out j).state = .squelched ∧ (t.out j).held = true) ∧
        ∀ r, r < 4 → bits (s.cfg 0x0C (0x80 * r)) 7 4 = k.val → (t.port r).txHeld = true) ∧
    (y.state = .unlocked →
      Completes (.synRelockTimeout k) s fun t => (t.syn k).state = .cal ∧ (t.syn k).left = 16) ∧
    (y.followAligned = true → y.mode = 2 → (s.dom y.dom).fbSyn ≠ k.val → s.fault.compat = false →
      Completes (.synFollowRange k) s fun t => (t.syn k).followAligned = false ∧ (t.syn k).followHold = true ∧
        ∀ j, j < 40 → (s.out j).cfg.syn = k.val → (s.out j).state = .run → (t.out j).state = .squelched) ∧
    ∀ mask, y.sync = some mask →
      Completes (.divSyncEpoch k) s fun t => (t.syn k).sync = none ∧
        ∀ j, driven s j mask → (s.out j).starting = true → (s.out j).sync = true →
          (t.out j).held = false ∧ (t.out j).starting = false

/-- OUT commands and events (R205, R213, R215, R217, R220, R227, R228), in native mode where they end in a fault event.
VERIFY runs twice its rounded count of rounds, RESTART holds the output for the next epoch unless a stronger cause has
restarted it at that boundary (R218), RETRY leads a FENCED output to
WAIT; the start epoch brings a waiting output to RUN and releases a held one; a move takes its new settings; a VERIFY
passes within 25 ps; a driver out of limits, a divider mismatch and a failed bank supply hold what they concern. -/
def Obligations.OutputCommandsTakeEffect : Prop :=
  ∀ (j : Fin 40) (b : Fin 5) (m : Master) (s : State), let p := 0x90 + j.val; let a := s.arg p (masterCode m)
    let o := s.out j
    (Ready s p m → Idle s p →
      (64 ≤ bits a 15 0 → s.testBusy (36 + o.cfg.syn) = false → o.state = .run → o.epochAligned = true →
        o.cfg.src = 0 →
        Waits (.outVerify j m) s p m 1 a (State.outApply · j)
          (fun u => (u.out j).state = .run ∧ (u.out j).epochAligned = true ∧ (u.out j).cfg.src = 0)
          fun u v => v.out j = { u.out j with
            verifyBusy := true, verifyLeft := 2 * ((bits a 15 0 + 63) / 64), verifyMax := 0, verifyResult := 0 }) ∧
      (s.standby = false → o.state = .run →
        Waits (.outRestart j m) s p m 2 a (State.outApply · j) (fun u => u.standby = false ∧ (u.out j).state = .run)
          fun u v => ((u.out j).hit = true → v.out j = u.out j) ∧
            ((u.out j).hit = false → v.out j = { u.out j with
              cfg := (u.out j).move.getD (u.out j).cfg, held := true, starting := true, move := none, sync := false
              hit := true, armed := u.osc.bnd * 262144 })) ∧
      ((s.page p).lockCmd = false → o.state = .fenced →
        Waits (.outRetry j m) s p m 3 a (State.outApply · j)
          (fun u => (u.page p).lockCmd = false ∧ (u.out j).state = .fenced)
          fun _ v => (v.out j).state = .wait ∧ (v.out j).held = true)) ∧
    (o.starting = true → o.sync = false →
      (o.state = .wait → s.mayStart j = true →
        Completes (.outputStart j) s fun t => (t.out j).state = .run ∧ (t.out j).held = false ∧
          (t.out j).starting = false) ∧
      (o.state = .run → s.sourceLocked j = true →
        Completes (.outputStart j) s fun t => (t.out j).state = .run ∧ (t.out j).held = false ∧
          (t.out j).starting = false)) ∧
    (∀ c, o.move = some c → Does (.moveSwitch j) s (s.setOut j fun o => { o with
      cfg := c, move := none, startFrom := some (o.armed + 1250 * 262144) })) ∧
    (o.verifyBusy = true →
      (o.verifyMax ≤ 6400 → Completes (.verifyEnd j) s fun t => (t.out j).verifyBusy = false ∧
        (t.out j).verifyResult = 1 ∧ (t.out j).verifyErr = o.verifyMax) ∧
      (6400 < o.verifyMax → s.fault.compat = false →
        Completes (.verifyEnd j) s fun t => (t.out j).verifyBusy = false ∧ (t.out j).verifyResult = 2 ∧
          (t.out j).verifyErr = o.verifyMax)) ∧
    (s.fault.compat = false →
      (Completes (.outDriver j) s fun t => (t.out j).held = true ∧ (t.out j).starting = false ∧
        (t.out j).driverOk = false) ∧
      (o.state = .run → Completes (.outDivMismatch j) s fun t => (t.out j).held = true ∧
        (t.out j).starting = true ∧ (t.out j).state = .run) ∧
      (s.boot.released = true → Completes (.outBankSupply b) s fun t =>
        ∀ n, n < 8 → (t.out (8 * b.val + n)).held = true ∧ (t.out (8 * b.val + n)).starting = false))

/-- TIME commands and events (R230, R233 to R238, R241 to R245, R248, R398). STEP_TIME adds the step of R238 to T at its
boundary, and VALID follows unless the domain is fenced; TIME_REARM is proposed, then countersigned by the other party,
and waits for its boundary, where STEPPED and VALID are cleared and T re-anchors; AUTO_STEP is armed; a pulse follows each
whole second; a leap clears its arming and moves the UTC offset by one second; a trigger joins those that fire at the next
boundary; a timed swap falls at the next boundary. -/
def Obligations.TimeCommandsTakeEffect : Prop :=
  ∀ (m : Master) (i : Fin 4) (g : Fin 8) (s : State), let a := s.arg 0x09 (masterCode m); let d := bits a 1 0
    let x := s.tdom i; let w := (s.trgRead g).cfg; let leap := s.dir 0x09 (0x9C0 + 4 * i.val)
    (Ready s 0x09 m → Idle s 0x09 → s.standby = false →
      (let mayStep (u : State) : Prop := (u.page 0x09).lockCmd = false ∧ u.standby = false ∧
          (u.tdom d).stepped = false ∧ (u.dom d).state = .locked ∧ (u.tdom d).fbPlanErr = false ∧
          (bit a 4 = true ∨ u.srcOkOf d = true)
       mayStep s →
        Waits (.stepTime m) s 0x09 m 1 a State.timeApply mayStep fun u v =>
          (v.tdom d).t = (u.tdom d).t + u.stepAmount d (bit a 4) ∧ (v.tdom d).stepped = true ∧
          (v.tdom d).epoch = ((u.tdom d).epoch + 1) % 65536 ∧
          ((u.tdom d).fenced = false → (v.tdom d).valid = true)) ∧
      ((s.tdom d).stepped = true →
        (MayPropose s 0x09 m 2 a → Proposes (.timeRearm m) s 0x09 m 2 a []) ∧
        (Countersigns s 0x09 m 2 a [] →
          Waits (.timeRearm m) s 0x09 m 2 a State.timeApply (fun u => u.standby = false ∧ (u.tdom d).stepped = true)
            fun u v => (v.tdom d).stepped = false ∧ (v.tdom d).valid = false ∧ (v.tdom d).anchor = true ∧
              (v.tdom d).epoch = ((u.tdom d).epoch + 1) % 65536))) ∧
    (s.autoStepDue i = true → Does (.autoStep i) s (s.setTdom i fun x => { x with autoStep := true })) ∧
    (let second := (floorDiv x.t secUnits + 1) * secUnits
     s.isInit i = false → x.anchor = false → bit (s.tcfg i) 13 = false ∨ x.valid = true → x.ppsFrom ≤ second →
      x.ppsEnd ≤ second →
      Completes (.ppsPulse i) s fun t =>
        t.tdom i = { x with
          pps := x.pps + 1
          ppsEnd := second + (clamp (bits (s.cfg 0x09 (16 * i.val + 8)) 23 0) 1 9000000 : Nat) * (100 * nsUnits) } ∧
        ∀ j, j < 40 →
          (s.ppsOut i j = false → t.out j = s.out j) ∧
          (s.ppsOut i j = true → (s.out j).te = none →
            let o := s.out j
            let r := (s.syn o.cfg.syn).plan.vcoPeriod
            (t.out j).vernier = none ∧ (t.out j).ppsAt = some (256 * s.tapInstant i second + o.pathDly
              + roundDiv (256 * 8192 * o.cfg.fine) 25 + roundDiv (256 * (o.cfg.coarse * r.1 : Nat)) r.2)) ∧
          (s.ppsOut i j = true → (s.out j).te.isSome = true → ∃ n, (t.out j).vernier = some n ∧ n ≤ 1023)) ∧
    (bit leap 24 = true → x.armed = true → x.valid = true → s.utcValid i = true →
      -32767 ≤ s.utcOfs i → s.utcOfs i ≤ 32766 →
      Completes (.leap i) s fun t => bit (t.dir 0x09 (0x9C0 + 4 * i.val)) 24 = false ∧ (t.tdom i).armed = false ∧
        (bit leap 25 = false → t.utcOfs i = s.utcOfs i + 1 ∧ (t.tdom i).inLeap = true ∧
          (t.tdom i).leapEnd = s.leapInstant i + secUnits) ∧
        (bit leap 25 = true → t.utcOfs i = s.utcOfs i - 1)) ∧
    (bit w 0 = true → (s.tdom (bits w 3 2)).valid = true → s.time.fire.any (fun q => q.1 == g.val) = false →
      Does (.trgFired g) s { s with time := { s.time with fire := s.time.fire ++ [(g.val, false)] } }) ∧
    (s.sys.timed.isSome = true → Does .timedSwapDue s (s.setSys fun x => { x with swapPend := true }))

/-- UART_MESSAGE (R234 to R237). A message that arrives within 10 ms of a pulse, or that no check passes, or that no
domain takes, is discarded: its UART shows no match. A Lanyn frame whose time is not valid labels nothing and shows its
offset and flags; one whose time is valid labels the next pulse of every
domain that takes the UART with its TAI second, or the previous pulse where so configured; a ZDA message labels it with
its UTC second and the domain's UTC offset. -/
def Obligations.UartMessagesLabelPulses : Prop :=
  ∀ (u : Fin 4) (bytes : List Byte) (after before : Nat) (s : State), let bs := bytes.map BitVec.toNat
    let w := s.cfg 0x09 (0x40 + 4 * u.val); let binary := bit w 4; let prev := bit w 5
    let c := Instr.uartMessage u bytes after before
    (after ≤ 10000 ∨ before ≤ 10000 ∨ s.uartDoms u = [] ∨ (binary = true ∧ binaryFrame bs = none) ∨
        (binary = false ∧ zdaSeconds bs = none) ∨ (binary = false ∧ ∀ d ∈ s.uartDoms u, s.utcValid d = false) →
      Completes c s fun t => bit (t.uartRx u) 24 = false ∧ ∀ d, t.tdom d = s.tdom d) ∧
    (10000 < after → 10000 < before →
      (∀ fl tai ofs, binary = true → binaryFrame bs = some (fl, tai, ofs) → fl % 2 = 0 → s.uartDoms u ≠ [] →
        Completes c s fun t => bit (t.uartRx u) 24 = true ∧ bits (t.uartRx u) 15 0 = ofs % 65536 ∧
          bits (t.uartRx u) 19 16 = fl ∧ ∀ d, t.tdom d = s.tdom d) ∧
      (∀ fl tai ofs, binary = true → binaryFrame bs = some (fl, tai, ofs) → fl % 2 = 1 → s.uartDoms u ≠ [] →
        Completes c s fun t => bit (t.uartRx u) 24 = true ∧ bits (t.uartRx u) 15 0 = ofs % 65536 ∧
          ∀ d ∈ s.uartDoms u,
            (prev = false → (t.tdom d).nextLabel = some tai) ∧
            (prev = true → ∀ q r, (s.tdom d).pulses = q :: r →
              (t.tdom d).pulses = { q with label := some tai } :: r)) ∧
      (∀ utc, binary = false → zdaSeconds bs = some utc → (∃ d ∈ s.uartDoms u, s.utcValid d = true) →
        Completes c s fun t => bit (t.uartRx u) 24 = true ∧
          ∀ d ∈ s.uartDoms u, s.utcValid d = true →
            (prev = false → (t.tdom d).nextLabel = some ((utc : Int) + s.utcOfs d).toNat) ∧
            (prev = true → ∀ q r, (s.tdom d).pulses = q :: r →
              (t.tdom d).pulses = { q with label := some ((utc : Int) + s.utcOfs d).toNat } :: r)))

/-- TICK (R254 to R259, R263 to R265, R272). A link that may send sends the frame of the tick that is due: the payload of
its content followed by its CRC-32, low byte first, and on the line the marker and the start of frame, those bytes and the
end of frame as code groups. An enabled idle link begins to send; a withheld tick is counted and sends nothing; a link in the
safe sequence counts its frames down and goes idle after the last. -/
def Obligations.TicksSendFrames : Prop :=
  ∀ (v : Fin 8) (s : State), let l := s.link v; let d := s.due v; let body := s.payload v d
    let frame := body ++ leBytes 4 (crc32 body)
    let dealt (t : State) : Prop := (d.old = false → (t.link v).tick = d.n) ∧
      (d.old = true → (t.link v).tick = l.tick ∧ ∀ o, (t.link v).old = some o → o.sent = true)
    let sent (t : State) : Prop := dealt t ∧ (t.link v).frame = frame ∧
      (t.link v).line =
        (encodeLine (t.link v).rdFrom ([.k281, .k277] ++ frame.map .data ++ [.k297])).1 ∧
      (t.link v).lastSeq = (d.n % 65536).toNat ∧ (t.link v).lastQl = d.content.ql ∧
      (t.link v).lastState = d.content.dstate ∧ (t.link v).markOfs = d.mark
    let skipped (t : State) : Prop := dealt t ∧ (t.link v).frame = l.frame ∧ (t.link v).line = l.line ∧
      t.counter 0x0A (0xA80 + 8 * v.val) = (s.counter 0x0A (0xA80 + 8 * v.val) + 1) % 2 ^ 64
    (l.state = .idle → bit (s.cfg 0x0A (4 * v.val)) 0 = true → l.cfgErr = 0 ∨ l.cfgErr = 2 → l.idled = true →
      (s.out (32 + v)).state = .run →
      (l.withhold = false → Completes (.tick v) s fun t => (t.link v).state = .sending ∧ sent t) ∧
      (l.withhold = true → Completes (.tick v) s fun t => (t.link v).state = .idle ∧ skipped t)) ∧
    (l.state = .sending →
      (l.withhold = false → Completes (.tick v) s fun t => (t.link v).state = .sending ∧ sent t) ∧
      (l.withhold = true → Completes (.tick v) s fun t => (t.link v).state = .sending ∧ skipped t)) ∧
    (l.state = .dnu → d.content.dstate = 7 →
      (l.withhold = false →
        Completes (.tick v) s fun t => sent t ∧ (1 < l.dnuLeft → (t.link v).state = .dnu ∧
          (t.link v).dnuLeft = l.dnuLeft - 1) ∧ (l.dnuLeft = 1 → (t.link v).state = .safeIdle)) ∧
      (l.withhold = true →
        Completes (.tick v) s fun t => skipped t ∧ (1 < l.dnuLeft → (t.link v).state = .dnu ∧
          (t.link v).dnuLeft = l.dnuLeft - 1) ∧ (l.dnuLeft = 1 → (t.link v).state = .safeIdle)))

/-- SCHED commands and the loader's events (R287, R293, R295, R297, R489). LOAD_HOST and LOAD_FLASH empty the store and start
LOADING; BOOK_DATA stores the next word and the last one makes the book LOADED; VERIFY starts VERIFYING, and its end
leaves the book VERIFIED or refused with code and offset; of the two boot books that start-up tries, a good one is verified
and goes on to its activation, the first that fails is followed by the second, and with neither no book runs (R489);
ACTIVATE waits for the boundary, where the 16 rounds without the
board begin, warm or cold; at their end the board runs the book; CLEAR empties the store; RESUME ends forced V3. -/
def Obligations.LoaderCommandsTakeEffect : Prop :=
  ∀ (m : Master) (value : Word) (words : List Word) (s : State), let a := s.arg 0x01 (masterCode m); let b := s.board
    let still : Prop := b.bookState ≠ .verifying ∧ b.bookState ≠ .activating
    let boots : Bool := s.boot.bookTry == 1 || s.boot.bookTry == 2
    let fails (c o : Nat) (t : State) : Prop :=
      (boots = false → t.board.bookState = .refused ∧ t.board.verifyCode = c ∧ t.board.verifyOfs = o) ∧
      (boots = true → t.boot.bookVerify = c) ∧
      (s.boot.bookTry = 1 → t.board.bookState = .loading ∧ t.boot.bookTry = 2) ∧
      (s.boot.bookTry = 2 → t.board.bookState = .refused ∧ t.boot.book = 3 ∧ t.boot.bookTry = 0)
    (Ready s 0x01 m → Idle s 0x01 →
      ((s.page 0x01).lockCmd = false → still → b.bookState ≠ .loading →
        (a.toNat % 16 = 0 → 512 ≤ a.toNat → a.toNat ≤ 1572864 →
          Carries (.loadHost m) s 0x01 m 1 (s.setBoard fun b => { b with
            bookState := .loading, expect := a.toNat, loadLen := 0, fromFlash := false, store := [], verifyCode := 0
            verifyOfs := 0, warmOk := false, storedRead := false, stored := .zero })) ∧
        (a.toNat % 4096 = 0 → a.toNat < s.flashBytes →
          Carries (.loadFlash m) s 0x01 m 2 (s.setBoard fun b => { b with
            bookState := .loading, expect := 0, loadLen := 0, fromFlash := true, store := [], verifyCode := 0
            verifyOfs := 0, warmOk := false, storedRead := false, stored := .zero }))) ∧
      ((s.page 0x01).lockCmd = false → b.bookState = .loaded →
        Carries (.schedVerify m) s 0x01 m 3 (s.setBoard fun b => { b with bookState := .verifying })) ∧
      ((s.page 0x01).lockCmd = false → b.bookState = .verified → s.activateRole = false →
        (b.state = .running → b.warmOk = true →
          Waits (.activateWarm m) s 0x01 m 4 (a &&& ~~~(1 : Word)) State.schedApply
            (fun u => (u.page 0x01).lockCmd = false ∧ u.activateRole = false ∧ u.board.state = .running ∧
              u.board.warmOk = true)
            fun _ v => v.board.state = .activating ∧ v.board.actLeft = 16 ∧ v.board.actWarm = true) ∧
        (b.state = .noBook ∨ s.allInit = true →
          Waits (.activateCold m) s 0x01 m 4 (a ||| 1) State.schedApply
            (fun u => (u.page 0x01).lockCmd = false ∧ u.activateRole = false ∧
              (u.board.state = .noBook ∨ u.allInit = true))
            fun _ v => v.board.state = .activating ∧ v.board.actLeft = 16 ∧ v.board.actWarm = false)) ∧
      (still →
        Carries (.schedClear m) s 0x01 m 5 (s.setBoard fun b => { b with
          bookState := .empty, store := [], loadLen := 0, storedRead := false, stored := .zero, warmOk := false
          verifyCode := 0, verifyOfs := 0 })) ∧
      ((s.page 0x01).lockCmd = false → still → b.v3Forced = true →
        Carries (.resume m) s 0x01 m 6 (s.setBoard fun b => { b with v3Forced := false }))) ∧
    (Ready s 0x01 m → b.bookState = .loading → b.fromFlash = false →
      Completes (.bookData m value) s fun t => t.board.loadLen = b.loadLen + 4 ∧
        tget (fun _ => 0) t.board.store (b.loadLen / 4) = value.toNat ∧
        (b.expect ≤ b.loadLen + 4 → t.board.bookState = .loaded) ∧
        (b.loadLen + 4 < b.expect → t.board.bookState = .loading)) ∧
    (b.bookState = .loading → b.fromFlash = true →
      let total := ((words.map BitVec.toNat)[2]?).getD 0
      (Completes (.flashLoadDone words false) s (fails 15 0)) ∧
      (1572864 < total → Completes (.flashLoadDone words true) s (fails 2 8)) ∧
      (total ≤ 1572864 → 4 * words.length < total → Completes (.flashLoadDone words true) s (fails 15 0)) ∧
      (total ≤ 1572864 → total ≤ 4 * words.length →
        Completes (.flashLoadDone words true) s fun t => t.board.loadLen = total ∧
          (boots = false → t.board.bookState = .loaded) ∧ (boots = true → t.board.bookState = .verifying))) ∧
    (b.bookState = .verifying →
      (s.verifyBook b.store b.loadLen = none → Completes .verifyDone s fun t => t.board.verifyCode = 0 ∧
        t.board.warmOk = (b.state == .running && imgWord b.store 0x20 == b.run.layout) ∧
        (boots = false → t.board.bookState = .verified) ∧
        (boots = true → t.board.bookState = .activating ∧ t.boot.book = s.boot.bookTry)) ∧
      ∀ c o, s.verifyBook b.store b.loadLen = some (c, o) → Completes .verifyDone s (fails c o)) ∧
    (b.state = .activating →
      Completes .activationComplete s fun t => t.board.state = .running ∧ t.board.bookState = .installed ∧
        t.board.actLeft = 0 ∧ t.board.run = runBook b.store)

/-- CELL commands, the end of a cell's test and the scrub of the store (R298 to R301, R307), in native mode where they end
in a fault event. SPARE_IN starts the replacement of a scheduled cell by the lowest permitted spare; CELL_TEST starts the
64 rounds of a spare or fenced cell, or replaces a scheduled one first; a tested cell becomes SPARE with its memories
cleared, or FENCED; an uncorrectable word of the store refuses a pending book and empties an installed copy. -/
def Obligations.CellCommandsTakeEffect : Prop :=
  ∀ (m : Master) (n : Fin 32) (s : State), let a := s.arg 0xC8 (masterCode m); let c := bits a 4 0
    let swap (u v : State) (how : Nat) : Prop := ∀ k, u.spareFor (u.cell c).logical = some k →
      v.board.repl = [{ spare := k, logical := (u.cell c).logical, copying := false, leaving := some (c, how) }]
    let room (u : State) : Prop := u.spareFor (u.cell c).logical ≠ none ∧ u.board.repl = []
    (Ready s 0xC8 m → Idle s 0xC8 →
      ((s.page 0xC8).lockCmd = false → (s.cell c).state = .scheduled → room s →
        Waits (.spareIn m) s 0xC8 m 1 a State.cellApply
          (fun u => (u.page 0xC8).lockCmd = false ∧ (u.cell c).state = .scheduled ∧ room u) fun u v => swap u v 0) ∧
      (s.board.state ≠ .activating →
        ((s.cell c).state = .spare ∨ (s.cell c).state = .fenced →
          Waits (.cellTest m) s 0xC8 m 2 a State.cellApply
            (fun u => u.board.state ≠ .activating ∧ ((u.cell c).state = .spare ∨ (u.cell c).state = .fenced))
            fun _ v => (v.cell c).state = .testing ∧ (v.cell c).testLeft = 64 ∧ (v.cell c).dmem = []) ∧
        ((s.cell c).state = .scheduled → room s →
          Waits (.cellTest m) s 0xC8 m 2 a State.cellApply
            (fun u => u.board.state ≠ .activating ∧ (u.cell c).state = .scheduled ∧ room u)
            fun u v => swap u v 1))) ∧
    ((s.cell n).state = .testing →
      (Completes (.cellTestDone n true) s fun t => (t.cell n).state = .spare ∧ (t.cell n).testResult = 1 ∧
        (t.cell n).imem = [] ∧ (t.cell n).dmem = []) ∧
      (s.fault.compat = false → Completes (.cellTestDone n false) s fun t => (t.cell n).state = .fenced ∧
        (t.cell n).testResult = 2)) ∧
    Does (.storeScrub .clean) s (s.setBoard fun b => { b with scrub := 0 }) ∧
    Does (.storeScrub .corrected) s (s.setBoard fun b => { b with scrub := 0 }) ∧
    (s.board.bookState = .installed →
      Does (.storeScrub .uncorrectable) s (s.setBoard fun b => { b with
        scrub := 0, bookState := .empty, store := [], storedRead := false, stored := .zero })) ∧
    (s.board.bookState = .loading ∨ s.board.bookState = .loaded ∨ s.board.bookState = .verifying ∨
        s.board.bookState = .verified →
      Does (.storeScrub .uncorrectable) s (s.setBoard fun b => { b with
        scrub := 0, bookState := .refused, verifyCode := 15, verifyOfs := 0, warmOk := false }))

/-- PAIR commands (R308, R325, R334). BIND, from SOLO and unbound, is proposed with the identity it captures, then
countersigned, and at its boundary the device is bound to that identity; UNBIND ends the binding, and the device is SOLO;
CASTLE makes a STANDBY take over, and an ACTIVE request it. -/
def Obligations.PairCommandsTakeEffect : Prop :=
  ∀ (m : Master) (data : List Word) (s : State), let a := s.arg 0x07 (masterCode m)
    let foreign (l : List Word) : Prop := uidOf l ≠ 0 ∧ uidOf l ≠ s.sec.ownUid
    let open_ (u : State) : Prop := (u.page 0x07).lockCmd = false
    let loose (u : State) : Prop := u.pair.bound = true ∧ (u.pair.role ≠ .active ∨ u.pair.lost = true)
    let agree (u : State) : Prop := u.pair.cfgMatch = true ∧ u.pair.verOk = true
    let behind (u : State) : Prop := u.pair.role = .standby ∧ u.pair.partnerRole = 1 ∧ u.pair.aligned = true ∧ agree u
    let ahead (u : State) : Prop := u.pair.role = .active ∧ u.pair.partnerRole = 2 ∧
      u.pair.partnerFlags.testBit 6 = true ∧ agree u ∧ u.pair.castleBusy = false
    Ready s 0x07 m → Idle s 0x07 →
    (s.pair.role = .solo → s.pair.bound = false →
      (foreign s.bindRegs → MayPropose s 0x07 m 1 a → Proposes (.bind m) s 0x07 m 1 a s.bindRegs) ∧
      (foreign data → Countersigns s 0x07 m 1 a data →
        Waits (.bind m) s 0x07 m 1 a State.pairApply
          (fun u => u.pair.role = .solo ∧ u.pair.bound = false)
          (fun _ v => v.pair.bound = true ∧ v.pair.boundUid = uidOf data ∧ v.pair.pref = bit a 0 ∧
            v.sec.binding = some (uidOf data, bit a 0)) data)) ∧
    (loose s →
      (MayPropose s 0x07 m 2 a → Proposes (.unbind m) s 0x07 m 2 a []) ∧
      (Countersigns s 0x07 m 2 a [] →
        Waits (.unbind m) s 0x07 m 2 a State.pairApply (fun u => loose u) fun _ v =>
          v.pair.bound = false ∧ v.sec.binding = none ∧ v.pair.role = .solo)) ∧
    (open_ s → s.pair.castleBusy = false →
      (behind s →
        Waits (.castle m) s 0x07 m 3 a State.pairApply (fun u => open_ u ∧ behind u) fun _ v =>
          v.pair.role = .active ∧ v.pair.lastCause = 1 ∧ v.pair.castleBusy = true ∧ v.pair.takenLeft = 64) ∧
      (ahead s →
        Waits (.castle m) s 0x07 m 3 a State.pairApply (fun u => open_ u ∧ ahead u) fun _ v =>
          v.pair.role = .active ∧ v.pair.castleReq = true ∧ v.pair.cause = 1 ∧ v.pair.reqLeft = 64))

/-- Pair events (R311, R312, R318, R322 to R325, R327, R335, R491). A valid record waits for the boundary, one whose CRC is
wrong, of another sender, of a version that does not fit, or that cannot be read does not, and a fenced pair hears none; the ordered set brings stamp and count; the link comes and goes; a finished SYNCING step leads to the next
and after step 6 to STANDBY; a lost partner leaves SYNCING for SOLO, makes a STANDBY with AUTO_PEER take over, and is noted
by an ACTIVE; a request and TAKEN lapse; ALIGNED follows the error; the wait for a record ends. -/
def Obligations.PairEventsTakeEffect : Prop :=
  ∀ (bytes : List Byte) (count coarse : Nat) (s : State), let bs := bytes.map BitVec.toNat; let n := bs.length
    let ws := recWords (bs.take (n - 4)); let g (i : Nat) : Nat := (ws[i]?).getD 0
    let whole : Prop := 44 ≤ n ∧ crc32 (bs.take (n - 4)) = leNat (bs.drop (n - 4))
    let p := s.pair
    let framed : Prop := g 0 / 65536 = 0x524D ∧ g 5 = n ∧ n % 4 = 0 ∧ n ≤ 6144
    let partner : Prop := p.bound = true ∧ g 8 + g 9 * 2 ^ 32 = p.boundUid
    let version : Prop := nbits (g 0) 15 8 = s.relnanMajor ∧ ((g 0 % 256 : Nat) - s.relnanMinor : Int).natAbs ≤ 1
    (p.fenced = true → Does (.recordArrival bytes) s s) ∧
    (p.fenced = false →
      (whole → framed → partner → version →
        (∀ r, parseRecord ws = some r →
          Completes (.recordArrival bytes) s fun t => t.pair.inbox = some r ∧ t.pair.silent = 0) ∧
        (parseRecord ws = none →
          Completes (.recordArrival bytes) s fun t => t.pair = { p with silent := 0 })) ∧
      (whole → framed → partner → ¬version →
        Completes (.recordArrival bytes) s fun t => t.pair.inbox = none ∧ t.pair.silent = 0 ∧ t.pair.verOk = false) ∧
      (whole → ¬(framed ∧ partner) → Does (.recordArrival bytes) s s) ∧
      (s.fault.compat = false → ¬ whole → Reports (.recordArrival bytes) s s)) ∧
    Does (.orderedSet count coarse) s (s.setPair fun p => { p with arrival := coarse, partnerCount := count % 2 ^ 24 }) ∧
    Does .blockLock s (s.setPair fun p => { p with linkUp := true }) ∧
    Does .castlingLinkDown s (s.setPair fun p => { p with linkUp := false, pclkSilent := 0 }) ∧
    Does .takenEnd s (s.setPair fun p => { p with takenLeft := 0 }) ∧
    (p.role = .syncing → s.syncReady false = true →
      (p.syncStep < 6 → Completes .syncStep s fun t => t.pair.role = .syncing ∧ t.pair.syncStep = p.syncStep + 1) ∧
      (p.syncStep = 6 → Completes .syncStep s fun t => t.pair.role = .standby)) ∧
    (p.bound = true → p.lost = false →
      (p.role = .syncing → Completes .partnerLost s fun t => t.pair.role = .solo) ∧
      (p.role = .standby → bit (s.cfg 0x07 0) 18 = true →
        Completes .partnerLost s fun t => t.pair.role = .active ∧ t.pair.lost = true ∧ t.pair.lastCause = 4) ∧
      (p.role = .standby → bit (s.cfg 0x07 0) 18 = false →
        Completes .partnerLost s fun t => t.pair.role = .standby ∧ t.pair.lost = true) ∧
      (p.role = .active → Completes .partnerLost s fun t => t.pair.role = .active ∧ t.pair.lost = true)) ∧
    (p.castleReq = true →
      let again : Prop := p.waiting ≠ 0 ∧ s.causeHolds p.waiting = true ∧ p.role = .active ∧ p.verOk = true ∧
        s.autoEn p.waiting = true
      Completes .castleFail s fun t =>
        (¬again → t.pair.castleReq = false ∧ t.pair.castleBusy = false) ∧
        (again → t.pair.castleReq = true ∧ t.pair.castleBusy = true ∧ t.pair.reqLeft = 64 ∧ t.pair.cause = p.waiting)) ∧
    (s.standby = true → p.aligned = false → s.alignedDoms.any (s.errAbove 5) = false →
      Completes .aligned s fun t => t.pair.aligned = true) ∧
    (p.aligned = true → s.alignedDoms.any (s.errAbove 50) = true →
      Completes .alignLoss s fun t => t.pair.aligned = false) ∧
    (s.fault.compat = false →
      (p.role ≠ .solo → p.linkUp = true →
        Completes .pairPclkLoss s fun t => t.pair.aligned = false ∧ 2 ≤ t.pair.pclkSilent) ∧
      (p.role = .standby → p.wasAligned = true → Completes .pairAlignRange s fun t => 64 ≤ t.pair.rangeBad)) ∧
    (∀ k, s.boot.pairWait = some (k + 1) → s.defers = true →
      Completes .pairWait s fun t => t.boot.pairWait = some 0)

/-- PTP messages (R343 to R347, R356). A client that receives keeps what a Sync, a Follow_Up and a Delay_Resp bring, sends
Delay_Req, and at a sample interval filters the exchanges it has; an Announce is heard and the best master becomes the
parent; its timeout returns the client to LISTENING and fails ACTIVITY. A master sends Sync, Announce and Delay_Resp of
its own and granted contexts, and grants, denies and cancels contexts. -/
def Obligations.PtpMessagesAreExchanged : Prop :=
  ∀ (i p : Fin 4) (ctx : Option (Fin 2048)) (e : PtpEvent) (seq at_ : Nat) (x y : Int) (a : Announce) (r : Signal)
    (s : State), let k := ctx.map Fin.val; let q := s.clientPort i; let c := s.client i; let d := s.masterDom p
    let fresh : Grant :=
      { port := p, ipv6 := r.ipv6, addr := r.addr.map BitVec.toNat, sync := 0, announce := 0, dresp := 0, mask := 0
        secs := 0, seqSync := 0, seqAnn := 0, changed := none }
    (s.clientReceives i = true → s.serviceOn = true →
      Completes (.sync i e) s (fun t => t.client i = { c with
        syncSeq := e.seq, t1 := e.origin, t2 := s.rxStamp q (s.clientDom i) e.at_, cfSync := e.correction }) ∧
      (c.syncSeq = seq → c.t1 = none →
        Completes (.followUp i seq x y) s fun t => (t.client i).t1 = some x ∧ (t.client i).cfSync = c.cfSync + y) ∧
      Completes (.delayReqTx i at_) s (fun t => (t.port q).lastTx = .delayReq c.reqSeq ∧ t.client i = { c with
        req := some (c.reqSeq, c.t1, c.t2, c.cfSync, s.txStamp q (s.clientDom i) at_)
        reqSeq := (c.reqSeq + 1) % 65536 }) ∧
      (∀ t1 t2 cf t3, c.req = some (seq, some t1, t2, cf, t3) →
        Completes (.delayResp i seq x y) s fun t =>
          t.client i = { c with
            req := none
            done := c.done ++ [(floorDiv ((t2 - t1 - cf) - (x - t3 - y)) 2 - s.clientAsym i,
              (t2 - t1 - cf) + (x - t3 - y))] })) ∧
    (s.clientReceives i = false ∨ s.serviceOn = false →
      Does (.sync i e) s s ∧ Does (.followUp i seq x y) s s ∧ Does (.delayReqTx i at_) s s ∧
        Does (.delayResp i seq x y) s s) ∧
    (c.syncSeq ≠ seq ∨ c.t1 ≠ none → Does (.followUp i seq x y) s s) ∧
    ((∀ t1 t2 cf t3, c.req ≠ some (seq, some t1, t2, cf, t3)) → Does (.delayResp i seq x y) s s) ∧
    (s.clientReceives i = true → c.done ≠ [] → s.fault.compat = false →
      let n := bits (s.ccfg i) 23 20
      Completes (.clientSample i) s fun t => (t.client i).state = .slave ∧ (t.client i).done = [] ∧
        (t.client i).fullOfs = filteredOffset (if n = 0 then 1 else min n 8) c.done ∧
        (t.qual (36 + i)).samples.length = (s.qual (36 + i)).samples.length + 1) ∧
    (s.clientActive i = true → s.portUp q = true → (s.port q).svcStop = false → s.ctrlRuns = true →
      bits (s.ccfg i) 4 3 = 0 ∨ (a.entry < 2 ∧ bit (s.scfg (0x68 + 16 * i)) (16 + a.entry) = true) →
      let heard := (c.heard.filter fun b => b.entry != a.entry) ++ [a]
      let best := (s.setClient i fun c => { c with heard }).bestMaster i
      Completes (.announce i a) s fun t => (t.client i).heard = heard ∧ (t.client i).parent = best ∧
        (c.parent = none → (t.client i).state = .uncalibrated)) ∧
    (s.clientActive i = true →
      Completes (.announceTimeout i) s fun t => (t.client i).state = .listening ∧ (t.client i).parent = none ∧
        (t.qual (36 + i)).actFail = true) ∧
    (s.masterTimes p = true → s.granted p 0 k = true → let n := (s.nextSeq p k false).1
      Completes (.syncTx p ctx at_) s fun t =>
        (t.port p).lastTx = (if bit (s.mcfg p) 3 then .followUp n (s.txStamp p d at_) else .sync n (some (s.txStamp p d at_)))
          ∧ (t.nextSeq p k false).1 = (n + 1) % 65536) ∧
    (s.masterTimes p = true → s.ctrlRuns = true → s.granted p 1 k = true → let n := (s.nextSeq p k true).1
      Completes (.announceTx p ctx) s fun t => (t.port p).lastTx = .announce n (s.announceOf p) ∧
        (t.nextSeq p k true).1 = (n + 1) % 65536) ∧
    (s.masterActive p = true → s.granted p 2 k = true →
      Completes (.delayReq p ctx e) s fun t =>
        (t.port p).lastTx = .delayResp e.seq (s.rxStamp p d e.at_) e.correction) ∧
    (s.masterServes p = true → s.ctrlRuns = true → bits (s.mcfg p) 2 1 = (if r.ipv6 then 2 else 1) →
      (r.cancel = true → ∀ n g, s.ctxOf p r = some n → s.grant n = some g →
        Completes (.signaling p r) s fun t =>
          t.grant n = some { g with mask := g.mask.land (7 - 2 ^ r.kind.val), changed := some s.svc.change }) ∧
      (r.cancel = false → s.ctxOf p r = none → s.freeCtx = none →
        Completes (.signaling p r) s fun t => (t.port p).lastTx = .grant r.kind r.log 0) ∧
      (r.cancel = false → ∀ n g, (s.ctxOf p r = some n ∧ s.grant n = some g) ∨
          (s.ctxOf p r = none ∧ s.freeCtx = some n ∧ g = fresh) →
        let secs := min r.duration s.grantMax; let h := g.withKind r.kind r.log secs
        let legal : Prop := rateLegal r.kind r.log = true ∧ secs ≠ 0 ∧ h.events ≤ 128 ∧
          s.eventLoad - g.events + h.events ≤ 262144
        (legal → Completes (.signaling p r) s fun t => t.grant n = some { h with changed := some s.svc.change } ∧
          (t.port p).lastTx = .grant r.kind r.log secs) ∧
        (¬ legal → Completes (.signaling p r) s fun t => (t.port p).lastTx = .grant r.kind r.log 0 ∧
          t.grant n = s.grant n))) ∧
    (∀ n : Fin 2048, ∀ g, s.grant n = some g →
      Completes (.grantExpiry n) s fun t => t.grant n = some { g with secs := 0, changed := some s.svc.change })

/-- NTP and NTS requests, launches and buckets (R348 to R351, R353, R354, R356). A good request below its rate and the cap
joins the launch queue with its response; one above its rate draws kiss-o'-death where configured; an NTS request whose
cookie does not open draws a NAK; at the cap, damaged, too late or where nothing
serves, it is discarded; a launch sends the response whose instant comes first; each
bucket falls by one. -/
def Obligations.NtpRequestsAreAnswered : Prop :=
  ∀ (p : Fin 4) (q : NtpReq) (n : NtsFields) (s : State),
    let nat (l : List Byte) : List Nat := l.map BitVec.toNat
    let below : Prop := bit (s.scfg 0x10) 0 = false ∨ s.bucket (s.bucketOf q) < s.rlBurst
    let room (k : Nat) : Prop := s.svc.used + k ≤ s.capNow
    let sealOk (k : List Nat) : Prop := Config.sivOpen k (nat n.covered ++ nat n.nonce) (nat n.sealed) ≠ none
    let ready (r : Response) (t : State) (k : Nat) : Prop :=
      t.svc.launch = s.svc.launch ++ [r] ∧ t.svc.used = s.svc.used + k
    let reply := s.ntpReply p q
    (s.ntpReaches p = true → s.standby = false ∨ bit (s.cfg 0x07 0) 7 = true → s.ntpMalformed q = false →
      (bit (s.scfg 0) 0 = true →
        (below → room 1 → q.onTime = true →
          Completes (.ntpRequest p q) s fun t =>
            ready { port := p, launch := reply.2, frame := .ntp reply.1, nts := false } t 1) ∧
        (below → ¬ room 1 → Completes (.ntpRequest p q) s fun t => t.svc.capHit = true ∧ t.svc.launch = s.svc.launch) ∧
        (¬ below → bit (s.scfg 0x10) 1 = true →
          Completes (.ntpRequest p q) s fun t => (t.port p).lastTx = .rate q.transmit)) ∧
      (n.placeholders ≤ 7 → below → room 3 →
        (∀ c2s s2c, bit (s.scfg 0) 1 = true → s.openCookie (nat n.cookie) = some (c2s, s2c) → sealOk c2s →
          q.onTime = true →
          let auth := Config.sivSeal s2c (nat n.uid) (State.newCookies c2s s2c (1 + n.placeholders) s).1
          Completes (.ntsRequest p q n) s fun t =>
            ready { port := p, launch := reply.2, frame := .nts reply.1 (nat n.uid) auth, nts := true } t 3) ∧
        (bit (s.scfg 0) 1 = false ∨ s.openCookie (nat n.cookie) = none →
          Completes (.ntsRequest p q n) s fun t => (t.port p).lastTx = .ntsNak (nat n.uid)))) ∧
    (s.ntpReaches p = false ∨ (s.standby = true ∧ bit (s.cfg 0x07 0) 7 = false) ∨ s.ntpMalformed q = true ∨
        bit (s.scfg 0) 0 = false ∨ ¬ below ∨ q.onTime = false →
      Completes (.ntpRequest p q) s fun t => t.svc.launch = s.svc.launch) ∧
    (s.ntpReaches p = false ∨ (s.standby = true ∧ bit (s.cfg 0x07 0) 7 = false) ∨ s.ntpMalformed q = true ∨
        7 < n.placeholders ∨ ¬ below ∨ ¬ room 3 ∨ q.onTime = false ∨
        (∀ c2s s2c, s.openCookie (nat n.cookie) = some (c2s, s2c) → ¬ sealOk c2s) →
      Completes (.ntsRequest p q n) s fun t => t.svc.launch = s.svc.launch) ∧
    (firstLaunch s.svc.launch = none → Does .launch s s) ∧
    (∀ r, firstLaunch s.svc.launch = some r →
      Completes .launch s fun t => t.svc.launch = s.svc.launch.erase r ∧
        (s.portUp r.port = true → (t.port r.port).lastTx = r.frame)) ∧
    Completes .bucketDecay s (fun t => t.svc.decay = 0 ∧ ∀ b, t.bucket b ≤ s.bucket b - 1 ∧
      ((s.svc.buckets.map (·.1)).count b ≤ 1 → t.bucket b = s.bucket b - 1))

/-- Frames of the packet ports (R336, R337, R339, R341, R342, R357). A good frame for the host that nothing consumes joins
the receive queue, one with a bad FCS does not; ARP requests for an address the controller answers are answered, service
addresses are announced; an ESMC PDU gives its level to the port's candidate, and one is sent with the SSM of the port's
domain; TX_HELD returns to 0 once the transmit synthesiser is locked. -/
def Obligations.PortFramesAreHandled : Prop :=
  ∀ (p : Fin 4) (frame : RxFrame) (ipv6 : Bool) (target : List Byte) (ssm : Nat) (enhanced : Option Nat) (s : State),
    let bs := frame.bytes.map BitVec.toNat; let ip := target.map BitVec.toNat
    (s.portUp p = true →
      (frame.fcsOk = false → Does (.frameReceived p frame) s s) ∧
      (frame.fcsOk = true → ∀ f, s.untag p bs = some f → s.macOk p f = true → s.consumes p f = false →
        (bit (s.pcfg p 0) 8 = true ∨ s.ptpForHost p f = true) → s.rxBytes + bs.length ≤ 65536 →
        Completes (.frameReceived p frame) s fun t => t.svc.rx = s.svc.rx ++ [(p.val, bs)]) ∧
      (s.ctrlRuns = true →
        (s.answersFor p ipv6 ip = true →
          Completes (.arpRequest p ipv6 target) s fun t => (t.port p).lastTx = .arp ip) ∧
        (s.serving = true → ∀ x, ((s.addresses p).filter fun x => x.2.2).getLast? = some x →
          Completes .gratuitousArp s fun t => (t.port p).lastTx = .gratuitous x.2.1) ∧
        Completes (.esmcPdu p ssm enhanced) s (fun t => (t.qual (32 + p)).qlEnh = enhanced.isSome ∧
          (t.qual (32 + p)).esmcAge = 0 ∧ (t.qual (32 + p)).qlTimeout = false ∧
          (t.qual (32 + p)).qlRx = match enhanced with | some e => e % 256 | none => ssm % 16))) ∧
    (s.esmcOn p = true →
      Completes (.esmcInfoPdu p) s fun t => (t.port p).ssm = s.ssmOf p ∧
        (t.port p).lastTx = .esmc (s.ssmOf p) false (s.enhancedOf p)) ∧
    (s.txPlanBad p = false → (s.syn (bits (s.pcfg p 0) 7 4)).state = .locked →
      Completes (.txHeldReturn p) s fun t => (t.port p).txHeld = false) ∧
    (s.txPlanBad p = true ∨ (s.syn (bits (s.pcfg p 0) 7 4)).state ≠ .locked → Does (.txHeldReturn p) s s)

/-- The host frame queues (R340). HQ_RX_DATA answers the next four bytes of the head frame, HQ_RX_POP removes it;
HQ_TX_CTRL starts a frame of a legal length, HQ_TX_DATA adds its next four bytes, and the last word queues it unless a word
found no room. -/
def Obligations.HostQueuesCarryFrames : Prop :=
  ∀ (m : Master) (v : Word) (s : State), let n := bits v 10 0; let p := bits v 13 12
    let top := if bit (s.pcfg p 0) 3 then 1522 else 1518
    (Answers s 0x0C m →
      (s.svc.rx = [] → Completes (.hqRxData m) s fun t => t.sys.reply = [0]) ∧
      (∀ k bs l, s.svc.rx = (k, bs) :: l → let b := slice bs (4 * s.svc.rxWord) 4
        Completes (.hqRxData m) s fun t => t.svc.rxWord = s.svc.rxWord + 1 ∧
          t.sys.reply = [word (beNat (b ++ List.replicate (4 - b.length) 0))])) ∧
    (Ready s 0x0C m →
      (bit v 0 = true → Does (.hqRxPop m v) s (s.setSvc fun x => { x with rx := x.rx.drop 1, rxWord := 0 })) ∧
      Does (.hqTxCtrl m v) s (s.setSvc fun x => { x with
        tx := if 60 ≤ n ∧ n ≤ top then some (n, p, [], false) else none }) ∧
      (s.svc.tx = none → Does (.hqTxData m v) s s) ∧
      (∀ len q bs lost, s.svc.tx = some (len, q, bs, lost) →
        let gone := lost || decide (s.txFree < min 4 (len - bs.length))
        (bs.length + 4 < len →
          Does (.hqTxData m v) s (s.setSvc fun x => { x with tx := some (len, q, bs ++ beBytes 4 v.toNat, gone) })) ∧
        (len ≤ bs.length + 4 →
          Does (.hqTxData m v) s (s.setSvc fun x => { x with
            tx := none
            txQueue := if gone then x.txQueue else x.txQueue ++ [(q, (bs ++ beBytes 4 v.toNat).take len)] }))))

/-- Keys, firmware, rate limits and ports (R355, R358, R360, R361, R366, R475). KEY_INSTALL fills its slot from KEY_DATA
and clears KEY_DATA, KEY_CURRENT makes a slot current, KEY_ERASE empties one; FW_UPDATE begins a verification, whose end
restarts the controller or reports the defect, and at start-up runs it, tries the fallback or leaves it failed; RL_CLEAR empties the buckets; PORT_RESTART drops the link and ends a stop;
the watchdog restarts the controller, and after three restarts in 60 s stops it. -/
def Obligations.ServiceCommandsTakeEffect : Prop :=
  ∀ (m : Master) (image : List Word) (s : State), let a := s.arg 0x0B (masterCode m); let k := bits a 1 0
    let b := s.arg 0x0C (masterCode m); let p := bits b 1 0
    let open_ (u : State) : Prop := (u.page 0x0B).lockCmd = false
    let other (u : State) : Prop := u.svc.keyCur ≠ k
    let valid (u : State) : Prop := (u.keySlot k).valid = true
    let fwMay (u : State) : Prop := (u.pair.role ≠ .active ∨ u.pair.bound = false) ∧
      (u.svc.ctrl = .run ∨ u.svc.ctrl = .failed)
    let id := (s.dir 0x0B 0x914).toNat
    let unused (u : State) : Prop := u.candInUse (32 + p) = false ∧
      ∀ i < 4, u.clientActive i = true → u.clientPort i = p → u.candInUse (36 + i) = false
    let st := tableFrom 0 (image.map BitVec.toNat)
    (Ready s 0x0B m → Idle s 0x0B → open_ s →
      (id ≠ 0 → (∀ j < 4, j ≠ k → (s.keySlot j).valid = true → (s.keySlot j).id ≠ id) → other s →
        Waits (.keyInstall m) s 0x0B m 1 a State.tsvcApply (fun u => open_ u ∧ other u) fun u v =>
          v.keySlot k = { valid := true, id := (u.dir 0x0B 0x914).toNat, key := u.keyBytes } ∧ v.svc.keyData = []) ∧
      (s.standby = false → valid s →
        Waits (.keyCurrent m) s 0x0B m 2 a State.tsvcApply (fun u => open_ u ∧ u.standby = false ∧ valid u)
          fun _ v => v.svc.keyCur = k) ∧
      (valid s → other s →
        Waits (.keyErase m) s 0x0B m 3 a State.tsvcApply (fun u => open_ u ∧ valid u ∧ other u)
          fun _ v => v.keySlot k = KeySlot.zero) ∧
      (a.toNat % 4096 = 0 → s.svc.fwBusy = false → fwMay s →
        Waits (.fwUpdate m) s 0x0B m 4 a State.tsvcApply (fun u => open_ u ∧ fwMay u)
          fun _ v => v.svc.fwBusy = true ∧ v.svc.fwAddr = a.toNat) ∧
      Waits (.rlClear m) s 0x0B m 5 a State.tsvcApply open_ fun _ v => v.svc.buckets = []) ∧
    (Ready s 0x0C m → Idle s 0x0C → (s.page 0x0C).lockCmd = false → unused s →
      Waits (.portRestart m) s 0x0C m 1 b State.portApply (fun u => (u.page 0x0C).lockCmd = false ∧ unused u)
        fun _ v => (v.port p).linkUp = false ∧ (v.port p).svcStop = false) ∧
    (s.serviceOn = true → s.svc.fwBusy = true →
      (s.fwDefect st (4 * image.length) = 0 →
        Completes (.fwVerifyDone image true) s fun t => t.svc.fwBusy = false ∧ t.svc.fwResult = 1 ∧
          t.svc.ctrl = .restart) ∧
      (s.fault.compat = false → s.fwDefect st (4 * image.length) ≠ 0 →
        Completes (.fwVerifyDone image true) s fun t => t.svc.fwBusy = false ∧ t.svc.fwResult = 2 ∧
          t.svc.ctrl = s.svc.ctrl) ∧
      (s.fault.compat = false →
        Completes (.fwVerifyDone image false) s fun t => t.svc.fwBusy = false ∧ t.svc.fwResult = 2)) ∧
    (s.serviceOn = true → s.svc.fwBusy = false → s.boot.fwTry ≠ 0 →
      (s.fwDefect st (4 * image.length) = 0 →
        Completes (.fwVerifyDone image true) s fun t => t.svc.ctrl = .run ∧ t.boot.fw = s.boot.fwTry ∧ t.boot.fwTry = 0) ∧
      (s.fault.compat = false → ∀ ok, ok = false ∨ s.fwDefect st (4 * image.length) ≠ 0 →
        Completes (.fwVerifyDone image ok) s fun t =>
          (s.boot.fwTry = 1 → t.boot.fwTry = 2 ∧ t.svc.ctrl = s.svc.ctrl) ∧
          (s.boot.fwTry ≠ 1 → t.boot.fw = 3 ∧ t.boot.fwTry = 0 ∧ t.svc.ctrl = .failed))) ∧
    (s.serviceOn = false ∨ (s.svc.fwBusy = false ∧ s.boot.fwTry = 0) → ∀ ok, Does (.fwVerifyDone image ok) s s) ∧
    (s.ctrlRuns = true → s.fault.compat = false →
      Completes .tsvcCtrlWdog s fun t =>
        t.svc.ctrl = (if 3 ≤ (s.svc.restarts.filter (· < watchRounds)).length then .failed else .restart)) ∧
    (s.svc.ctrl = .restart → Completes .ctrlRestartDone s fun t => t.svc.ctrl = .run ∧ t.svc.restartLeft = 0)

/-- Budget events (R369 to R376, R380). The latch of a round takes the estimate into the average and decides the level of
the next round from the thermal, supply and energy levels and OPER; a completed hold steps a level down; the throttle
follows VDD_CORE; a rail that has fallen below its limit is recorded, with the supply level 3, the stop of every port or the
held bank where the rail has one; a rail below its brown-out level resets the device; a tripped sensor is recorded. -/
def Obligations.BudgetEventsTakeEffect : Prop :=
  ∀ (env : BudgetEnv) (mv : Nat) (r : Fin 10) (i : Fin 8) (s : State), let b := s.budget
    let decided (t : State) : Prop := t.budget.next = if s.board.v3Forced then 3
      else max (max t.budget.lt t.budget.ls) (max t.budget.le (bits (s.cfg 0x02 0xC) 1 0))
    let u := if r = 0 then s.setVdd mv else s.rail r mv
    let noted (k : Nat) (t : State) : Prop := (t.page 0x02).fault.getLsbD k = true
    (s.roundsRun = true →
      (s.fault.compat = false → Completes (.budgetLatch env) s fun t => decided t ∧ t.budget.pEst = env.pEst ∧
        t.budget.pAvg = b.pAvg + floorDiv (env.pEst - b.pAvg) (2 ^ s.energyShift : Nat)) ∧
      Completes .budgetHoldExpiry s (fun t => decided t ∧
        (0 < b.lt → 0 < b.cool → t.budget.lt = b.lt - 1) ∧
        (b.ls = 3 → 0 < b.calm → s.sagHi ≤ s.railNow 0 → t.budget.ls = 0))) ∧
    (s.boot.released = true →
      (brownMv 0 ≤ mv → Completes (.sag mv) s (fun t => t.railNow 0 = mv ∧ t.budget.fCell = s.cellClock mv ∧
        t.budget.throttle = decide (s.cellClock mv < mhz 800))) ∧
      (mv < brownMv 0 → Completes (.sag mv) s fun t => t.boot.cause = 2 ∧ t.boot.released = false) ∧
      (mv < brownMv r → Completes (.supplyFault r mv) s fun t => t.boot.cause = 2 ∧ t.boot.released = false) ∧
      (s.fault.compat = false → brownMv r ≤ mv →
        (r = 0 → mv < (if s.inV3 then 670 else 690) →
          Reports (.supplyFault r mv) s u ∧ Completes (.supplyFault r mv) s (noted 1)) ∧
        (r = 0 → (if s.inV3 then 670 else 690) ≤ mv → mv < s.sagLo →
          Completes (.supplyFault r mv) s fun t => t.budget.ls = 3 ∧ t.railNow 0 = mv ∧ noted 0 t) ∧
        (∀ k, (r = 1 ∧ mv < 740 ∧ k = 2) ∨ (r = 3 ∧ mv < 1710 ∧ k = 3) ∨ (r = 4 ∧ mv < 1620 ∧ k = 4) →
          Reports (.supplyFault r mv) s u ∧ Completes (.supplyFault r mv) s (noted k)) ∧
        (r = 2 → mv < 850 → Completes (.supplyFault r mv) s fun t => noted 5 t ∧ ∀ p < 4, (t.port p).svcStop = true) ∧
        (4 < r.val → 10 * mv < 9 * s.bankMv (r.val - 5) →
          Completes (.supplyFault r mv) s fun t => t.railNow r = mv ∧
            (t.page (0x90 + 8 * (r.val - 5))).fault.getLsbD 3 = true ∧ ∀ j < 8, (t.out (8 * (r.val - 5) + j)).held = true)) ∧
      (s.fault.compat = false → Completes (.thermTrip i) s fun t => (t.temp i).hot = 9 ∧ noted 6 t) ∧
      ((r = 0 ∧ s.sagLo ≤ mv ∧ (if s.inV3 then 670 else 690) ≤ mv) ∨ (r = 1 ∧ 740 ≤ mv) ∨ (r = 2 ∧ 850 ≤ mv) ∨
          (r = 3 ∧ 1710 ≤ mv) ∨ (r = 4 ∧ 1620 ≤ mv) ∨ (4 < r.val ∧ 9 * s.bankMv (r.val - 5) ≤ 10 * mv) →
        Does (.supplyFault r mv) s u))

/-- BUDGET commands (R368, R377, R506). DORMANT, from SOLO with every domain INIT and every output OFF, stops the islands at
its boundary; WAKE brings the device back to the stamp-clock lock at once. -/
def Obligations.BudgetCommandsTakeEffect : Prop :=
  ∀ (m : Master) (s : State), let a := s.arg 0x02 (masterCode m)
    let quiet (u : State) : Prop := (u.page 0x02).lockCmd = false ∧ u.pair.role = .solo ∧
      (u.budget.pstate = .run ∨ u.budget.pstate = .reduced) ∧ u.allInit = true ∧ (∀ j < 40, (u.out j).state = .off) ∧
      u.board.bookState ≠ .verifying ∧ u.board.bookState ≠ .activating
    Ready s 0x02 m → Idle s 0x02 →
    (quiet s →
      Waits (.dormant m) s 0x02 m 1 a State.budgetApply quiet fun _ v => v.budget.pstate = .dormant ∧
        v.osc.running = false ∧ v.board.state = .noBook ∧ v.links = [] ∧ ∀ ch, (v.chan ch).state = .off) ∧
    (s.budget.pstate = .dormant →
      Carries (.wake m) s 0x02 m 2 ((((s.setOsc fun o => { o with wakeSwap := true }).setBoot fun b => { b with
        wake := true, probed := false, bookTry := 0, fwTry := 0, imgNext := 0, imgCount := 0, imgCmd := none })).setBudget
          fun b => { b with pstate := .run }))

/-- SPI frames (R384 to R387). A good WRITE frame writes its words in order as master 1 and counts; a damaged one writes
nothing and says why; a good READ frame answers the words, each behind its marker, then STATUS and CRC-8; a STATUS frame is
always answered; a good GWRITE frame writes the word and its complement to GUARD; an unknown opcode is only counted. -/
def Obligations.SpiFramesAct : Prop :=
  ∀ (bytes : List Byte) (s : State), let bs := bytes.map BitVec.toNat; let c := (bs[5]?).getD 0; let n := countOf c
    let addrs := frameAddrs (frameAddr bs) n (fixedOf c); let a := frameAddr bs; let v := word (beNat (slice bs 5 4))
    let u := ((s.bump 0x00 0xA00).misoIs (List.replicate bs.length 0)).access 1
    let done (u : State) : State := u.setSys fun x => { x with
      spiApplied := true, spiCrc := false, spiLen := false, spiCount := (x.spiCount + 1) % 16 }
    let failed (len : Bool) : State := (s.misoIs (List.replicate bs.length 0)).setSys fun x => { x with
      spiApplied := false, spiCrc := !crcOk bs, spiLen := !len }
    let answer (st : Nat) : State := s.misoIs [st, crc8 [st]]
    s.boot.released = true →
    (bs.head? = some 0x02 →
      (crcOk bs = true → bs.length = 7 + 4 * n →
        Does (.spiWrite bytes) s (done (u.writeMany 1 (addrs.zip (frameWords bs 6 n))))) ∧
      (crcOk bs = false ∨ bs.length ≠ 7 + 4 * n →
        Does (.spiWrite bytes) s (failed (decide (bs.length = 7 + 4 * n))))) ∧
    (bs.head? = some 0x03 →
      (7 ≤ bs.length → crcOk (bs.take 7) = true →
        let r := State.readMany 1 addrs u; let st := r.2.sys.spiStatus false
        let data := r.1.flatMap fun w => beBytes 4 w.toNat
        Completes (.spiRead bytes) s fun t => t.sys.reply = r.1 ∧
          t.sys.miso = (r.1.flatMap fun w => 0x5A :: beBytes 4 w.toNat) ++ [st, crc8 (data ++ [st])]) ∧
      (bs.length < 7 ∨ crcOk (bs.take 7) = false →
        Does (.spiRead bytes) s (s.misoIs [0xC3, s.sys.spiStatus true]))) ∧
    (bs.head? = some 0x05 →
      (2 ≤ bs.length → crcOk (bs.take 2) = true → Does (.spiStatus bytes) s (answer (s.sys.spiStatus false))) ∧
      (bs.length < 2 ∨ crcOk (bs.take 2) = false → Does (.spiStatus bytes) s (answer (s.sys.spiStatus true)))) ∧
    (bs.head? = some 0x06 →
      (crcOk bs = true → bs.length = 10 → ∀ g, guardAddr a = some g →
        Does (.gwrite bytes) s (done ((u.writeAt 1 a v).writeAt 1 g (~~~v)))) ∧
      (crcOk bs = false ∨ bs.length ≠ 10 → Does (.gwrite bytes) s (failed (decide (bs.length = 10))))) ∧
    (bs ≠ [] → (∀ k ∈ [0x02, 0x03, 0x05, 0x06], bs.head? ≠ some k) →
      Does (.spiUnknownOpcode bytes) s (s.misoIs (List.replicate bs.length 0)) ∧
      (s.nv.ctrDue = false → Completes (.spiUnknownOpcode bytes) s fun t =>
        t.counter 0x00 0xA08 = (s.counter 0x00 0xA08 + 1) % 2 ^ 64))

/-- PCIe and the test port (R381, R382, R406, R471, R484). Requests act on the window while PERST_N is high; the link comes
up as Gen 3 x2 and goes down; PERST_N low takes the link and MSI down; configuration requests draw Retry Status until
start-up has read SUBSYS, then their words; the test port takes instructions that the debug level allows, else BYPASS, and
reads and writes as master 2. -/
def Obligations.LinksAndTestPortAct : Prop :=
  ∀ (q : PcieReq) (up : Bool) (dw addr : Nat) (ir : TapIr) (v : Word) (s : State), let o := q.offset / 4 * 4
    (s.boot.released = true → s.sys.perst = false →
      (∀ l, q.writes = some l → Does (.pcieRequest q) s (s.pcieWrites o l)) ∧
      (q.writes = none → Completes (.pcieRequest q) s fun t => t.sys.reply = (State.pcieReads o q.count s).1) ∧
      (s.sys.pcieUp ≠ up →
        Does (.pcieLinkChange up) s (s.setSys fun x => { x with
          pcieUp := up, pcieSpeed := if up then 3 else 0, pcieWidth := if up then 2 else 0 })) ∧
      (s.sys.cfgReady = false →
        Does (.pcieConfigRequest (.read dw)) s (s.setSys fun x => { x with cfgReply := 0, reply := [] }) ∧
        Does (.pcieConfigRequest (.msiEnable up)) s (s.setSys fun x => { x with cfgReply := 0, reply := [] })) ∧
      (s.sys.cfgReady = true →
        Completes (.pcieConfigRequest (.read dw)) s (fun t => t.sys.cfgReply = 1 ∧ t.sys.reply = [s.cfgDw dw]) ∧
        Does (.pcieConfigRequest (.msiEnable up)) s (s.setSys fun x => { x with cfgReply := 1, msiEnable := up }))) ∧
    (s.boot.released = false ∨ s.sys.perst = true →
      Does (.pcieRequest q) s s ∧ Does (.pcieConfigRequest (.read dw)) s s ∧ Does (.pcieLinkChange true) s s) ∧
    s.cfgDw 0 = 0x32401F3D ∧ s.cfgDw 2 = 0x088000B1 ∧
    Completes (.perstN true) s (fun t => t.sys.perst = true ∧ t.sys.pcieUp = false ∧ t.sys.msiEnable = false) ∧
    Does (.perstN false) s (s.setSys fun x => { x with perst := false }) ∧
    (s.tapAllowed ir = true → tapDrives ir = false ∨ s.sec.tap = ir ∨ s.scanFree = true →
      Completes (.tapInstruction (.instruction ir)) s fun t => t.sec.tap = ir ∧
        (ir = .idcode → t.sys.reply = [0x132409CB])) ∧
    (s.tapAllowed ir = false → Completes (.tapInstruction (.instruction ir)) s fun t => t.sec.tap = .bypass) ∧
    Completes (.tapInstruction (.read addr)) s (fun t => t.sys.reply = [(s.readAt 2 addr).1]) ∧
    Does (.tapInstruction (.write addr v)) s (s.writeAt 2 addr v)

/-- Register writes (R14, R388, R394, R397, R400, R404). EVENT and PAGE_FAULT bits clear where 1 is written; EVENT_EN is
stored; a shadow register takes its bits unless the page lock covers it; CMD_ARG is stored; a plain direct control takes its
bits unless locked; the active set, read-only registers of the first 256 bytes and absent pages ignore the write. -/
def Obligations.RegisterWritesAct : Prop :=
  ∀ (m : Master) (page : Fin 256) (off : Fin 4096) (v : Word) (s : State), let p := page.val; let k := pageKind p
    let o := off.val; let a := p * 0x1000 + (o - 0x400); let c := Instr.registerWrite m page off v
    let locked : Prop := (s.page p).lockCfg = true
    Ready s p m → o % 4 = 0 →
    (k = .none → Does c s s) ∧
    (k ≠ .none →
      (s.nv.ctrDue = false →
        (o = 0x00C → Completes c s fun t => (t.page p).event = (s.page p).event &&& ~~~v) ∧
        (o = 0x014 → Completes c s fun t => (t.page p).fault = (s.page p).fault &&& ~~~v)) ∧
      (o = 0x008 → Does c s (s.setPage p fun g => { g with evtIrqEn := bit v 0 })) ∧
      (o = 0x010 → Does c s (s.setPage p fun g => { g with eventEn := v })) ∧
      (0x100 ≤ o → o < 0x500 → Does c s s) ∧
      (0x020 ≤ o → o < 0x100 → k ≠ .tim → Does c s s) ∧
      (0x500 ≤ o → o < 0x900 → k ≠ .irq → (cfgAt a).mask ≠ 0 →
        (¬ locked ∨ (cfgAt a).lck = 0 → Does c s (s.setShadow a v)) ∧
        (locked → (cfgAt a).lck ≠ 0 → Does c s s)) ∧
      (o = 0x90C → k ≠ .osc → Does c s (s.setArg p (masterCode m) v)) ∧
      (0x914 ≤ o → o < 0xA00 → k ∉ [.time, .irq, .sched, .tsvc, .ports, .fault, .nv, .osc] →
        (¬ locked ∨ (dirReg k o).lck = 0 → Does c s (s.setDir p o v)) ∧
        (locked → (dirReg k o).lck ≠ 0 → Does c s s)))

/-- Guarded writes (R392, R393, R476). A guarded value is staged; its complement in GUARD makes it act, another word or its
1 µs discards it. PAGE_LOCK so written is proposed, and countersigned by another party it sets both locks, or shows why it
was refused; a guarded command is issued; AGE_ADJ and FORCE_EN take their values, but not on a locked page. -/
def Obligations.GuardedWritesAct : Prop :=
  ∀ (m : Master) (page : Fin 256) (off : Fin 4096) (v : Word) (g : Staged) (s : State), let p := page.val
    let k := masterCode m; let w := g.value; let kind := pageKind p
    let open_ : Prop := s.boot.released = true ∧ s.mayAccess k true = true ∧ s.reaches p = true ∧ kind ≠ .none
    let result (r : Nat) : Prop := Does (.guard_ m page v) s ((s.setStaged k none).setPage p fun x => { x with
      lockResult := r })
    (Ready s p m → kind ≠ .none → isGuarded kind off v = true →
      Does (.guardedWrite m page off v) s (s.setStaged k (some { page := p, off, value := v }))) ∧
    (s.stagedOf k = some g →
      Does (.guardFail m) s (s.setStaged k none) ∧
      (open_ → v ≠ ~~~w ∨ g.page ≠ p → Does (.guard_ m page v) s (s.setStaged k none)) ∧
      (open_ → g.page = p → v = ~~~w →
        (g.off = 0x01C → bits w 31 16 ≠ 0 → s.noParty k = false →
          ((s.page p).lockProp = none → (s.page p).prop = none → s.sec.fuseBad = false →
            Completes (.guard_ m page v) s fun t => (t.page p).lockResult = 0 ∧
              (t.page p).lockProp = some { master := k, code := 0, arg := w, data := [], age := 0 }) ∧
          (∀ q, (s.page p).lockProp = some q → q.master ≠ k → q.arg = w →
            Completes (.guard_ m page v) s fun t => (t.page p).lockResult = 0 ∧ (t.page p).lockProp = none ∧
              (t.page p).lockCfg = bit w 0 ∧ (t.page p).lockCmd = bit w 1)) ∧
        (g.off = 0x01C →
          (bits w 31 16 = 0 → result 2) ∧
          (bits w 31 16 ≠ 0 → s.noParty k = true → result 6) ∧
          (bits w 31 16 ≠ 0 → s.noParty k = false →
            (∀ q, (s.page p).lockProp = some q →
              (q.master = k → result 6) ∧ (q.master ≠ k → q.arg ≠ w → result 2)) ∧
            ((s.page p).lockProp = none →
              (∀ q, (s.page p).prop = some q → result (if q.master = k then 6 else 2)) ∧
              ((s.page p).prop = none → s.sec.fuseBad = true → result 1)))) ∧
        (g.off = 0x908 → Does (.guard_ m page v) s ((s.setStaged k none).issue k p w.toNat)) ∧
        ((s.page p).lockCfg = true → g.off ≠ 0x01C → g.off ≠ 0x908 →
          Does (.guard_ m page v) s (s.setStaged k none)) ∧
        ((s.page p).lockCfg = false →
          (g.off = 0x934 → Does (.guard_ m page v) s ((s.setStaged k none).setFault fun f => { f with
            forceEn := bit w 0 })) ∧
          (g.off = 0x914 → Does (.guard_ m page v) s ((s.setStaged k none).setDir p 0x914
            (sword (iclamp (signed 24 w.toNat) (-5000000) 5000000)))))))

/-- Aliases, reads, unknown commands and lost accesses (R391, R396, R400, R401, R403). A write of a bit alias sets or clears
one bit of EVENT_EN or EVT_CTRL, clears one of EVENT or PAGE_FAULT, forces one source, and is turned away from PAGE_LOCK; a read answers the register, or the held copy of a word whose origin was read last, and a read of an
origin holds its group; an unknown code draws REFUSED_ARG and changes nothing else; a timed-out read returns 0. -/
def Obligations.OtherAccessesAct : Prop :=
  ∀ (m : Master) (page : Fin 256) (off : Fin 4096) (b : Fin 32) (v : Word) (addr : Nat) (s : State), let p := page.val
    let k := masterCode m; let o := off.val; let one := word (2 ^ b.val)
    (Ready s p m → pageKind p ≠ .none →
      Does (.aliasWrite m (aliasAddr p 0x010 b) v) s (s.setPage p fun g => { g with
        eventEn := if bit v 0 then g.eventEn ||| one else g.eventEn &&& ~~~one }) ∧
      Does (.aliasWrite m (aliasAddr p 0x008 b) v) s (s.setPage p fun g => { g with
        evtIrqEn := if b.val = 0 then bit v 0 else g.evtIrqEn }) ∧
      Does (.aliasWrite m (aliasAddr p 0x01C b) v) s s ∧
      (bit v 0 = false → ∀ x ∈ [0x00C, 0x014, 0x018], Does (.aliasWrite m (aliasAddr p x b) v) s s) ∧
      (bit v 0 = true →
        (s.nv.ctrDue = false →
          Completes (.aliasWrite m (aliasAddr p 0x00C b) v) s (fun t => (t.page p).event = (s.page p).event &&& ~~~one) ∧
          Completes (.aliasWrite m (aliasAddr p 0x014 b) v) s fun t => (t.page p).fault = (s.page p).fault &&& ~~~one) ∧
        (s.forceOpen = false ∨ hasSource p b = false → Does (.aliasWrite m (aliasAddr p 0x018 b) v) s s) ∧
        (s.forceOpen = true → hasSource p b = true →
          Completes (.aliasWrite m (aliasAddr p 0x018 b) v) s fun t => (t.page p).fault.getLsbD b = true)) ∧
      (pageKind p ≠ .osc → v.toNat ∉ commandCodes (pageKind p) →
        Completes (.cmdUnknown m page v) s fun t => Safety.Same s t [p] ∧
          t.cmdStatus p k = { result := 2, code := v.toNat % 256, seq := ((s.page p).seq + 1) % 32768, done := false })) ∧
    (Answers s p m → o % 4 = 0 → ¬ (pageKind p = .irq ∧ o = 0x914) → ¬ (pageKind p = .ports ∧ o = 0x918) →
      (∀ w, s.heldWord p k o = some w → Completes (.snapshotRead m page off) s fun t => t.sys.reply = [w]) ∧
      (s.heldWord p k o = none → Completes (.snapshotRead m page off) s fun t => t.sys.reply = [s.regValue k p o] ∧
        ∀ x ∈ snapGroup (pageKind p) o, t.heldWord p k x = some (s.regValue k p x))) ∧
    (s.boot.released = true → s.mayAccess k false = true →
      Completes (.bridgeTimeout m addr none) s fun t => t.sys.reply = [0] ∧ (t.page 0x00).fault.getLsbD 5 = true) ∧
    (s.boot.released = true → s.mayAccess k true = true →
      Completes (.bridgeTimeout m addr (some v)) s fun t => (t.page 0x00).fault.getLsbD 5 = true)

/-- Configuration sets (R394, R397 to R399). SWAP_SETS waits with SWAP_AT: untimed it brings an exchange at its boundary,
timed it arms; SWAP_CANCEL disarms at once; COPY_SETS brings a copy. An exchange swaps every register of the two sets, and a
copy takes the active set into the shadow set, but for the locked registers of locked pages. -/
def Obligations.SetCommandsTakeEffect : Prop :=
  ∀ (m : Master) (n : Nat) (s : State), let a := s.arg 0x00 (masterCode m); let at_ := s.swapAt
    let word_ (i : Nat) : Nat := ((at_[i]?).getD 0).toNat
    let armed : TimedSwap :=
      { dom := bits a 2 1, utc := bit a 3, sec := word_ 1 % 65536 * 2 ^ 32 + word_ 0, ns := word_ 2 }
    let free (u : State) : Prop := u.swapWaits = false ∧ u.sys.copyPend = false
    let locked (k : Nat) : Prop := (s.page (k / 0x1000)).lockCfg = true ∧ (cfgAt k).lck ≠ 0
    (Ready s 0x00 m → Idle s 0x00 →
      (free s → s.dormant = false →
        Waits (.swapSets m) s 0x00 m 1 (a &&& ~~~(1 : Word)) (fun u => u.sysApply.1) (fun u => u.dormant = false)
          (fun u _ => u.sysApply.2 = (true, false)) at_ ∧
        ((s.dir 0x00 0x91C).toNat < 1000000000 →
          Waits (.swapSetsTimed m) s 0x00 m 1 (a ||| 1) (fun u => u.sysApply.1) (fun u => u.dormant = false)
            (fun u v => u.sysApply.2 = (false, false) ∧ v.sys.timed = some armed) at_) ∧
        ((s.page 0x00).lockCmd = false →
          Waits (.copySets m) s 0x00 m 3 a (fun u => u.sysApply.1)
            (fun u => u.dormant = false ∧ (u.page 0x00).lockCmd = false)
            (fun u _ => u.sysApply.2 = (false, true)) at_)) ∧
      (s.sys.timed.isSome = true →
        Carries (.swapCancel m) s 0x00 m 2 (s.setSys fun x => { x with timed := none, swapPend := false }))) ∧
    ∀ k,
      (¬ locked k → tget cfgReset (s.swapNow n).active k = tget cfgReset s.shadow k ∧
        tget cfgReset (s.swapNow n).shadow k = tget cfgReset s.active k ∧
        tget cfgReset s.copyNow.shadow k = tget cfgReset s.active k) ∧
      (locked k → tget cfgReset (s.swapNow n).active k = tget cfgReset s.active k ∧
        tget cfgReset (s.swapNow n).shadow k = tget cfgReset s.shadow k ∧
        tget cfgReset s.copyNow.shadow k = tget cfgReset s.shadow k) ∧
      tget cfgReset s.copyNow.active k = tget cfgReset s.active k

/-- SYS RESET (R407, R484, R488). RESET_FULL is a POR: the device waits for the release of its internal reset with both
sets at Reset, the NV store, the lifecycle state and the protected store kept; RESET_ISLANDS resets every island but the
always-on one, and start-up resumes; RESET_SERVICE resets the service island alone. -/
def Obligations.ResetCommandsTakeEffect : Prop :=
  ∀ (m : Master) (s : State), Ready s 0x00 m → Idle s 0x00 → (s.page 0x00).lockCmd = false →
    Completes (.resetFull m) s (fun t => t.boot.released = false ∧ t.boot.started = false ∧ t.boot.cause = 3 ∧
      t.active = [] ∧ t.shadow = [] ∧ t.direct = [] ∧ t.nv.mem = s.nv.mem ∧ t.nv.bp = s.nv.bp ∧ t.sec.lc = s.sec.lc ∧
      t.sec.keys = s.sec.keys ∧ t.sec.binding = s.sec.binding ∧ t.budget.pstate = .inReset ∧
      (∀ d, t.dom d = State.reset.dom d) ∧ ∀ j, t.out j = State.reset.out j) ∧
    Completes (.resetIslands m) s (fun t => t.boot.started = true ∧ t.boot.cause = 4 ∧ t.osc.running = false ∧
      t.board.state = .noBook ∧ t.sec.lc = s.sec.lc ∧ t.budget.pstate = .run ∧ (∀ d, t.dom d = State.reset.dom d) ∧
      (∀ ch, (t.chan ch).state = .off) ∧ (∀ j, (t.out j).state = .off) ∧
      ∀ k, tget cfgReset t.active k =
        if keptPage (k / 0x1000) then tget cfgReset s.active k else cfgReset k) ∧
    (s.packetInUse = false →
      Completes (.resetService m) s fun t => t.boot.cause = 8 ∧ t.svc.ctrl = .boot ∧ t.svc.keys = [] ∧ t.svc.rx = [] ∧
        t.svc.grants = [] ∧ (∀ p, (t.port p).linkUp = false) ∧ (∀ d, (t.dom d).state = (s.dom d).state) ∧
        ∀ k, tget cfgReset t.active k =
          if k / 0x1000 = 0x0B ∨ k / 0x1000 = 0x0C then cfgReset k else tget cfgReset s.active k)

/-- Interrupts (R409 to R413, R415, R417). CLAIM by a host answers its eligible source of highest PRIO, then number, and
takes it into service, or 0; COMPLETE of a number in service ends it; SW_SET latches its sources; TGT_CTRL is stored;
fallback moves a source whose target sleeps to the other. -/
def Obligations.InterruptCommandsTakeEffect : Prop :=
  ∀ (v : Word) (n : Fin 256) (m : Master) (s : State), let k := bits v 7 0
    let c := s.nextIrq false; let g := s.nextIrq true
    (Answers s 0x04 m → masterCode m = 0 → c ≠ 0 →
      Completes (.claim m) s fun t => t.sys.reply = [pack [(c, 0), (s.prio c, 8)]] ∧
        t.irq.insvcC = s.irq.insvcC ++ [c] ∧ t.irq.insvcG = s.irq.insvcG) ∧
    (Answers s 0x04 m → masterCode m = 1 → g ≠ 0 →
      Completes (.claim m) s fun t => t.sys.reply = [pack [(g, 0), (s.prio g, 8)]] ∧
        t.irq.insvcG = s.irq.insvcG ++ [g] ∧ t.irq.insvcC = s.irq.insvcC) ∧
    (Answers s 0x04 m → (masterCode m = 0 ∧ c = 0) ∨ (masterCode m = 1 ∧ g = 0) ∨ 2 ≤ masterCode m →
      Completes (.claim m) s fun t => t.sys.reply = [0] ∧ t.irq.insvcC = s.irq.insvcC ∧ t.irq.insvcG = s.irq.insvcG) ∧
    (Ready s 0x04 m →
      (masterCode m = 0 → s.irq.insvcC.contains k = true →
        Completes (.complete m v) s fun t => t.irq.insvcC = s.irq.insvcC.filter (· != k) ∧
          t.irq.insvcG = s.irq.insvcG) ∧
      (masterCode m = 1 → s.irq.insvcG.contains k = true →
        Completes (.complete m v) s fun t => t.irq.insvcG = s.irq.insvcG.filter (· != k) ∧
          t.irq.insvcC = s.irq.insvcC) ∧
      ((masterCode m = 0 ∧ s.irq.insvcC.contains k = false) ∨ (masterCode m = 1 ∧ s.irq.insvcG.contains k = false) ∨
          2 ≤ masterCode m →
        Completes (.complete m v) s fun t => t.irq.insvcC = s.irq.insvcC ∧ t.irq.insvcG = s.irq.insvcG) ∧
      Completes (.swSet m v) s (fun t => ∀ i < 8, bit v i = true → t.irq.latched.contains (248 + i) = true) ∧
      Does (.tgtCtrl m v) s (s.setDir 0x04 0x924 v)) ∧
    (s.mayMove n = true → Completes (.fallback n) s fun t => t.irq.moved.contains n.val = true)

/-- What a claim takes (R411, R412): an eligible source of the target, above its threshold and its in-service level, and no
other eligible source has a higher priority, nor the same priority and a higher number. -/
def Obligations.ClaimTakesHighest : Prop :=
  ∀ (g : Bool) (s : State), s.nextIrq g ≠ 0 → let c := s.nextIrq g
    c ∈ s.eligible g ∧ s.thresh g < s.prio c ∧ s.isl g < s.prio c ∧
      ∀ n ∈ s.eligible g, s.prio n < s.prio c ∨ (s.prio n = s.prio c ∧ n ≤ c)

/-- Fault events (R408, R418, R422, R427, R430, R431, R437). A source that reports, by itself or forced where force bits are
accepted, sets its PAGE_FAULT bit, and one of class F raises FATAL on both targets; an uncorrectable shared word reports as the
ECC source of the block that owns it; U_ACK frees the slot of the fault it
names; a window that ends without it escalates, which raises FATAL; REC_RELEASE drops the shown record. -/
def Obligations.FaultEventsTakeEffect : Prop :=
  ∀ (m : Master) (page : Fin 256) (b : Fin 32) (unit : Fin 256) (i : Fin 16) (detail v : Word) (s : State),
    let cls := faultClass (pageKind page) page b; let sel := s.dir 0x03 0x918
    let shows (t : State) : Prop := (t.page page).fault.getLsbD b = true ∧
      (cls = some 2 → t.irq.fatalC = true ∧ t.irq.fatalG = true)
    (hasSource page b = true →
      (s.boot.released = true → ¬ (page.val = 0x01 ∧ b.val = 4) → Completes (.faultEvent page b unit detail) s shows) ∧
      (Ready s page m → s.forceOpen = true → Completes (.pageForce m page (word (2 ^ b.val))) s shows)) ∧
    (s.boot.released = true → page.val = 0x01 → b.val = 4 → let r := (s.sharedUncorr (detail.toNat % 65536)).2
      Completes (.faultEvent page b unit detail) s fun t => (r = none → shows t) ∧
        ∀ p k, r = some (p, k) → (t.page p).fault.getLsbD k = true) ∧
    (s.boot.released = false ∨ hasSource page b = false → Does (.faultEvent page b unit detail) s s) ∧
    (s.forceOpen = false → Ready s page m → Does (.pageForce m page v) s s) ∧
    (s.forceOpen = true → Ready s page m → (∀ k : Fin 32, bit v k = true → hasSource page k = false) →
      Does (.pageForce m page v) s s) ∧
    (∀ x, s.fault.slot i = some x →
      Completes (.checkWindowEnd i) s fun t => t.irq.fatalC = true ∧ t.irq.fatalG = true) ∧
    (Ready s 0x03 m →
      (s.fault.compat = false → s.fault.slotOf (identityBits v.toNat) = some i.val → s.nv.ctrDue = false →
        Completes (.uAck m v) s fun t => t.fault.slot i = none ∧
          ∀ j : Fin 16, j ≠ i → t.fault.slot j = s.fault.slot j) ∧
      (s.fault.slotOf (identityBits v.toNat) = none ∨ s.fault.compat = true → Does (.uAck m v) s s) ∧
      (bit v 0 = true → s.nv.ctrDue = false →
        (bit sel 8 = true →
          Completes (.recRelease m v) s fun t => t.fault.queue = s.fault.queue.drop 1) ∧
        (bit sel 8 = false →
          Completes (.recRelease m v) s fun t => t.fault.capture (bits sel 7 0) = none)))

/-- FAULT commands and the sweep (R434, R439 to R441, R443). F_ACK clears the SAFE cause that it names; BIST holds every
output and stops the rounds, and its end reports and resets the islands; SWEEP_RESTART is taken; a slot begins with the
next step, which waits while none may start, is over at once without an eligible unit or with a test that needs no
command, and else issues its command; a refused one is tried again; a late cycle is noted. -/
def Obligations.SweepAndBistTakeEffect : Prop :=
  ∀ (m : Master) (failType : Option Nat) (s : State), let a := s.arg 0x03 (masterCode m); let d := bits a 27 24
    let id := bits a 23 0; let f := s.fault
    let standing (u : State) : Prop := u.faultHolds id = false
    let quiet (u : State) : Prop := (u.pair.role = .solo ∧ u.allInit = true) ∨ u.pair.role = .standby
    let start := s.setFault fun f => { f with
      sweepStep := if f.sweepLen == 0 || f.sweepRestart || f.sweepStep == 126 then 0 else f.sweepStep + 1 }
    let issued (n : Nat) (t : State) : Prop := let o := s.sweepOrder n
      let legal : Prop := (s.sweepChecks n o.2.1 (word o.2.2)).result = 0
      (s.sweepEligible n = false ∨ 119 ≤ n → t.fault.sweepDone = true ∧ t.fault.sweepBusy = false) ∧
      (s.sweepEligible n = true → n < 119 →
        (legal → t.fault.sweepBusy = true ∧ t.busy o.1 = true) ∧
        (¬ legal → t.fault.sweepBusy = false ∧ t.fault.sweepRetry = 8000))
    (Ready s 0x03 m → Idle s 0x03 →
      (f.cause d = some id → standing s →
        Waits (.fAck m) s 0x03 m 1 a State.faultApply standing fun _ v => v.fault.cause d = none) ∧
      (f.bist = false → quiet s →
        Waits (.bist m) s 0x03 m 2 a State.faultApply quiet fun _ v => v.fault.bist = true ∧ v.roundsRun = false ∧
          ∀ j < 40, (v.out j).held = true) ∧
      (let may (u : State) : Prop := (u.page 0x03).lockCmd = false ∧ u.sweepEn = true
       may s → Waits (.sweepRestart m) s 0x03 m 3 a State.faultApply may fun _ v => v.fault.sweepRestart = true)) ∧
    (f.bist = true →
      Completes (.bistEnd failType) s fun t => t.fault.bist = false ∧ t.fault.bistResult = (if failType.isSome then 2 else 1) ∧
        t.fault.bistType = failType.getD 0 % 65536 ∧ t.osc.running = false ∧ t.boot.cause = 5) ∧
    (s.sweepEn = true → s.roundsRun = true →
      Completes .sweepStep s (fun t => t.fault.sweepStep = start.fault.sweepStep ∧ t.fault.sweepRestart = false ∧
        t.fault.sweepRounds = 0 ∧
        (s.sweepBlocked = true → t.fault.sweepWait = true) ∧
        (s.sweepBlocked = false → issued start.fault.sweepStep t)) ∧
      (f.sweepLen ≠ 0 → f.sweepBusy = false → f.sweepDone = false → f.sweepWait = false →
        (s.sweepBlocked = true → Does .sweepRetry s (s.setFault fun f => { f with sweepWait := true })) ∧
        (s.sweepBlocked = false → Completes .sweepRetry s fun t => t.fault.sweepStep = f.sweepStep ∧
          issued f.sweepStep t))) ∧
    (s.sweepEn = false ∨ s.roundsRun = false → Does .sweepStep s s) ∧
    (s.sweepEn = false ∨ s.roundsRun = false ∨ f.sweepLen = 0 ∨ f.sweepBusy = true ∨ f.sweepDone = true ∨
        f.sweepWait = true → Does .sweepRetry s s) ∧
    Completes .faultSweepLate s (fun t => t.fault.sweepLate = true)

/-- NV commands and events (R451, R453, R456 to R463, R466). A window write stores its word; COUNT_INIT writes both copies of
a counter at 0, COUNT_INC the copy that is not in use, COUNT_READ shows the value; BP_SET is proposed, then countersigned
sets the mask; LOG_CLEAR restarts the ring; LOG_APPEND writes the oldest waiting record; RUN_HOURS counts while the device
runs; the scrub and the hold-up check leave what they find. -/
def Obligations.NvCommandsTakeEffect : Prop :=
  ∀ (m : Master) (w : Fin 32) (v : Word) (n : Nat) (data : List Word) (s : State), let k := masterCode m
    let a := s.arg 0x05 k; let at_ := s.winAddr w; let c := s.ctrAddr; let mask := [s.dir 0x05 0x91C, s.dir 0x05 0x920]
    let calm : Prop := s.nv.ctrDue = false
    let answered (code : Nat) (t : State) : Prop := t.cmdStatus 0x05 k = accepted s 0x05 code true
    (Ready s 0x05 m → calm →
      (s.nvProtected at_ = false → s.nvWritable = true →
        Completes (.win m w v) s fun t => t.nv.mem = setNvWords s.nv.mem at_ [v.toNat]) ∧
      (s.nvProtected at_ = true ∨ s.nvWritable = false → Completes (.win m w v) s fun t => t.nv.mem = s.nv.mem) ∧
      (c % 32 = 0 →
        ((s.page 0x05).lockCmd = false → s.nv.ctrCopy c = 3 → s.nvProtected c = false → s.nvWritable = true →
          Completes (.countInit m) s fun t => answered 1 t ∧
            t.nv.mem = setNvWords (setNvWords s.nv.mem c (nvCopyWords 0)) (c + 12) (nvCopyWords 0)) ∧
        (s.nvProtected c = false → s.nvWritable = true →
          (s.nv.ctrCopy c = 1 → Completes (.countInc m) s fun t => answered 2 t ∧
            t.nv.mem = setNvWords s.nv.mem (c + 12) (nvCopyWords ((s.nv.copyValue c + 1) % 2 ^ 64))) ∧
          (s.nv.ctrCopy c = 2 → Completes (.countInc m) s fun t => answered 2 t ∧
            t.nv.mem = setNvWords s.nv.mem c (nvCopyWords ((s.nv.copyValue (c + 12) + 1) % 2 ^ 64)))) ∧
        (s.nv.ctrCopy c ≠ 3 → Completes (.countRead m) s fun t => answered 3 t ∧
          t.nv.ctrVal = s.nv.copyValue (if s.nv.ctrCopy c = 1 then c else c + 12))) ∧
      (MayPropose s 0x05 m 4 a → Proposes (.bpSet m) s 0x05 m 4 a mask) ∧
      (Countersigns s 0x05 m 4 a data → Completes (.bpSet m) s fun t => answered 4 t ∧
        t.nv.bp = ((data[0]?).getD 0).toNat + ((data[1]?).getD 0).toNat * 2 ^ 32) ∧
      ((s.page 0x05).lockCmd = false → s.logEn = true →
        Completes (.logClear m) s fun t => answered 5 t ∧ t.nv.logSlot = 0)) ∧
    (calm → ∀ r l, s.nv.logWait = r :: l →
      let i := if s.logSlots = 0 then 0 else s.nv.logSlot % s.logSlots; let b := s.logBase + 32 * i; let q := s.nv.logSeq
      (s.logOk = true → s.nvWritable = true → s.nvProtected b = false →
        Completes .logAppend s fun t => t.nv.logWait = l ∧ t.nv.logSeq = (q + 1) % 2 ^ 32 ∧
          t.nv.logSlot = (i + 1) % s.logSlots ∧
          t.nv.mem = setNvWords (setNvWords (setNvWords s.nv.mem (b + 20) [q]) b r.words) (b + 24) [0, 0xFFFFFFFF - q])) ∧
    (let b := bits (s.cfg 0x05 0xC) 18 0 + 32
     calm → s.budget.pstate.runs = true → bit (s.cfg 0x05 0) 2 = true → s.nvProtected b = false → s.nvWritable = true →
      (s.nv.ctrCopy b = 1 → Completes .runHours s fun t =>
        t.nv.mem = setNvWords s.nv.mem (b + 12) (nvCopyWords ((s.nv.copyValue b + 1) % 2 ^ 64))) ∧
      (s.nv.ctrCopy b = 2 → Completes .runHours s fun t =>
        t.nv.mem = setNvWords s.nv.mem b (nvCopyWords ((s.nv.copyValue (b + 12) + 1) % 2 ^ 64)))) ∧
    (s.budget.pstate.runs = false ∨ bit (s.cfg 0x05 0) 2 = false → Does .runHours s s) ∧
    Does (.nvScrub n .clean) s s ∧
    (Completes (.nvScrub n .corrected) s fun t => (t.page 0x05).fault.getLsbD 0 = true) ∧
    (calm → n < 131072 → Completes (.nvScrub n .uncorrectable) s fun t => (t.page 0x05).fault.getLsbD 1 = true ∧
      t.nv.lastUncorr = 4 * n) ∧
    (calm → Completes (.nvHoldupLow false) s fun t => t.nv.holdupOk = true ∧ t.nv.holdupSeen = true) ∧
    (Completes (.nvHoldupLow true) s fun t => t.nv.holdupOk = false ∧
      (s.nv.holdupOk = true → (t.page 0x05).fault.getLsbD 4 = true))

/-- SEC commands (R468, R470, R472, R476, R478). LC_SET, DBG_SET, KEY_WRITE, KEY_REVOKE and MINVER_SET are proposed by one
party, and their countersign by another acts at once: the lifecycle state, the debug level, the slot's key and state, the
minimum versions; PROPOSAL_CANCEL and LAPSE drop what is pending. -/
def Obligations.SecurityCommandsTakeEffect : Prop :=
  ∀ (m : Master) (page : Fin 256) (data : List Word) (s : State), let k := masterCode m; let a := s.arg 0x06 k
    let slot := bits a 1 0; let book := bits a 5 0; let fw := bits a 13 8
    let both (c : Instr) (code : Nat) (own captured : List Word) (effect : State → Prop) : Prop :=
      (MayPropose s 0x06 m code a → (s.secChecks code a own).result = 0 → Proposes c s 0x06 m code a own) ∧
      (Countersigns s 0x06 m code a captured → (s.secChecks code a captured).result = 0 →
        Completes c s fun t => t.cmdStatus 0x06 k = accepted s 0x06 code true ∧ effect t)
    (Ready s 0x06 m →
      both (.dbgSet m) 2 [] [] (fun t => t.sec.dbgSet = slot) ∧
      both (.keyWrite m) 3 s.keyPub data (fun t => t.keyState slot = .enabled ∧ t.pubKey slot = data) ∧
      both (.keyRevoke m) 4 [] [] (fun t => t.keyState slot = .revoked) ∧
      both (.minverSet m) 5 [] [] (fun t => t.sec.bookMin = book ∧ t.sec.fwMin = fw) ∧
      (∀ l, lifecycleOf (bits a 2 0) = some l → l ≠ .retired →
        both (.lcSet m) 1 [] [] fun t => t.sec.lc = l ∧
          (l = .deployed → t.sec.dbgSet = min s.sec.dbgSet (debugCap l))) ∧
      (lifecycleOf (bits a 2 0) = some .retired → s.lcLegal .retired = true → MayPropose s 0x06 m 1 a →
        Proposes (.lcSet m) s 0x06 m 1 a []) ∧
      (lifecycleOf (bits a 2 0) = some .retired → Countersigns s 0x06 m 1 a [] → s.lcLegal .retired = true → s.nv.ctrDue = false →
        Completes (.lcSet m) s fun t => t.sec.lc = .retired ∧ t.nv.mem = [] ∧ t.svc.keys = [] ∧ t.sec.binding = none ∧
          ∀ i, i ≠ 0 → t.keyState i = if s.keyState i = .revoked then .revoked else .empty) ∧
      (page.val = 0x06 → (∃ q, ((s.page 0x06).prop = some q ∨ (s.page 0x06).lockProp = some q) ∧ q.master = k) →
        Completes (.proposalCancel m page) s fun t => t.cmdStatus 0x06 k = accepted s 0x06 6 true ∧
          (t.page 0x06).prop = none ∧ (t.page 0x06).lockProp = none)) ∧
    (page.val ≠ 0x06 → pageKind page ≠ .none → Ready s page m →
      Completes (.proposalCancel m page) s fun t => Safety.Same s t [page.val] ∧
        t.cmdStatus page k = { result := 2, code := 6, seq := ((s.page page).seq + 1) % 32768, done := false }) ∧
    Completes (.lapse page) s (fun t => (t.page page).prop = none ∧ (t.page page).lockProp = none)

/-- What the SEC commands are refused for (R468, R470, R472, R478), beside the refusals of the two-party protocol: an
illegal transition, a debug level that does not exist, FULL with a master key present, a slot that is not EMPTY or a key
that is no point, a slot that must stay, minimum versions that fall or that what runs does not meet. -/
def Obligations.SecurityRefusals : Prop :=
  ∀ (a : Word) (data : List Word) (s : State), let slot := bits a 1 0; let book := bits a 5 0; let fw := bits a 13 8
    ((s.secChecks 1 a data).result = 0 ↔ ∃ l, lifecycleOf (bits a 2 0) = some l ∧ s.lcLegal l = true) ∧
    ((s.secChecks 2 a data).result = 0 ↔ slot < 3 ∧ (slot = 2 → ∀ k < 4, (s.keySlot k).valid = false)) ∧
    ((s.secChecks 3 a data).result = 0 ↔
      slot ≠ 0 ∧ Config.validPoint (keyPubBytes data) = true ∧ s.keyState slot = .empty) ∧
    ((s.secChecks 4 a data).result = 0 ↔
      s.keyState slot = .enabled ∧ (s.bookRuns = true → s.board.run.slot ≠ slot) ∧ (s.fwRuns = true → s.sec.fwSlot ≠ slot) ∧
        ∃ k < 4, k ≠ slot ∧ s.keyState k = .enabled) ∧
    ((s.secChecks 5 a data).result = 0 ↔
      s.sec.bookMin ≤ book ∧ s.sec.fwMin ≤ fw ∧ (s.bookRuns = true → book ≤ s.board.run.secVer) ∧
        (s.fwRuns = true → fw ≤ s.sec.fwSecVer))

/-- The events of the protected store (R481). A failed known-answer test is noted; a corrected word is only reported; an
uncorrectable one costs a copy, and with both copies lost the keys and the binding go and every NV block is protected. -/
def Obligations.SecurityEventsTakeEffect : Prop :=
  ∀ (s : State),
    (Completes (.secCryptoKat true) s fun t => t.sec.katBad = false) ∧
    (s.fault.compat = false →
      (Completes (.secCryptoKat false) s fun t => t.sec.katBad = true) ∧
      Reports (.pstoreScrub .corrected) s s ∧
      (s.sec.copyA = true → s.sec.copyB = true →
        ∃ b, Reports (.pstoreScrub .uncorrectable) s (s.setSec fun x => { x with copyA := b, copyB := !b }).nextFree) ∧
      (s.sec.copyA = false ∨ s.sec.copyB = false →
        Completes (.pstoreScrub .uncorrectable) s fun t => t.sec.binding = none ∧ t.sec.copyA = false ∧ t.sec.copyB = false ∧
          t.nv.bp = 2 ^ 64 - 1 ∧
          ∀ i, i ≠ 0 → t.keyState i = if s.keyState i = .revoked then .revoked else .empty)) ∧
    Does (.pstoreScrub .clean) s s

/-- Resets from the balls and start-up (R482, R484 to R489). A brown-out, and RESET_N low for 1 µs, are a POR; a pulse shorter
than 200 ns is none, and one in between is either (a free value); the release of the internal reset brings registers up with the debug level of the lifecycle state
and the always-on island running, and takes AGE_PRESET and COMPAT of the boot record. -/
def Obligations.StartupEventsTakeEffect : Prop :=
  ∀ (low : Bool) (held : Nat) (size : Fin 32) (s : State),
    let por (cause : Nat) (t : State) : Prop := t.boot.released = false ∧ t.boot.started = false ∧ t.boot.cause = cause ∧
      t.active = [] ∧ t.shadow = [] ∧ t.direct = [] ∧ t.sec.lc = s.sec.lc ∧
      t.sec.dbgSet = resetLevel s.sec.lc ∧ t.budget.pstate = .inReset ∧ t.svc.keys = [] ∧ t.fault.queue = []
    (Completes .brownOut s fun t => por 2 t ∧ ∃ n ≤ s.nv.flight.length, t.nv.mem = s.nv.undone n) ∧
    (1000 ≤ held → Completes (.resetN low held) s fun t => por 1 t ∧ t.boot.resetPin = (!low) ∧ t.nv.mem = s.nv.mem) ∧
    (held < 200 → Does (.resetN low held) s (s.setBoot fun b => { b with resetPin := !low })) ∧
    (200 ≤ held → held < 1000 → Completes (.resetN low held) s fun t => t.boot.resetPin = (!low) ∧
      (por 1 t ∨ Safety.Same (s.setBoot fun b => { b with resetPin := !low }) t)) ∧
    (s.boot.resetPin = true → s.boot.started = false →
      Completes (.resetRelease size) s fun t => t.boot.released = true ∧ t.boot.started = true ∧
        t.budget.pstate = .run ∧ t.sec.dbgSet = resetLevel s.sec.lc ∧ t.boot.copy = s.recordCopy ∧
        t.fault.compat = t.boot.flags.testBit 0 ∧ t.sys.cfgReady = true ∧
        t.osc.ageNow = ageScale * iclamp t.boot.agePreset (-5000000) 5000000 ∧
        t.pair.bound = s.sec.binding.isSome)

/-- IMAGE_ENTRY (R487, R491). A command that the runner waits for and that has answered is counted as applied or as
refused, and the next entry goes on from there. With rounds running and nothing to wait for, the next entry of the image,
or after the list the first held one, is applied, unless it waits for the board or for the role: a register write counts
as applied, a command is waited for until it answers; one that finds the device STANDBY is dropped. -/
def Obligations.ImageEntriesAreApplied : Prop :=
  ∀ (s : State), let b := s.boot; let i := b.imgNext; let e := s.imgEntry i
    let next := s.setBoot fun b => { b with imgNext := i + 1 }
    let applied (u : State) : State := u.setBoot fun b => { b with imgCmd := none, applied := b.applied + 1 }
    let refused (i : Nat) (u : State) : State := u.setBoot fun b => { b with
      imgCmd := none, refused := b.refused + 1, firstRefused := some (b.firstRefused.getD i) }
    let acts (i : Nat) (u : State) : Prop :=
      let e := s.imgEntry i; let w := u.imgWrite e.1 e.2.2.1 e.2.2.2
      (cmdPage e.1 = none → Does .imageEntry s (applied w)) ∧
      ∀ p, cmdPage e.1 = some p → let q := ((u.page p).seq + 1) % 32768; let c := w.cmdStatus p 3
        let x := w.setBoot fun b => { b with imgCmd := some (p, q, i), imgWait := 0 }
        (c.seq = q → c.result ≠ 0 → Does .imageEntry s (refused i x)) ∧
        (c.seq = q → c.result = 0 → c.done = true → Does .imageEntry s (applied x)) ∧
        (c.seq ≠ q ∨ (c.result = 0 ∧ c.done = false) → Does .imageEntry s x)
    (∀ p q j, b.imgCmd = some (p, q, j) → let c := s.cmdStatus p 3
      (c.seq = q → c.result ≠ 0 → exec .imageEntry s = exec .imageEntry (refused j s)) ∧
      (c.seq = q → c.result = 0 → c.done = true → exec .imageEntry s = exec .imageEntry (applied s)) ∧
      (c.seq ≠ q ∨ (c.result = 0 ∧ c.done = false) → Does .imageEntry s s)) ∧
    (b.imgCmd = none →
      (b.wake = true ∨ s.osc.running = false → Does .imageEntry s s) ∧
      (b.wake = false → s.osc.running = true → i < b.imgCount →
        (e.2.1 = false ∨ s.defers = false ∨ (s.roleSettled = true ∧ s.standby = false) →
          (s.imgHeld i = false → acts i next) ∧
          (s.imgHeld i = true → Does .imageEntry s s)) ∧
        (e.2.1 = true → s.defers = true →
          (s.roleSettled = false →
            Does .imageEntry s (next.setBoot fun b => { b with deferred := b.deferred ++ [i] })) ∧
          (s.roleSettled = true → s.standby = true →
            Does .imageEntry s (next.setBoot fun b => { b with dropped := b.dropped + 1 })))) ∧
      (b.wake = false → s.osc.running = true → b.imgCount ≤ i →
        (b.deferred = [] → Does .imageEntry s s) ∧
        ∀ j l, b.deferred = j :: l →
          (s.roleSettled = true → s.imgHeld j = false → acts j (s.setBoot fun b => { b with deferred := l })) ∧
          (s.roleSettled = false ∨ s.imgHeld j = true → Does .imageEntry s s)))

/-- ROUND_BOUNDARY (R20, R21, R24): while rounds run and go on, the count rises by one, and the extended coarse count by the
length of a round, the first boundary after the lock excepted; without rounds it changes nothing. -/
def Obligations.BoundariesCountRounds : Prop :=
  ∀ (env : RoundEnv) (s : State),
    (s.roundsRun = true → Completes (.roundBoundary env) s fun t => t.osc.running = true →
      t.osc.count = s.osc.count + 1 ∧
        t.osc.bnd = if s.osc.count = 0 then s.osc.bnd else s.osc.bnd + roundLen) ∧
    (s.roundsRun = false → Does (.roundBoundary env) s s)

/-- SYS.CHIP_ID (R6) reads 0x3240_B100: PART 0x3240, STEP 0xB1, bits [7:0] 0. -/
def Obligations.ChipIdReads : Prop :=
  ∀ (m : Master) (s : State), Answers s 0x00 m → s.heldWord 0x00 (masterCode m) 0x40 = none →
    Completes (.snapshotRead m 0x00 0x40) s fun t => ∃ w : Word, t.sys.reply = [w] ∧ w = 0x3240B100 ∧
      bits w 31 16 = 0x3240 ∧ bits w 15 8 = 0xB1 ∧ bits w 7 0 = 0

/-- The window of the NV store (R452): its addresses stay in the selected page, and a write beyond WIN[31] is ignored and
raises no fault. -/
def Obligations.NvWindowEndsAtItsPage : Prop :=
  ∀ (m : Master) (off : Fin 4096) (v : Word) (w : Fin 32) (s : State), let page := bits (s.dir 0x05 0x914) 11 0
    128 * page ≤ s.winAddr w ∧ s.winAddr w + 4 ≤ 128 * (page + 1) ∧
    (0xA00 ≤ off.val → Ready s 0x05 m → s.nv.ctrDue = false →
      Completes (.registerWrite m 0x05 off v) s fun t => Safety.Same s t ∧ t.nv = s.nv ∧
        (t.page 0x05).fault = (s.page 0x05).fault)

/-- First-error captures and the history queue (R424): the first event of a page fills its capture, later ones go to the
queue, which holds at most 16 records and is read oldest first. -/
def Obligations.FirstErrorIsCaptured : Prop :=
  ∀ (r : FaultRec) (s : State), let t := s.storeRec r
    (s.fault.capture r.page = none → t.fault.capture r.page = some r ∧ t.fault.queue = s.fault.queue) ∧
    (∀ c, s.fault.capture r.page = some c → t.fault.capture r.page = some c ∧
      (s.fault.queue.length < 16 → t.fault.queue = s.fault.queue ++ [r])) ∧
    (∀ p, p ≠ r.page → t.fault.capture p = s.fault.capture p) ∧
    (s.fault.queue.length ≤ 16 → t.fault.queue.length ≤ 16) ∧
    (bit (s.dir 0x03 0x918) 8 = true → s.shownRec = s.fault.queue.head?)

/-- Interrupt priorities (R410). PRIO 0 disables a source; TARGET chooses its target; PRIO 15 written to a source other than
FATAL counts as 14; SRC_CFG[1] ignores writes, and FATAL has priority 15. -/
def Obligations.SourcesHavePriorities : Prop :=
  ∀ (m : Master) (g : Bool) (n : Fin 256) (v : Word) (s : State), let off : Fin 4096 := Fin.ofNat 4096 (0x500 + 4 * n.val)
    (s.prio n = 0 → n.val ∉ s.eligible g) ∧
    (n.val ≠ 1 → s.ownG n = bit (s.cfg 0x04 (4 * n)) 4 ∧ s.prio n = min 14 (bits (s.cfg 0x04 (4 * n)) 3 0)) ∧
    s.prio 1 = 15 ∧
    (Answers s 0x04 m → s.heldWord 0x04 (masterCode m) 0x104 = none →
      Completes (.snapshotRead m 0x04 0x104) s fun t => t.sys.reply = [0xF]) ∧
    (Ready s 0x04 m → (s.page 0x04).lockCfg = false →
      (1 < n.val → Completes (.registerWrite m 0x04 off v) s fun t =>
        bits (t.shadowCfg 0x04 (4 * n)) 3 0 = min 14 (bits v 3 0) ∧ bit (t.shadowCfg 0x04 (4 * n)) 4 = bit v 4) ∧
      (n.val = 1 → Does (.registerWrite m 0x04 off v) s s))

/-- Refused commands (R401): RESULT is the first refusal in the order of the rule, and a refusal changes CMD_STATUS of the
master, the count of refusals and events of the page, and nothing else. -/
def Obligations.RefusalsChangeNothing : Prop :=
  ∀ (p m code : Nat) (arg : Word) (c : Checks) (s : State), let t := s.submit p m code arg c
    (c.result = 0 ↔ c = {}) ∧ (c.arg = true → c.result = 2) ∧ (c.arg = false → c.busy = true → c.result = 5) ∧
    (c.arg = false → c.busy = false → c.lock = true → c.result = 3) ∧
    (c.arg = false → c.busy = false → c.lock = false → c.role = true → c.result = 4) ∧
    (c.arg = false → c.busy = false → c.lock = false → c.role = false → c.party = true → c.result = 6) ∧
    (c.result ≠ 0 → Safety.Same s t [p] ∧ (t.page p).pend = (s.page p).pend ∧
      t.cmdStatus p m = { result := c.result, code := code % 256, seq := ((s.page p).seq + 1) % 32768, done := false } ∧
      (∀ k, k ≠ m → t.cmdStatus p k = s.cmdStatus p k) ∧
      t.counter p (pageKind p).refusals = (s.counter p (pageKind p).refusals + 1) % 2 ^ 64 ∧
      (t.page p).event.getLsbD (pageKind p).refusedBit = true)

/-- Check windows (R429, R430, R432): in native mode a U event that no slot holds takes the lowest free slot with its full
window; a repeat counts in the slot it has; in PX1608 compatibility mode no window opens (R436). -/
def Obligations.CheckWindowsOpen : Prop :=
  ∀ (e : Event) (i : Nat) (x : Slot) (s : State), let t := s.report e; let id := identity e.page e.bit e.unit
    let fresh : Slot := { page := e.page, bit := e.bit, unit := e.unit, detail := e.detail, pairs := e.pairs, repeats := 0,
                          left := s.windowRounds e.atBoundary }
    faultClass (pageKind e.page) e.page e.bit = some 1 → noEscalation e.page e.bit = false →
    (s.fault.compat = false →
      (s.fault.slotOf id = none → i < 16 → s.fault.slot i = none → (∀ j < i, s.fault.slot j ≠ none) →
        t.fault.slot i = some fresh ∧ ∀ j, j ≠ i → t.fault.slot j = s.fault.slot j) ∧
      (s.fault.slotOf id = some i → s.fault.slot i = some x →
        t.fault.slot i = some { x with repeats := min 15 (x.repeats + 1) })) ∧
    (s.fault.compat = true → ∀ j, t.fault.slot j = s.fault.slot j)

/-- The F reaction of a domain (R214, R433): a domain that is not INIT is due to enter SAFE, its clock and pulse outputs that
wait, run or are squelched are held at once; a domain in INIT is untouched. -/
def Obligations.FReactionHoldsOutputs : Prop :=
  ∀ (id d : Nat) (s : State), let t := s.fReaction id d
    (s.isInit d = true → t = s) ∧
    (s.isInit d = false → (t.dom d).safePend = some ((s.dom d).safePend.getD id) ∧ (t.dom d).state = (s.dom d).state ∧
      (∀ j ∈ s.domOuts d, (s.out j).cfg.src ≠ 2 →
        (s.out j).state = .wait ∨ (s.out j).state = .run ∨ (s.out j).state = .squelched → (t.out j).held = true) ∧
      ∀ j, j ∉ s.domOuts d → t.out j = s.out j)

/-- A command that waits for its boundary changes, when it is issued, only the common registers of its page. -/
def Obligations.WaitingCommandsFrame : Prop :=
  ∀ (m : Master) (ch : Fin 48) (i : Fin 40) (d : Fin 12) (k : Fin 8) (j : Fin 40) (p : Fin 2) (s t : State),
    let keeps (c : Instr) (p : Nat) : Prop := Ready s p m → exec c s = .next t → Safety.Same s t [p]
    (∀ c ∈ [Instr.stampEnable ch m, .stampDisable ch m, .predivSync ch m, .stampTest ch m, .stampRetry ch m,
      .linRestart ch m], keeps c (stampPage ch)) ∧
    (∀ c ∈ [Instr.qualEnable i m, .qualDisable i m, .forceOut i m, .restore i m, .skipSoak i m, .clearMask i m],
      keeps c (qualPage i)) ∧
    (∀ c ∈ [Instr.forceSelect d m, .manualSelect d m, .clearSelect d m, .park d m, .unpark d m, .realignBo d m,
      .domEnable d m, .domDisable d m, .forceHoldover d m, .releaseHoldover d m, .sluiceRestart d m, .modelReset d m,
      .modelSave d m], keeps c (domPage d)) ∧
    (∀ c ∈ [Instr.divSync k m, .synRetry k m], keeps c (synPage k)) ∧
    (∀ c ∈ [Instr.outVerify j m, .outRestart j m, .outRetry j m], keeps c (outPage j)) ∧
    (∀ c ∈ [Instr.timStart p m, .timStop p m, .clearStab p m], keeps c (0xC0 + p.val)) ∧
    keeps (.stepTime m) 0x09 ∧ keeps (.castle m) 0x07 ∧ keeps (.dormant m) 0x02 ∧ keeps (.fAck m) 0x03 ∧
    keeps (.bist m) 0x03 ∧ keeps (.sweepRestart m) 0x03 ∧ keeps (.spareIn m) 0xC8 ∧ keeps (.cellTest m) 0xC8 ∧
    keeps (.keyCurrent m) 0x0B ∧ keeps (.keyErase m) 0x0B ∧ keeps (.fwUpdate m) 0x0B ∧ keeps (.rlClear m) 0x0B ∧
    keeps (.portRestart m) 0x0C

/-- What some commands leave alone. A message, request or frame of the packet ports touches the service and the candidates'
qualification; NV commands and events the store; interrupt commands the delivery; the throttle and the holds the budget; a
record's release and an acknowledgement the collector; alignment, links and requests the pair logic; the next word of a book
the board. `Safety.Kept` allows what records and interrupt requests touch. -/
def Obligations.UnitsKeepApart : Prop :=
  ∀ (m : Master) (i p : Fin 4) (ctx : Option (Fin 2048)) (gc : Fin 2048) (e : PtpEvent) (a : Announce) (r : Signal)
    (q : NtpReq) (f : NtsFields) (frame : RxFrame) (up : Bool) (bytes : List Byte) (en : Option Nat) (x y : Int) (n k : Nat)
    (w : Fin 32) (b : Fin 256) (v : Word) (err : ScrubResult) (s t : State),
    let after (c : Instr) : Prop := exec c s = .next t
    (∀ c ∈ [Instr.sync i e, .followUp i n x y, .delayReqTx i n, .delayResp i n x y, .announce i a, .announceTimeout i,
        .syncTx p ctx n, .announceTx p ctx, .delayReq p ctx e, .signaling p r, .grantExpiry gc, .ntpRequest p q,
        .ntsRequest p q f, .launch, .bucketDecay, .frameReceived p frame, .arpRequest p up bytes, .gratuitousArp,
        .esmcPdu p n en, .esmcInfoPdu p, .txHeldReturn p],
      after c → Safety.Kept { s with svc := t.svc, quals := t.quals } t) ∧
    (∀ c ∈ [Instr.logAppend, .runHours, .nvScrub n err, .nvHoldupLow up, .fallback b], after c → Safety.Kept s t) ∧
    (Ready s 0x05 m →
      (after (.win m w v) → Safety.Kept s t) ∧
      ∀ c ∈ [Instr.countInit m, .countInc m, .countRead m, .logClear m], after c → Safety.Same s t [0x05]) ∧
    (Ready s 0x04 m → ∀ c ∈ [Instr.swSet m v, .complete m v], after c → Safety.Kept s t) ∧
    (Ready s 0x03 m → ∀ c ∈ [Instr.uAck m v, .recRelease m v], after c → Safety.Kept s t) ∧
    (brownMv 0 ≤ n → after (.sag n) → Safety.Kept { s with budget := t.budget } t) ∧
    (∀ c ∈ [Instr.budgetHoldExpiry], after c → Safety.Kept { s with budget := t.budget } t) ∧
    (∀ c ∈ [Instr.aligned, .alignLoss, .takenEnd, .castleFail, .orderedSet n k, .blockLock, .castlingLinkDown],
      after c → Safety.Kept { s with pair := t.pair } t) ∧
    (Ready s 0x01 m → after (.bookData m v) → Safety.Kept { s with board := t.board } t)

/-- NV counters (R456, R457). An increment of a counter with a valid copy adds one and leaves the value in the other copy;
what the NV commands, the log and the counters write keeps the canonical form of the store. -/
def Obligations.NvCountersCount : Prop :=
  ∀ (a : Nat) (m : Master) (w : Fin 32) (v : Word) (s : State),
    (s.nvWritable = true → a % 4 = 0 → (∀ x ∈ s.nv.bad, x % 4 = 0) → s.nv.ctrCopy a ≠ 3 → s.nv.ctrValue a + 1 < 2 ^ 64 → let t := s.nvIncrement a
      t.nv.ctrValue a = s.nv.ctrValue a + 1 ∧ t.nv.ctrCopy a = 3 - s.nv.ctrCopy a) ∧
    (twf (fun _ => (0 : BitVec 8)) s.nv.mem = true →
      ∀ c ∈ [Instr.win m w v, .countInit m, .countInc m, .countRead m, .logAppend, .runHours], ∀ t, exec c s = .next t →
        twf (fun _ => (0 : BitVec 8)) t.nv.mem = true)

/-- Acknowledgements (R430), outside PX1608 compatibility mode. U_ACK compares the bits of an identity alone. One that matches
a slot frees it and no other, counts in ACKS, and nothing escalates: no record is made and no slot reports. One that matches
none is ignored, counts in BAD_ACKS and raises BAD_ACK. It is the same for every master. -/
def Obligations.AcknowledgementsEndChecks : Prop :=
  ∀ (m : Master) (v : Word) (s : State), let f := s.fault
    let acked (c : Nat) (t : State) : Prop :=
      t.counter 0x03 c = (s.counter 0x03 c + 1) % 2 ^ 64 ∧ t.counter 0x03 0xA18 = s.counter 0x03 0xA18 ∧
        t.fault.captures = f.captures ∧ t.fault.queue = f.queue ∧ t.irq.fatalC = s.irq.fatalC ∧ t.irq.fatalG = s.irq.fatalG
    Ready s 0x03 m → f.compat = false → s.nv.ctrDue = false →
    (∀ w : Word, v &&& 0xFF1FFF = w &&& 0xFF1FFF → exec (.uAck m v) s = exec (.uAck m w) s) ∧
    (∀ i, f.slotOf (v &&& 0xFF1FFF).toNat = some i →
      Completes (.uAck m v) s fun t => acked 0xA20 t ∧ t.fault.slot i = none ∧ ∀ j, j ≠ i → t.fault.slot j = f.slot j) ∧
    (f.slotOf (v &&& 0xFF1FFF).toNat = none →
      Completes (.uAck m v) s fun t => acked 0xA28 t ∧ t.fault.slots = f.slots ∧ (t.page 0x03).event.getLsbD 2 = true) ∧
    ∀ n : Master, Ready s 0x03 n → exec (.uAck n v) s = exec (.uAck m v) s
end

