-- ==== Sys2Proof/Laws/Sparse.lean ====
section
/-! SUPPORT. Sparse tables: a read after a write, what a write leaves alone, and that every write keeps the canonical
form; the same for the NV store's bytes and words. -/

namespace Sys2Proof.Machine

variable {α : Type} {d : Nat → α} {t : Table α} {j k : Nat} {v : α}

theorem tabove_le (h : tabove k t = true) (hj : j ≤ k) : tabove j t = true := by
  induction t with
  | nil => rfl
  | cons e t ih => simp only [tabove, Bool.and_eq_true, decide_eq_true_eq] at h ⊢; exact ⟨by omega, ih h.2⟩

theorem tget_tins_self : tget d (tins t k v) k = v := by
  induction t with
  | nil => simp [tins, tget]
  | cons e t ih =>
    simp only [tins]
    split
    · simp [tget]
    · split
      · simp [tget]
      · simp [tget, *]

theorem tget_tins_other (h : j ≠ k) : tget d (tins t k v) j = tget d t j := by
  induction t with
  | nil => simp [tins, tget, h]
  | cons e t ih =>
    simp only [tins]
    split
    · subst k; simp [tget, h]
    · split
      · simp [tget, h]
      · simp [tget, ih]

theorem tget_tdel_self : tget d (tdel t k) k = d k := by
  induction t with
  | nil => rfl
  | cons e t ih =>
    simp only [tdel]
    split
    · exact ih
    · simp only [tget, if_neg ‹_›]; exact ih

theorem tget_tdel_other (h : j ≠ k) : tget d (tdel t k) j = tget d t j := by
  induction t with
  | nil => rfl
  | cons e t ih =>
    simp only [tdel]
    split
    · subst k; simp [tget, ih, h]
    · simp [tget, ih]

theorem tabove_tins (h : tabove j t = true) (hk : j < k) : tabove j (tins t k v) = true := by
  induction t with
  | nil => simp [tins, tabove, hk]
  | cons e t ih =>
    simp only [tabove, Bool.and_eq_true, decide_eq_true_eq] at h
    simp only [tins]
    split
    · simp [tabove, hk, h.2]
    · split <;> simp [tabove, hk, h.1, h.2, ih]

theorem tabove_tdel (h : tabove j t = true) : tabove j (tdel t k) = true := by
  induction t with
  | nil => rfl
  | cons e t ih =>
    simp only [tabove, Bool.and_eq_true, decide_eq_true_eq] at h
    simp only [tdel]
    split <;> simp [tabove, h.1, ih h.2]

variable [DecidableEq α]

theorem twf_tins (h : twf d t = true) (hv : v ≠ d k) : twf d (tins t k v) = true := by
  induction t with
  | nil => simp [tins, twf, tabove, hv]
  | cons e t ih =>
    obtain ⟨i, w⟩ := e
    simp only [twf, Bool.and_eq_true, decide_eq_true_eq] at h
    simp only [tins]
    split
    · subst i; simp [twf, hv, h.1.2, h.2]
    · split
      · rename_i h1 h2
        simp [twf, tabove, hv, h2, h.1.1, h.1.2, h.2, tabove_le h.1.2 (Nat.le_of_lt h2)]
      · rename_i h1 h2
        simp only [twf, Bool.and_eq_true, decide_eq_true_eq]
        exact ⟨⟨h.1.1, tabove_tins h.1.2 (by omega)⟩, ih h.2⟩

theorem twf_tdel (h : twf d t = true) : twf d (tdel t k) = true := by
  induction t with
  | nil => rfl
  | cons e t ih =>
    simp only [twf, Bool.and_eq_true, decide_eq_true_eq] at h
    simp only [tdel]
    split
    · exact ih h.2
    · simp only [twf, Bool.and_eq_true, decide_eq_true_eq]
      exact ⟨⟨h.1.1, tabove_tdel h.1.2⟩, ih h.2⟩

/-- A write keeps the canonical form. -/
theorem twf_tput (h : twf d t = true) : twf d (tput d t k v) = true := by
  unfold tput; split
  · exact twf_tdel h
  · exact twf_tins h ‹_›

/-- A read of a value just written. -/
@[simp] theorem tget_tput_self : tget d (tput d t k v) k = v := by
  unfold tput; split
  · rename_i e; rw [tget_tdel_self, e]
  · exact tget_tins_self

/-- A write leaves every other key alone. -/
theorem tget_tput_other (hj : j ≠ k) : tget d (tput d t k v) j = tget d t j := by
  unfold tput; split
  · exact tget_tdel_other hj
  · exact tget_tins_other hj

/-- A read after a write, at any key. -/
theorem tget_tput : tget d (tput d t k v) j = if j = k then v else tget d t j := by
  split
  · subst j; exact tget_tput_self
  · exact tget_tput_other ‹_›

theorem twf_tmod (f : α → α) (h : twf d t = true) : twf d (tmod d t k f) = true := twf_tput h

@[simp] theorem tget_tmod_self (f : α → α) : tget d (tmod d t k f) k = f (tget d t k) := tget_tput_self

theorem tget_tmod_other (f : α → α) (hj : j ≠ k) : tget d (tmod d t k f) j = tget d t j := tget_tput_other hj

theorem tget_tmod (f : α → α) : tget d (tmod d t k f) j = if j = k then f (tget d t k) else tget d t j := tget_tput

/-! ### The NV store -/

/-- The canonical form of the NV store: addresses strictly rising, no listed byte 0. -/
abbrev Memory.wf (m : List Host.Cell) : Bool := twf (fun _ => (0 : BitVec 8)) m

variable {m : List Host.Cell} {a b n : Nat}

theorem wf_setNvByte {x : BitVec 8} (h : Memory.wf m = true) : Memory.wf (setNvByte m a x) = true := twf_tput h

theorem nvByte_setNvByte_self {x : BitVec 8} : nvByte (setNvByte m a x) a = x := tget_tput_self

theorem nvByte_setNvByte_other {x : BitVec 8} (hb : b ≠ a) : nvByte (setNvByte m a x) b = nvByte m b := tget_tput_other hb

/-- A word write keeps the canonical form. -/
theorem wf_setNvWord (h : Memory.wf m = true) : Memory.wf (setNvWord m a n) = true :=
  wf_setNvByte (wf_setNvByte (wf_setNvByte (wf_setNvByte h)))

/-- A write of several words keeps the canonical form. -/
theorem wf_setNvWords (l : List Nat) (h : Memory.wf m = true) : Memory.wf (setNvWords m a l) = true := by
  induction l generalizing m a with
  | nil => exact h
  | cons v t ih => exact ih (wf_setNvWord h)

/-- A word write leaves every byte outside its four bytes alone. -/
theorem nvByte_setNvWord_other (hb : b < a ∨ a + 4 ≤ b) : nvByte (setNvWord m a n) b = nvByte m b := by
  unfold setNvWord
  rw [nvByte_setNvByte_other (by omega), nvByte_setNvByte_other (by omega), nvByte_setNvByte_other (by omega),
    nvByte_setNvByte_other (by omega)]

/-- A write of several words leaves every byte outside them alone. -/
theorem nvByte_setNvWords_other (l : List Nat) (hb : b < a ∨ a + 4 * l.length ≤ b) :
    nvByte (setNvWords m a l) b = nvByte m b := by
  induction l generalizing m a with
  | nil => rfl
  | cons v t ih =>
    simp only [List.length_cons] at hb
    simp only [setNvWords]
    rw [ih (by omega), nvByte_setNvWord_other (by omega)]

/-- A read of a word just written. -/
theorem nvWord_setNvWord (hn : n < 2 ^ 32) : nvWord (setNvWord m a n) a = n := by
  unfold nvWord setNvWord
  rw [nvByte_setNvByte_other (by omega : a ≠ a + 3), nvByte_setNvByte_other (by omega : a ≠ a + 2),
    nvByte_setNvByte_other (by omega : a ≠ a + 1), nvByte_setNvByte_self,
    nvByte_setNvByte_other (by omega : a + 1 ≠ a + 3), nvByte_setNvByte_other (by omega : a + 1 ≠ a + 2),
    nvByte_setNvByte_self, nvByte_setNvByte_other (by omega : a + 2 ≠ a + 3), nvByte_setNvByte_self,
    nvByte_setNvByte_self]
  simp only [BitVec.toNat_ofNat]
  omega

end Sys2Proof.Machine
end

