-- ==== Sys2Proof/Laws/State.lean ====
section
/-! SUPPORT. What each update of the state leaves alone, one lemma per field, and what it reads back; so that no proof
unfolds a record update. -/

namespace Sys2Proof.Machine

variable (s : State)

/-! ### setPage -/

section
variable (k : Nat) (f : Page → Page)
@[simp] theorem State.setPage_pending : (s.setPage k f).pending = s.pending := rfl
@[simp] theorem State.setPage_free : (s.setPage k f).free = s.free := rfl
@[simp] theorem State.setPage_sys : (s.setPage k f).sys = s.sys := rfl
@[simp] theorem State.setPage_active : (s.setPage k f).active = s.active := rfl
@[simp] theorem State.setPage_shadow : (s.setPage k f).shadow = s.shadow := rfl
@[simp] theorem State.setPage_direct : (s.setPage k f).direct = s.direct := rfl
@[simp] theorem State.setPage_ctr : (s.setPage k f).ctr = s.ctr := rfl
@[simp] theorem State.setPage_osc : (s.setPage k f).osc = s.osc := rfl
@[simp] theorem State.setPage_chans : (s.setPage k f).chans = s.chans := rfl
@[simp] theorem State.setPage_tims : (s.setPage k f).tims = s.tims := rfl
@[simp] theorem State.setPage_harvest : (s.setPage k f).harvest = s.harvest := rfl
@[simp] theorem State.setPage_quals : (s.setPage k f).quals = s.quals := rfl
@[simp] theorem State.setPage_doms : (s.setPage k f).doms = s.doms := rfl
@[simp] theorem State.setPage_syns : (s.setPage k f).syns = s.syns := rfl
@[simp] theorem State.setPage_outs : (s.setPage k f).outs = s.outs := rfl
@[simp] theorem State.setPage_time : (s.setPage k f).time = s.time := rfl
@[simp] theorem State.setPage_links : (s.setPage k f).links = s.links := rfl
@[simp] theorem State.setPage_board : (s.setPage k f).board = s.board := rfl
@[simp] theorem State.setPage_pair : (s.setPage k f).pair = s.pair := rfl
@[simp] theorem State.setPage_svc : (s.setPage k f).svc = s.svc := rfl
@[simp] theorem State.setPage_budget : (s.setPage k f).budget = s.budget := rfl
@[simp] theorem State.setPage_irq : (s.setPage k f).irq = s.irq := rfl
@[simp] theorem State.setPage_fault : (s.setPage k f).fault = s.fault := rfl
@[simp] theorem State.setPage_nv : (s.setPage k f).nv = s.nv := rfl
@[simp] theorem State.setPage_sec : (s.setPage k f).sec = s.sec := rfl
@[simp] theorem State.setPage_boot : (s.setPage k f).boot = s.boot := rfl
end

/-! ### setDir -/

section
variable (p o : Nat) (v : Word)
@[simp] theorem State.setDir_pending : (s.setDir p o v).pending = s.pending := rfl
@[simp] theorem State.setDir_free : (s.setDir p o v).free = s.free := rfl
@[simp] theorem State.setDir_sys : (s.setDir p o v).sys = s.sys := rfl
@[simp] theorem State.setDir_active : (s.setDir p o v).active = s.active := rfl
@[simp] theorem State.setDir_shadow : (s.setDir p o v).shadow = s.shadow := rfl
@[simp] theorem State.setDir_ctr : (s.setDir p o v).ctr = s.ctr := rfl
@[simp] theorem State.setDir_pages : (s.setDir p o v).pages = s.pages := rfl
@[simp] theorem State.setDir_osc : (s.setDir p o v).osc = s.osc := rfl
@[simp] theorem State.setDir_chans : (s.setDir p o v).chans = s.chans := rfl
@[simp] theorem State.setDir_tims : (s.setDir p o v).tims = s.tims := rfl
@[simp] theorem State.setDir_harvest : (s.setDir p o v).harvest = s.harvest := rfl
@[simp] theorem State.setDir_quals : (s.setDir p o v).quals = s.quals := rfl
@[simp] theorem State.setDir_doms : (s.setDir p o v).doms = s.doms := rfl
@[simp] theorem State.setDir_syns : (s.setDir p o v).syns = s.syns := rfl
@[simp] theorem State.setDir_outs : (s.setDir p o v).outs = s.outs := rfl
@[simp] theorem State.setDir_time : (s.setDir p o v).time = s.time := rfl
@[simp] theorem State.setDir_links : (s.setDir p o v).links = s.links := rfl
@[simp] theorem State.setDir_board : (s.setDir p o v).board = s.board := rfl
@[simp] theorem State.setDir_pair : (s.setDir p o v).pair = s.pair := rfl
@[simp] theorem State.setDir_svc : (s.setDir p o v).svc = s.svc := rfl
@[simp] theorem State.setDir_budget : (s.setDir p o v).budget = s.budget := rfl
@[simp] theorem State.setDir_irq : (s.setDir p o v).irq = s.irq := rfl
@[simp] theorem State.setDir_fault : (s.setDir p o v).fault = s.fault := rfl
@[simp] theorem State.setDir_nv : (s.setDir p o v).nv = s.nv := rfl
@[simp] theorem State.setDir_sec : (s.setDir p o v).sec = s.sec := rfl
@[simp] theorem State.setDir_boot : (s.setDir p o v).boot = s.boot := rfl
end

/-! ### setShadow -/

section
variable (k : Nat) (v : Word)
@[simp] theorem State.setShadow_pending : (s.setShadow k v).pending = s.pending := rfl
@[simp] theorem State.setShadow_free : (s.setShadow k v).free = s.free := rfl
@[simp] theorem State.setShadow_sys : (s.setShadow k v).sys = s.sys := rfl
@[simp] theorem State.setShadow_active : (s.setShadow k v).active = s.active := rfl
@[simp] theorem State.setShadow_direct : (s.setShadow k v).direct = s.direct := rfl
@[simp] theorem State.setShadow_ctr : (s.setShadow k v).ctr = s.ctr := rfl
@[simp] theorem State.setShadow_pages : (s.setShadow k v).pages = s.pages := rfl
@[simp] theorem State.setShadow_osc : (s.setShadow k v).osc = s.osc := rfl
@[simp] theorem State.setShadow_chans : (s.setShadow k v).chans = s.chans := rfl
@[simp] theorem State.setShadow_tims : (s.setShadow k v).tims = s.tims := rfl
@[simp] theorem State.setShadow_harvest : (s.setShadow k v).harvest = s.harvest := rfl
@[simp] theorem State.setShadow_quals : (s.setShadow k v).quals = s.quals := rfl
@[simp] theorem State.setShadow_doms : (s.setShadow k v).doms = s.doms := rfl
@[simp] theorem State.setShadow_syns : (s.setShadow k v).syns = s.syns := rfl
@[simp] theorem State.setShadow_outs : (s.setShadow k v).outs = s.outs := rfl
@[simp] theorem State.setShadow_time : (s.setShadow k v).time = s.time := rfl
@[simp] theorem State.setShadow_links : (s.setShadow k v).links = s.links := rfl
@[simp] theorem State.setShadow_board : (s.setShadow k v).board = s.board := rfl
@[simp] theorem State.setShadow_pair : (s.setShadow k v).pair = s.pair := rfl
@[simp] theorem State.setShadow_svc : (s.setShadow k v).svc = s.svc := rfl
@[simp] theorem State.setShadow_budget : (s.setShadow k v).budget = s.budget := rfl
@[simp] theorem State.setShadow_irq : (s.setShadow k v).irq = s.irq := rfl
@[simp] theorem State.setShadow_fault : (s.setShadow k v).fault = s.fault := rfl
@[simp] theorem State.setShadow_nv : (s.setShadow k v).nv = s.nv := rfl
@[simp] theorem State.setShadow_sec : (s.setShadow k v).sec = s.sec := rfl
@[simp] theorem State.setShadow_boot : (s.setShadow k v).boot = s.boot := rfl
end

/-! ### setChan -/

section
variable (k : Nat) (f : Chan → Chan)
@[simp] theorem State.setChan_pending : (s.setChan k f).pending = s.pending := rfl
@[simp] theorem State.setChan_free : (s.setChan k f).free = s.free := rfl
@[simp] theorem State.setChan_sys : (s.setChan k f).sys = s.sys := rfl
@[simp] theorem State.setChan_active : (s.setChan k f).active = s.active := rfl
@[simp] theorem State.setChan_shadow : (s.setChan k f).shadow = s.shadow := rfl
@[simp] theorem State.setChan_direct : (s.setChan k f).direct = s.direct := rfl
@[simp] theorem State.setChan_ctr : (s.setChan k f).ctr = s.ctr := rfl
@[simp] theorem State.setChan_pages : (s.setChan k f).pages = s.pages := rfl
@[simp] theorem State.setChan_osc : (s.setChan k f).osc = s.osc := rfl
@[simp] theorem State.setChan_tims : (s.setChan k f).tims = s.tims := rfl
@[simp] theorem State.setChan_harvest : (s.setChan k f).harvest = s.harvest := rfl
@[simp] theorem State.setChan_quals : (s.setChan k f).quals = s.quals := rfl
@[simp] theorem State.setChan_doms : (s.setChan k f).doms = s.doms := rfl
@[simp] theorem State.setChan_syns : (s.setChan k f).syns = s.syns := rfl
@[simp] theorem State.setChan_outs : (s.setChan k f).outs = s.outs := rfl
@[simp] theorem State.setChan_time : (s.setChan k f).time = s.time := rfl
@[simp] theorem State.setChan_links : (s.setChan k f).links = s.links := rfl
@[simp] theorem State.setChan_board : (s.setChan k f).board = s.board := rfl
@[simp] theorem State.setChan_pair : (s.setChan k f).pair = s.pair := rfl
@[simp] theorem State.setChan_svc : (s.setChan k f).svc = s.svc := rfl
@[simp] theorem State.setChan_budget : (s.setChan k f).budget = s.budget := rfl
@[simp] theorem State.setChan_irq : (s.setChan k f).irq = s.irq := rfl
@[simp] theorem State.setChan_fault : (s.setChan k f).fault = s.fault := rfl
@[simp] theorem State.setChan_nv : (s.setChan k f).nv = s.nv := rfl
@[simp] theorem State.setChan_sec : (s.setChan k f).sec = s.sec := rfl
@[simp] theorem State.setChan_boot : (s.setChan k f).boot = s.boot := rfl
end

/-! ### setTim -/

section
variable (k : Nat) (f : Tim → Tim)
@[simp] theorem State.setTim_pending : (s.setTim k f).pending = s.pending := rfl
@[simp] theorem State.setTim_free : (s.setTim k f).free = s.free := rfl
@[simp] theorem State.setTim_sys : (s.setTim k f).sys = s.sys := rfl
@[simp] theorem State.setTim_active : (s.setTim k f).active = s.active := rfl
@[simp] theorem State.setTim_shadow : (s.setTim k f).shadow = s.shadow := rfl
@[simp] theorem State.setTim_direct : (s.setTim k f).direct = s.direct := rfl
@[simp] theorem State.setTim_ctr : (s.setTim k f).ctr = s.ctr := rfl
@[simp] theorem State.setTim_pages : (s.setTim k f).pages = s.pages := rfl
@[simp] theorem State.setTim_osc : (s.setTim k f).osc = s.osc := rfl
@[simp] theorem State.setTim_chans : (s.setTim k f).chans = s.chans := rfl
@[simp] theorem State.setTim_harvest : (s.setTim k f).harvest = s.harvest := rfl
@[simp] theorem State.setTim_quals : (s.setTim k f).quals = s.quals := rfl
@[simp] theorem State.setTim_doms : (s.setTim k f).doms = s.doms := rfl
@[simp] theorem State.setTim_syns : (s.setTim k f).syns = s.syns := rfl
@[simp] theorem State.setTim_outs : (s.setTim k f).outs = s.outs := rfl
@[simp] theorem State.setTim_time : (s.setTim k f).time = s.time := rfl
@[simp] theorem State.setTim_links : (s.setTim k f).links = s.links := rfl
@[simp] theorem State.setTim_board : (s.setTim k f).board = s.board := rfl
@[simp] theorem State.setTim_pair : (s.setTim k f).pair = s.pair := rfl
@[simp] theorem State.setTim_svc : (s.setTim k f).svc = s.svc := rfl
@[simp] theorem State.setTim_budget : (s.setTim k f).budget = s.budget := rfl
@[simp] theorem State.setTim_irq : (s.setTim k f).irq = s.irq := rfl
@[simp] theorem State.setTim_fault : (s.setTim k f).fault = s.fault := rfl
@[simp] theorem State.setTim_nv : (s.setTim k f).nv = s.nv := rfl
@[simp] theorem State.setTim_sec : (s.setTim k f).sec = s.sec := rfl
@[simp] theorem State.setTim_boot : (s.setTim k f).boot = s.boot := rfl
end

/-! ### setQual -/

section
variable (k : Nat) (f : Qual → Qual)
@[simp] theorem State.setQual_pending : (s.setQual k f).pending = s.pending := rfl
@[simp] theorem State.setQual_free : (s.setQual k f).free = s.free := rfl
@[simp] theorem State.setQual_sys : (s.setQual k f).sys = s.sys := rfl
@[simp] theorem State.setQual_active : (s.setQual k f).active = s.active := rfl
@[simp] theorem State.setQual_shadow : (s.setQual k f).shadow = s.shadow := rfl
@[simp] theorem State.setQual_direct : (s.setQual k f).direct = s.direct := rfl
@[simp] theorem State.setQual_ctr : (s.setQual k f).ctr = s.ctr := rfl
@[simp] theorem State.setQual_pages : (s.setQual k f).pages = s.pages := rfl
@[simp] theorem State.setQual_osc : (s.setQual k f).osc = s.osc := rfl
@[simp] theorem State.setQual_chans : (s.setQual k f).chans = s.chans := rfl
@[simp] theorem State.setQual_tims : (s.setQual k f).tims = s.tims := rfl
@[simp] theorem State.setQual_harvest : (s.setQual k f).harvest = s.harvest := rfl
@[simp] theorem State.setQual_doms : (s.setQual k f).doms = s.doms := rfl
@[simp] theorem State.setQual_syns : (s.setQual k f).syns = s.syns := rfl
@[simp] theorem State.setQual_outs : (s.setQual k f).outs = s.outs := rfl
@[simp] theorem State.setQual_time : (s.setQual k f).time = s.time := rfl
@[simp] theorem State.setQual_links : (s.setQual k f).links = s.links := rfl
@[simp] theorem State.setQual_board : (s.setQual k f).board = s.board := rfl
@[simp] theorem State.setQual_pair : (s.setQual k f).pair = s.pair := rfl
@[simp] theorem State.setQual_svc : (s.setQual k f).svc = s.svc := rfl
@[simp] theorem State.setQual_budget : (s.setQual k f).budget = s.budget := rfl
@[simp] theorem State.setQual_irq : (s.setQual k f).irq = s.irq := rfl
@[simp] theorem State.setQual_fault : (s.setQual k f).fault = s.fault := rfl
@[simp] theorem State.setQual_nv : (s.setQual k f).nv = s.nv := rfl
@[simp] theorem State.setQual_sec : (s.setQual k f).sec = s.sec := rfl
@[simp] theorem State.setQual_boot : (s.setQual k f).boot = s.boot := rfl
end

/-! ### setDom -/

section
variable (k : Nat) (f : Dom → Dom)
@[simp] theorem State.setDom_pending : (s.setDom k f).pending = s.pending := rfl
@[simp] theorem State.setDom_free : (s.setDom k f).free = s.free := rfl
@[simp] theorem State.setDom_sys : (s.setDom k f).sys = s.sys := rfl
@[simp] theorem State.setDom_active : (s.setDom k f).active = s.active := rfl
@[simp] theorem State.setDom_shadow : (s.setDom k f).shadow = s.shadow := rfl
@[simp] theorem State.setDom_direct : (s.setDom k f).direct = s.direct := rfl
@[simp] theorem State.setDom_ctr : (s.setDom k f).ctr = s.ctr := rfl
@[simp] theorem State.setDom_pages : (s.setDom k f).pages = s.pages := rfl
@[simp] theorem State.setDom_osc : (s.setDom k f).osc = s.osc := rfl
@[simp] theorem State.setDom_chans : (s.setDom k f).chans = s.chans := rfl
@[simp] theorem State.setDom_tims : (s.setDom k f).tims = s.tims := rfl
@[simp] theorem State.setDom_harvest : (s.setDom k f).harvest = s.harvest := rfl
@[simp] theorem State.setDom_quals : (s.setDom k f).quals = s.quals := rfl
@[simp] theorem State.setDom_syns : (s.setDom k f).syns = s.syns := rfl
@[simp] theorem State.setDom_outs : (s.setDom k f).outs = s.outs := rfl
@[simp] theorem State.setDom_time : (s.setDom k f).time = s.time := rfl
@[simp] theorem State.setDom_links : (s.setDom k f).links = s.links := rfl
@[simp] theorem State.setDom_board : (s.setDom k f).board = s.board := rfl
@[simp] theorem State.setDom_pair : (s.setDom k f).pair = s.pair := rfl
@[simp] theorem State.setDom_svc : (s.setDom k f).svc = s.svc := rfl
@[simp] theorem State.setDom_budget : (s.setDom k f).budget = s.budget := rfl
@[simp] theorem State.setDom_irq : (s.setDom k f).irq = s.irq := rfl
@[simp] theorem State.setDom_fault : (s.setDom k f).fault = s.fault := rfl
@[simp] theorem State.setDom_nv : (s.setDom k f).nv = s.nv := rfl
@[simp] theorem State.setDom_sec : (s.setDom k f).sec = s.sec := rfl
@[simp] theorem State.setDom_boot : (s.setDom k f).boot = s.boot := rfl
end

/-! ### setSyn -/

section
variable (k : Nat) (f : Syn → Syn)
@[simp] theorem State.setSyn_pending : (s.setSyn k f).pending = s.pending := rfl
@[simp] theorem State.setSyn_free : (s.setSyn k f).free = s.free := rfl
@[simp] theorem State.setSyn_sys : (s.setSyn k f).sys = s.sys := rfl
@[simp] theorem State.setSyn_active : (s.setSyn k f).active = s.active := rfl
@[simp] theorem State.setSyn_shadow : (s.setSyn k f).shadow = s.shadow := rfl
@[simp] theorem State.setSyn_direct : (s.setSyn k f).direct = s.direct := rfl
@[simp] theorem State.setSyn_ctr : (s.setSyn k f).ctr = s.ctr := rfl
@[simp] theorem State.setSyn_pages : (s.setSyn k f).pages = s.pages := rfl
@[simp] theorem State.setSyn_osc : (s.setSyn k f).osc = s.osc := rfl
@[simp] theorem State.setSyn_chans : (s.setSyn k f).chans = s.chans := rfl
@[simp] theorem State.setSyn_tims : (s.setSyn k f).tims = s.tims := rfl
@[simp] theorem State.setSyn_harvest : (s.setSyn k f).harvest = s.harvest := rfl
@[simp] theorem State.setSyn_quals : (s.setSyn k f).quals = s.quals := rfl
@[simp] theorem State.setSyn_doms : (s.setSyn k f).doms = s.doms := rfl
@[simp] theorem State.setSyn_outs : (s.setSyn k f).outs = s.outs := rfl
@[simp] theorem State.setSyn_time : (s.setSyn k f).time = s.time := rfl
@[simp] theorem State.setSyn_links : (s.setSyn k f).links = s.links := rfl
@[simp] theorem State.setSyn_board : (s.setSyn k f).board = s.board := rfl
@[simp] theorem State.setSyn_pair : (s.setSyn k f).pair = s.pair := rfl
@[simp] theorem State.setSyn_svc : (s.setSyn k f).svc = s.svc := rfl
@[simp] theorem State.setSyn_budget : (s.setSyn k f).budget = s.budget := rfl
@[simp] theorem State.setSyn_irq : (s.setSyn k f).irq = s.irq := rfl
@[simp] theorem State.setSyn_fault : (s.setSyn k f).fault = s.fault := rfl
@[simp] theorem State.setSyn_nv : (s.setSyn k f).nv = s.nv := rfl
@[simp] theorem State.setSyn_sec : (s.setSyn k f).sec = s.sec := rfl
@[simp] theorem State.setSyn_boot : (s.setSyn k f).boot = s.boot := rfl
end

/-! ### setOut -/

section
variable (k : Nat) (f : Out → Out)
@[simp] theorem State.setOut_pending : (s.setOut k f).pending = s.pending := rfl
@[simp] theorem State.setOut_free : (s.setOut k f).free = s.free := rfl
@[simp] theorem State.setOut_sys : (s.setOut k f).sys = s.sys := rfl
@[simp] theorem State.setOut_active : (s.setOut k f).active = s.active := rfl
@[simp] theorem State.setOut_shadow : (s.setOut k f).shadow = s.shadow := rfl
@[simp] theorem State.setOut_direct : (s.setOut k f).direct = s.direct := rfl
@[simp] theorem State.setOut_ctr : (s.setOut k f).ctr = s.ctr := rfl
@[simp] theorem State.setOut_pages : (s.setOut k f).pages = s.pages := rfl
@[simp] theorem State.setOut_osc : (s.setOut k f).osc = s.osc := rfl
@[simp] theorem State.setOut_chans : (s.setOut k f).chans = s.chans := rfl
@[simp] theorem State.setOut_tims : (s.setOut k f).tims = s.tims := rfl
@[simp] theorem State.setOut_harvest : (s.setOut k f).harvest = s.harvest := rfl
@[simp] theorem State.setOut_quals : (s.setOut k f).quals = s.quals := rfl
@[simp] theorem State.setOut_doms : (s.setOut k f).doms = s.doms := rfl
@[simp] theorem State.setOut_syns : (s.setOut k f).syns = s.syns := rfl
@[simp] theorem State.setOut_time : (s.setOut k f).time = s.time := rfl
@[simp] theorem State.setOut_links : (s.setOut k f).links = s.links := rfl
@[simp] theorem State.setOut_board : (s.setOut k f).board = s.board := rfl
@[simp] theorem State.setOut_pair : (s.setOut k f).pair = s.pair := rfl
@[simp] theorem State.setOut_svc : (s.setOut k f).svc = s.svc := rfl
@[simp] theorem State.setOut_budget : (s.setOut k f).budget = s.budget := rfl
@[simp] theorem State.setOut_irq : (s.setOut k f).irq = s.irq := rfl
@[simp] theorem State.setOut_fault : (s.setOut k f).fault = s.fault := rfl
@[simp] theorem State.setOut_nv : (s.setOut k f).nv = s.nv := rfl
@[simp] theorem State.setOut_sec : (s.setOut k f).sec = s.sec := rfl
@[simp] theorem State.setOut_boot : (s.setOut k f).boot = s.boot := rfl
end

/-! ### setLink -/

section
variable (k : Nat) (f : Link → Link)
@[simp] theorem State.setLink_pending : (s.setLink k f).pending = s.pending := rfl
@[simp] theorem State.setLink_free : (s.setLink k f).free = s.free := rfl
@[simp] theorem State.setLink_sys : (s.setLink k f).sys = s.sys := rfl
@[simp] theorem State.setLink_active : (s.setLink k f).active = s.active := rfl
@[simp] theorem State.setLink_shadow : (s.setLink k f).shadow = s.shadow := rfl
@[simp] theorem State.setLink_direct : (s.setLink k f).direct = s.direct := rfl
@[simp] theorem State.setLink_ctr : (s.setLink k f).ctr = s.ctr := rfl
@[simp] theorem State.setLink_pages : (s.setLink k f).pages = s.pages := rfl
@[simp] theorem State.setLink_osc : (s.setLink k f).osc = s.osc := rfl
@[simp] theorem State.setLink_chans : (s.setLink k f).chans = s.chans := rfl
@[simp] theorem State.setLink_tims : (s.setLink k f).tims = s.tims := rfl
@[simp] theorem State.setLink_harvest : (s.setLink k f).harvest = s.harvest := rfl
@[simp] theorem State.setLink_quals : (s.setLink k f).quals = s.quals := rfl
@[simp] theorem State.setLink_doms : (s.setLink k f).doms = s.doms := rfl
@[simp] theorem State.setLink_syns : (s.setLink k f).syns = s.syns := rfl
@[simp] theorem State.setLink_outs : (s.setLink k f).outs = s.outs := rfl
@[simp] theorem State.setLink_time : (s.setLink k f).time = s.time := rfl
@[simp] theorem State.setLink_board : (s.setLink k f).board = s.board := rfl
@[simp] theorem State.setLink_pair : (s.setLink k f).pair = s.pair := rfl
@[simp] theorem State.setLink_svc : (s.setLink k f).svc = s.svc := rfl
@[simp] theorem State.setLink_budget : (s.setLink k f).budget = s.budget := rfl
@[simp] theorem State.setLink_irq : (s.setLink k f).irq = s.irq := rfl
@[simp] theorem State.setLink_fault : (s.setLink k f).fault = s.fault := rfl
@[simp] theorem State.setLink_nv : (s.setLink k f).nv = s.nv := rfl
@[simp] theorem State.setLink_sec : (s.setLink k f).sec = s.sec := rfl
@[simp] theorem State.setLink_boot : (s.setLink k f).boot = s.boot := rfl
end

/-! ### setTdom -/

section
variable (k : Nat) (f : TimeDom → TimeDom)
@[simp] theorem State.setTdom_pending : (s.setTdom k f).pending = s.pending := rfl
@[simp] theorem State.setTdom_free : (s.setTdom k f).free = s.free := rfl
@[simp] theorem State.setTdom_sys : (s.setTdom k f).sys = s.sys := rfl
@[simp] theorem State.setTdom_active : (s.setTdom k f).active = s.active := rfl
@[simp] theorem State.setTdom_shadow : (s.setTdom k f).shadow = s.shadow := rfl
@[simp] theorem State.setTdom_direct : (s.setTdom k f).direct = s.direct := rfl
@[simp] theorem State.setTdom_ctr : (s.setTdom k f).ctr = s.ctr := rfl
@[simp] theorem State.setTdom_pages : (s.setTdom k f).pages = s.pages := rfl
@[simp] theorem State.setTdom_osc : (s.setTdom k f).osc = s.osc := rfl
@[simp] theorem State.setTdom_chans : (s.setTdom k f).chans = s.chans := rfl
@[simp] theorem State.setTdom_tims : (s.setTdom k f).tims = s.tims := rfl
@[simp] theorem State.setTdom_harvest : (s.setTdom k f).harvest = s.harvest := rfl
@[simp] theorem State.setTdom_quals : (s.setTdom k f).quals = s.quals := rfl
@[simp] theorem State.setTdom_doms : (s.setTdom k f).doms = s.doms := rfl
@[simp] theorem State.setTdom_syns : (s.setTdom k f).syns = s.syns := rfl
@[simp] theorem State.setTdom_outs : (s.setTdom k f).outs = s.outs := rfl
@[simp] theorem State.setTdom_links : (s.setTdom k f).links = s.links := rfl
@[simp] theorem State.setTdom_board : (s.setTdom k f).board = s.board := rfl
@[simp] theorem State.setTdom_pair : (s.setTdom k f).pair = s.pair := rfl
@[simp] theorem State.setTdom_svc : (s.setTdom k f).svc = s.svc := rfl
@[simp] theorem State.setTdom_budget : (s.setTdom k f).budget = s.budget := rfl
@[simp] theorem State.setTdom_irq : (s.setTdom k f).irq = s.irq := rfl
@[simp] theorem State.setTdom_fault : (s.setTdom k f).fault = s.fault := rfl
@[simp] theorem State.setTdom_nv : (s.setTdom k f).nv = s.nv := rfl
@[simp] theorem State.setTdom_sec : (s.setTdom k f).sec = s.sec := rfl
@[simp] theorem State.setTdom_boot : (s.setTdom k f).boot = s.boot := rfl
end

/-! ### setCell -/

section
variable (k : Nat) (f : Cell → Cell)
@[simp] theorem State.setCell_pending : (s.setCell k f).pending = s.pending := rfl
@[simp] theorem State.setCell_free : (s.setCell k f).free = s.free := rfl
@[simp] theorem State.setCell_sys : (s.setCell k f).sys = s.sys := rfl
@[simp] theorem State.setCell_active : (s.setCell k f).active = s.active := rfl
@[simp] theorem State.setCell_shadow : (s.setCell k f).shadow = s.shadow := rfl
@[simp] theorem State.setCell_direct : (s.setCell k f).direct = s.direct := rfl
@[simp] theorem State.setCell_ctr : (s.setCell k f).ctr = s.ctr := rfl
@[simp] theorem State.setCell_pages : (s.setCell k f).pages = s.pages := rfl
@[simp] theorem State.setCell_osc : (s.setCell k f).osc = s.osc := rfl
@[simp] theorem State.setCell_chans : (s.setCell k f).chans = s.chans := rfl
@[simp] theorem State.setCell_tims : (s.setCell k f).tims = s.tims := rfl
@[simp] theorem State.setCell_harvest : (s.setCell k f).harvest = s.harvest := rfl
@[simp] theorem State.setCell_quals : (s.setCell k f).quals = s.quals := rfl
@[simp] theorem State.setCell_doms : (s.setCell k f).doms = s.doms := rfl
@[simp] theorem State.setCell_syns : (s.setCell k f).syns = s.syns := rfl
@[simp] theorem State.setCell_outs : (s.setCell k f).outs = s.outs := rfl
@[simp] theorem State.setCell_time : (s.setCell k f).time = s.time := rfl
@[simp] theorem State.setCell_links : (s.setCell k f).links = s.links := rfl
@[simp] theorem State.setCell_pair : (s.setCell k f).pair = s.pair := rfl
@[simp] theorem State.setCell_svc : (s.setCell k f).svc = s.svc := rfl
@[simp] theorem State.setCell_budget : (s.setCell k f).budget = s.budget := rfl
@[simp] theorem State.setCell_irq : (s.setCell k f).irq = s.irq := rfl
@[simp] theorem State.setCell_fault : (s.setCell k f).fault = s.fault := rfl
@[simp] theorem State.setCell_nv : (s.setCell k f).nv = s.nv := rfl
@[simp] theorem State.setCell_sec : (s.setCell k f).sec = s.sec := rfl
@[simp] theorem State.setCell_boot : (s.setCell k f).boot = s.boot := rfl
end

/-! ### setClient -/

section
variable (k : Nat) (f : Client → Client)
@[simp] theorem State.setClient_pending : (s.setClient k f).pending = s.pending := rfl
@[simp] theorem State.setClient_free : (s.setClient k f).free = s.free := rfl
@[simp] theorem State.setClient_sys : (s.setClient k f).sys = s.sys := rfl
@[simp] theorem State.setClient_active : (s.setClient k f).active = s.active := rfl
@[simp] theorem State.setClient_shadow : (s.setClient k f).shadow = s.shadow := rfl
@[simp] theorem State.setClient_direct : (s.setClient k f).direct = s.direct := rfl
@[simp] theorem State.setClient_ctr : (s.setClient k f).ctr = s.ctr := rfl
@[simp] theorem State.setClient_pages : (s.setClient k f).pages = s.pages := rfl
@[simp] theorem State.setClient_osc : (s.setClient k f).osc = s.osc := rfl
@[simp] theorem State.setClient_chans : (s.setClient k f).chans = s.chans := rfl
@[simp] theorem State.setClient_tims : (s.setClient k f).tims = s.tims := rfl
@[simp] theorem State.setClient_harvest : (s.setClient k f).harvest = s.harvest := rfl
@[simp] theorem State.setClient_quals : (s.setClient k f).quals = s.quals := rfl
@[simp] theorem State.setClient_doms : (s.setClient k f).doms = s.doms := rfl
@[simp] theorem State.setClient_syns : (s.setClient k f).syns = s.syns := rfl
@[simp] theorem State.setClient_outs : (s.setClient k f).outs = s.outs := rfl
@[simp] theorem State.setClient_time : (s.setClient k f).time = s.time := rfl
@[simp] theorem State.setClient_links : (s.setClient k f).links = s.links := rfl
@[simp] theorem State.setClient_board : (s.setClient k f).board = s.board := rfl
@[simp] theorem State.setClient_pair : (s.setClient k f).pair = s.pair := rfl
@[simp] theorem State.setClient_budget : (s.setClient k f).budget = s.budget := rfl
@[simp] theorem State.setClient_irq : (s.setClient k f).irq = s.irq := rfl
@[simp] theorem State.setClient_fault : (s.setClient k f).fault = s.fault := rfl
@[simp] theorem State.setClient_nv : (s.setClient k f).nv = s.nv := rfl
@[simp] theorem State.setClient_sec : (s.setClient k f).sec = s.sec := rfl
@[simp] theorem State.setClient_boot : (s.setClient k f).boot = s.boot := rfl
end

/-! ### setPort -/

section
variable (k : Nat) (f : Port → Port)
@[simp] theorem State.setPort_pending : (s.setPort k f).pending = s.pending := rfl
@[simp] theorem State.setPort_free : (s.setPort k f).free = s.free := rfl
@[simp] theorem State.setPort_sys : (s.setPort k f).sys = s.sys := rfl
@[simp] theorem State.setPort_active : (s.setPort k f).active = s.active := rfl
@[simp] theorem State.setPort_shadow : (s.setPort k f).shadow = s.shadow := rfl
@[simp] theorem State.setPort_direct : (s.setPort k f).direct = s.direct := rfl
@[simp] theorem State.setPort_ctr : (s.setPort k f).ctr = s.ctr := rfl
@[simp] theorem State.setPort_pages : (s.setPort k f).pages = s.pages := rfl
@[simp] theorem State.setPort_osc : (s.setPort k f).osc = s.osc := rfl
@[simp] theorem State.setPort_chans : (s.setPort k f).chans = s.chans := rfl
@[simp] theorem State.setPort_tims : (s.setPort k f).tims = s.tims := rfl
@[simp] theorem State.setPort_harvest : (s.setPort k f).harvest = s.harvest := rfl
@[simp] theorem State.setPort_quals : (s.setPort k f).quals = s.quals := rfl
@[simp] theorem State.setPort_doms : (s.setPort k f).doms = s.doms := rfl
@[simp] theorem State.setPort_syns : (s.setPort k f).syns = s.syns := rfl
@[simp] theorem State.setPort_outs : (s.setPort k f).outs = s.outs := rfl
@[simp] theorem State.setPort_time : (s.setPort k f).time = s.time := rfl
@[simp] theorem State.setPort_links : (s.setPort k f).links = s.links := rfl
@[simp] theorem State.setPort_board : (s.setPort k f).board = s.board := rfl
@[simp] theorem State.setPort_pair : (s.setPort k f).pair = s.pair := rfl
@[simp] theorem State.setPort_budget : (s.setPort k f).budget = s.budget := rfl
@[simp] theorem State.setPort_irq : (s.setPort k f).irq = s.irq := rfl
@[simp] theorem State.setPort_fault : (s.setPort k f).fault = s.fault := rfl
@[simp] theorem State.setPort_nv : (s.setPort k f).nv = s.nv := rfl
@[simp] theorem State.setPort_sec : (s.setPort k f).sec = s.sec := rfl
@[simp] theorem State.setPort_boot : (s.setPort k f).boot = s.boot := rfl
end

/-! ### setGrant -/

section
variable (k : Nat) (g : Option Grant)
@[simp] theorem State.setGrant_pending : (s.setGrant k g).pending = s.pending := rfl
@[simp] theorem State.setGrant_free : (s.setGrant k g).free = s.free := rfl
@[simp] theorem State.setGrant_sys : (s.setGrant k g).sys = s.sys := rfl
@[simp] theorem State.setGrant_active : (s.setGrant k g).active = s.active := rfl
@[simp] theorem State.setGrant_shadow : (s.setGrant k g).shadow = s.shadow := rfl
@[simp] theorem State.setGrant_direct : (s.setGrant k g).direct = s.direct := rfl
@[simp] theorem State.setGrant_ctr : (s.setGrant k g).ctr = s.ctr := rfl
@[simp] theorem State.setGrant_pages : (s.setGrant k g).pages = s.pages := rfl
@[simp] theorem State.setGrant_osc : (s.setGrant k g).osc = s.osc := rfl
@[simp] theorem State.setGrant_chans : (s.setGrant k g).chans = s.chans := rfl
@[simp] theorem State.setGrant_tims : (s.setGrant k g).tims = s.tims := rfl
@[simp] theorem State.setGrant_harvest : (s.setGrant k g).harvest = s.harvest := rfl
@[simp] theorem State.setGrant_quals : (s.setGrant k g).quals = s.quals := rfl
@[simp] theorem State.setGrant_doms : (s.setGrant k g).doms = s.doms := rfl
@[simp] theorem State.setGrant_syns : (s.setGrant k g).syns = s.syns := rfl
@[simp] theorem State.setGrant_outs : (s.setGrant k g).outs = s.outs := rfl
@[simp] theorem State.setGrant_time : (s.setGrant k g).time = s.time := rfl
@[simp] theorem State.setGrant_links : (s.setGrant k g).links = s.links := rfl
@[simp] theorem State.setGrant_board : (s.setGrant k g).board = s.board := rfl
@[simp] theorem State.setGrant_pair : (s.setGrant k g).pair = s.pair := rfl
@[simp] theorem State.setGrant_budget : (s.setGrant k g).budget = s.budget := rfl
@[simp] theorem State.setGrant_irq : (s.setGrant k g).irq = s.irq := rfl
@[simp] theorem State.setGrant_fault : (s.setGrant k g).fault = s.fault := rfl
@[simp] theorem State.setGrant_nv : (s.setGrant k g).nv = s.nv := rfl
@[simp] theorem State.setGrant_sec : (s.setGrant k g).sec = s.sec := rfl
@[simp] theorem State.setGrant_boot : (s.setGrant k g).boot = s.boot := rfl
end

/-! ### addCtr -/

section
variable (p o n : Nat)
@[simp] theorem State.addCtr_pending : (s.addCtr p o n).pending = s.pending := rfl
@[simp] theorem State.addCtr_free : (s.addCtr p o n).free = s.free := rfl
@[simp] theorem State.addCtr_sys : (s.addCtr p o n).sys = s.sys := rfl
@[simp] theorem State.addCtr_active : (s.addCtr p o n).active = s.active := rfl
@[simp] theorem State.addCtr_shadow : (s.addCtr p o n).shadow = s.shadow := rfl
@[simp] theorem State.addCtr_direct : (s.addCtr p o n).direct = s.direct := rfl
@[simp] theorem State.addCtr_pages : (s.addCtr p o n).pages = s.pages := rfl
@[simp] theorem State.addCtr_osc : (s.addCtr p o n).osc = s.osc := rfl
@[simp] theorem State.addCtr_chans : (s.addCtr p o n).chans = s.chans := rfl
@[simp] theorem State.addCtr_tims : (s.addCtr p o n).tims = s.tims := rfl
@[simp] theorem State.addCtr_harvest : (s.addCtr p o n).harvest = s.harvest := rfl
@[simp] theorem State.addCtr_quals : (s.addCtr p o n).quals = s.quals := rfl
@[simp] theorem State.addCtr_doms : (s.addCtr p o n).doms = s.doms := rfl
@[simp] theorem State.addCtr_syns : (s.addCtr p o n).syns = s.syns := rfl
@[simp] theorem State.addCtr_outs : (s.addCtr p o n).outs = s.outs := rfl
@[simp] theorem State.addCtr_time : (s.addCtr p o n).time = s.time := rfl
@[simp] theorem State.addCtr_links : (s.addCtr p o n).links = s.links := rfl
@[simp] theorem State.addCtr_board : (s.addCtr p o n).board = s.board := rfl
@[simp] theorem State.addCtr_pair : (s.addCtr p o n).pair = s.pair := rfl
@[simp] theorem State.addCtr_svc : (s.addCtr p o n).svc = s.svc := rfl
@[simp] theorem State.addCtr_budget : (s.addCtr p o n).budget = s.budget := rfl
@[simp] theorem State.addCtr_irq : (s.addCtr p o n).irq = s.irq := rfl
@[simp] theorem State.addCtr_fault : (s.addCtr p o n).fault = s.fault := rfl
@[simp] theorem State.addCtr_nv : (s.addCtr p o n).nv = s.nv := rfl
@[simp] theorem State.addCtr_sec : (s.addCtr p o n).sec = s.sec := rfl
@[simp] theorem State.addCtr_boot : (s.addCtr p o n).boot = s.boot := rfl
end

/-! ### bump -/

section
variable (p o : Nat)
@[simp] theorem State.bump_pending : (s.bump p o).pending = s.pending := rfl
@[simp] theorem State.bump_free : (s.bump p o).free = s.free := rfl
@[simp] theorem State.bump_sys : (s.bump p o).sys = s.sys := rfl
@[simp] theorem State.bump_active : (s.bump p o).active = s.active := rfl
@[simp] theorem State.bump_shadow : (s.bump p o).shadow = s.shadow := rfl
@[simp] theorem State.bump_direct : (s.bump p o).direct = s.direct := rfl
@[simp] theorem State.bump_pages : (s.bump p o).pages = s.pages := rfl
@[simp] theorem State.bump_osc : (s.bump p o).osc = s.osc := rfl
@[simp] theorem State.bump_chans : (s.bump p o).chans = s.chans := rfl
@[simp] theorem State.bump_tims : (s.bump p o).tims = s.tims := rfl
@[simp] theorem State.bump_harvest : (s.bump p o).harvest = s.harvest := rfl
@[simp] theorem State.bump_quals : (s.bump p o).quals = s.quals := rfl
@[simp] theorem State.bump_doms : (s.bump p o).doms = s.doms := rfl
@[simp] theorem State.bump_syns : (s.bump p o).syns = s.syns := rfl
@[simp] theorem State.bump_outs : (s.bump p o).outs = s.outs := rfl
@[simp] theorem State.bump_time : (s.bump p o).time = s.time := rfl
@[simp] theorem State.bump_links : (s.bump p o).links = s.links := rfl
@[simp] theorem State.bump_board : (s.bump p o).board = s.board := rfl
@[simp] theorem State.bump_pair : (s.bump p o).pair = s.pair := rfl
@[simp] theorem State.bump_svc : (s.bump p o).svc = s.svc := rfl
@[simp] theorem State.bump_budget : (s.bump p o).budget = s.budget := rfl
@[simp] theorem State.bump_irq : (s.bump p o).irq = s.irq := rfl
@[simp] theorem State.bump_fault : (s.bump p o).fault = s.fault := rfl
@[simp] theorem State.bump_nv : (s.bump p o).nv = s.nv := rfl
@[simp] theorem State.bump_sec : (s.bump p o).sec = s.sec := rfl
@[simp] theorem State.bump_boot : (s.bump p o).boot = s.boot := rfl
end

/-! ### nextFree -/

@[simp] theorem State.nextFree_pending : (s.nextFree).pending = s.pending := rfl
@[simp] theorem State.nextFree_sys : (s.nextFree).sys = s.sys := rfl
@[simp] theorem State.nextFree_active : (s.nextFree).active = s.active := rfl
@[simp] theorem State.nextFree_shadow : (s.nextFree).shadow = s.shadow := rfl
@[simp] theorem State.nextFree_direct : (s.nextFree).direct = s.direct := rfl
@[simp] theorem State.nextFree_ctr : (s.nextFree).ctr = s.ctr := rfl
@[simp] theorem State.nextFree_pages : (s.nextFree).pages = s.pages := rfl
@[simp] theorem State.nextFree_osc : (s.nextFree).osc = s.osc := rfl
@[simp] theorem State.nextFree_chans : (s.nextFree).chans = s.chans := rfl
@[simp] theorem State.nextFree_tims : (s.nextFree).tims = s.tims := rfl
@[simp] theorem State.nextFree_harvest : (s.nextFree).harvest = s.harvest := rfl
@[simp] theorem State.nextFree_quals : (s.nextFree).quals = s.quals := rfl
@[simp] theorem State.nextFree_doms : (s.nextFree).doms = s.doms := rfl
@[simp] theorem State.nextFree_syns : (s.nextFree).syns = s.syns := rfl
@[simp] theorem State.nextFree_outs : (s.nextFree).outs = s.outs := rfl
@[simp] theorem State.nextFree_time : (s.nextFree).time = s.time := rfl
@[simp] theorem State.nextFree_links : (s.nextFree).links = s.links := rfl
@[simp] theorem State.nextFree_board : (s.nextFree).board = s.board := rfl
@[simp] theorem State.nextFree_pair : (s.nextFree).pair = s.pair := rfl
@[simp] theorem State.nextFree_svc : (s.nextFree).svc = s.svc := rfl
@[simp] theorem State.nextFree_budget : (s.nextFree).budget = s.budget := rfl
@[simp] theorem State.nextFree_irq : (s.nextFree).irq = s.irq := rfl
@[simp] theorem State.nextFree_fault : (s.nextFree).fault = s.fault := rfl
@[simp] theorem State.nextFree_nv : (s.nextFree).nv = s.nv := rfl
@[simp] theorem State.nextFree_sec : (s.nextFree).sec = s.sec := rfl
@[simp] theorem State.nextFree_boot : (s.nextFree).boot = s.boot := rfl

/-! ### event -/

section
variable (p b : Nat)
@[simp] theorem State.event_pending : (s.event p b).pending = s.pending := rfl
@[simp] theorem State.event_free : (s.event p b).free = s.free := rfl
@[simp] theorem State.event_sys : (s.event p b).sys = s.sys := rfl
@[simp] theorem State.event_active : (s.event p b).active = s.active := rfl
@[simp] theorem State.event_shadow : (s.event p b).shadow = s.shadow := rfl
@[simp] theorem State.event_direct : (s.event p b).direct = s.direct := rfl
@[simp] theorem State.event_ctr : (s.event p b).ctr = s.ctr := rfl
@[simp] theorem State.event_osc : (s.event p b).osc = s.osc := rfl
@[simp] theorem State.event_chans : (s.event p b).chans = s.chans := rfl
@[simp] theorem State.event_tims : (s.event p b).tims = s.tims := rfl
@[simp] theorem State.event_harvest : (s.event p b).harvest = s.harvest := rfl
@[simp] theorem State.event_quals : (s.event p b).quals = s.quals := rfl
@[simp] theorem State.event_doms : (s.event p b).doms = s.doms := rfl
@[simp] theorem State.event_syns : (s.event p b).syns = s.syns := rfl
@[simp] theorem State.event_outs : (s.event p b).outs = s.outs := rfl
@[simp] theorem State.event_time : (s.event p b).time = s.time := rfl
@[simp] theorem State.event_links : (s.event p b).links = s.links := rfl
@[simp] theorem State.event_board : (s.event p b).board = s.board := rfl
@[simp] theorem State.event_pair : (s.event p b).pair = s.pair := rfl
@[simp] theorem State.event_svc : (s.event p b).svc = s.svc := rfl
@[simp] theorem State.event_budget : (s.event p b).budget = s.budget := rfl
@[simp] theorem State.event_irq : (s.event p b).irq = s.irq := rfl
@[simp] theorem State.event_fault : (s.event p b).fault = s.fault := rfl
@[simp] theorem State.event_nv : (s.event p b).nv = s.nv := rfl
@[simp] theorem State.event_sec : (s.event p b).sec = s.sec := rfl
@[simp] theorem State.event_boot : (s.event p b).boot = s.boot := rfl
end

/-! ### faultBit -/

section
variable (p b : Nat)
@[simp] theorem State.faultBit_pending : (s.faultBit p b).pending = s.pending := rfl
@[simp] theorem State.faultBit_free : (s.faultBit p b).free = s.free := rfl
@[simp] theorem State.faultBit_sys : (s.faultBit p b).sys = s.sys := rfl
@[simp] theorem State.faultBit_active : (s.faultBit p b).active = s.active := rfl
@[simp] theorem State.faultBit_shadow : (s.faultBit p b).shadow = s.shadow := rfl
@[simp] theorem State.faultBit_direct : (s.faultBit p b).direct = s.direct := rfl
@[simp] theorem State.faultBit_ctr : (s.faultBit p b).ctr = s.ctr := rfl
@[simp] theorem State.faultBit_osc : (s.faultBit p b).osc = s.osc := rfl
@[simp] theorem State.faultBit_chans : (s.faultBit p b).chans = s.chans := rfl
@[simp] theorem State.faultBit_tims : (s.faultBit p b).tims = s.tims := rfl
@[simp] theorem State.faultBit_harvest : (s.faultBit p b).harvest = s.harvest := rfl
@[simp] theorem State.faultBit_quals : (s.faultBit p b).quals = s.quals := rfl
@[simp] theorem State.faultBit_doms : (s.faultBit p b).doms = s.doms := rfl
@[simp] theorem State.faultBit_syns : (s.faultBit p b).syns = s.syns := rfl
@[simp] theorem State.faultBit_outs : (s.faultBit p b).outs = s.outs := rfl
@[simp] theorem State.faultBit_time : (s.faultBit p b).time = s.time := rfl
@[simp] theorem State.faultBit_links : (s.faultBit p b).links = s.links := rfl
@[simp] theorem State.faultBit_board : (s.faultBit p b).board = s.board := rfl
@[simp] theorem State.faultBit_pair : (s.faultBit p b).pair = s.pair := rfl
@[simp] theorem State.faultBit_svc : (s.faultBit p b).svc = s.svc := rfl
@[simp] theorem State.faultBit_budget : (s.faultBit p b).budget = s.budget := rfl
@[simp] theorem State.faultBit_irq : (s.faultBit p b).irq = s.irq := rfl
@[simp] theorem State.faultBit_fault : (s.faultBit p b).fault = s.fault := rfl
@[simp] theorem State.faultBit_nv : (s.faultBit p b).nv = s.nv := rfl
@[simp] theorem State.faultBit_sec : (s.faultBit p b).sec = s.sec := rfl
@[simp] theorem State.faultBit_boot : (s.faultBit p b).boot = s.boot := rfl
end

/-! ### latchIrq -/

section
variable (n : Nat)
@[simp] theorem State.latchIrq_pending : (s.latchIrq n).pending = s.pending := rfl
@[simp] theorem State.latchIrq_free : (s.latchIrq n).free = s.free := rfl
@[simp] theorem State.latchIrq_sys : (s.latchIrq n).sys = s.sys := rfl
@[simp] theorem State.latchIrq_active : (s.latchIrq n).active = s.active := rfl
@[simp] theorem State.latchIrq_shadow : (s.latchIrq n).shadow = s.shadow := rfl
@[simp] theorem State.latchIrq_direct : (s.latchIrq n).direct = s.direct := rfl
@[simp] theorem State.latchIrq_ctr : (s.latchIrq n).ctr = s.ctr := rfl
@[simp] theorem State.latchIrq_pages : (s.latchIrq n).pages = s.pages := rfl
@[simp] theorem State.latchIrq_osc : (s.latchIrq n).osc = s.osc := rfl
@[simp] theorem State.latchIrq_chans : (s.latchIrq n).chans = s.chans := rfl
@[simp] theorem State.latchIrq_tims : (s.latchIrq n).tims = s.tims := rfl
@[simp] theorem State.latchIrq_harvest : (s.latchIrq n).harvest = s.harvest := rfl
@[simp] theorem State.latchIrq_quals : (s.latchIrq n).quals = s.quals := rfl
@[simp] theorem State.latchIrq_doms : (s.latchIrq n).doms = s.doms := rfl
@[simp] theorem State.latchIrq_syns : (s.latchIrq n).syns = s.syns := rfl
@[simp] theorem State.latchIrq_outs : (s.latchIrq n).outs = s.outs := rfl
@[simp] theorem State.latchIrq_time : (s.latchIrq n).time = s.time := rfl
@[simp] theorem State.latchIrq_links : (s.latchIrq n).links = s.links := rfl
@[simp] theorem State.latchIrq_board : (s.latchIrq n).board = s.board := rfl
@[simp] theorem State.latchIrq_pair : (s.latchIrq n).pair = s.pair := rfl
@[simp] theorem State.latchIrq_svc : (s.latchIrq n).svc = s.svc := rfl
@[simp] theorem State.latchIrq_budget : (s.latchIrq n).budget = s.budget := rfl
@[simp] theorem State.latchIrq_fault : (s.latchIrq n).fault = s.fault := rfl
@[simp] theorem State.latchIrq_nv : (s.latchIrq n).nv = s.nv := rfl
@[simp] theorem State.latchIrq_sec : (s.latchIrq n).sec = s.sec := rfl
@[simp] theorem State.latchIrq_boot : (s.latchIrq n).boot = s.boot := rfl
end

/-! ### latchFatal -/

@[simp] theorem State.latchFatal_pending : (s.latchFatal).pending = s.pending := rfl
@[simp] theorem State.latchFatal_free : (s.latchFatal).free = s.free := rfl
@[simp] theorem State.latchFatal_sys : (s.latchFatal).sys = s.sys := rfl
@[simp] theorem State.latchFatal_active : (s.latchFatal).active = s.active := rfl
@[simp] theorem State.latchFatal_shadow : (s.latchFatal).shadow = s.shadow := rfl
@[simp] theorem State.latchFatal_direct : (s.latchFatal).direct = s.direct := rfl
@[simp] theorem State.latchFatal_ctr : (s.latchFatal).ctr = s.ctr := rfl
@[simp] theorem State.latchFatal_pages : (s.latchFatal).pages = s.pages := rfl
@[simp] theorem State.latchFatal_osc : (s.latchFatal).osc = s.osc := rfl
@[simp] theorem State.latchFatal_chans : (s.latchFatal).chans = s.chans := rfl
@[simp] theorem State.latchFatal_tims : (s.latchFatal).tims = s.tims := rfl
@[simp] theorem State.latchFatal_harvest : (s.latchFatal).harvest = s.harvest := rfl
@[simp] theorem State.latchFatal_quals : (s.latchFatal).quals = s.quals := rfl
@[simp] theorem State.latchFatal_doms : (s.latchFatal).doms = s.doms := rfl
@[simp] theorem State.latchFatal_syns : (s.latchFatal).syns = s.syns := rfl
@[simp] theorem State.latchFatal_outs : (s.latchFatal).outs = s.outs := rfl
@[simp] theorem State.latchFatal_time : (s.latchFatal).time = s.time := rfl
@[simp] theorem State.latchFatal_links : (s.latchFatal).links = s.links := rfl
@[simp] theorem State.latchFatal_board : (s.latchFatal).board = s.board := rfl
@[simp] theorem State.latchFatal_pair : (s.latchFatal).pair = s.pair := rfl
@[simp] theorem State.latchFatal_svc : (s.latchFatal).svc = s.svc := rfl
@[simp] theorem State.latchFatal_budget : (s.latchFatal).budget = s.budget := rfl
@[simp] theorem State.latchFatal_fault : (s.latchFatal).fault = s.fault := rfl
@[simp] theorem State.latchFatal_nv : (s.latchFatal).nv = s.nv := rfl
@[simp] theorem State.latchFatal_sec : (s.latchFatal).sec = s.sec := rfl
@[simp] theorem State.latchFatal_boot : (s.latchFatal).boot = s.boot := rfl

/-! ### setStaged -/

section
variable (m : Nat) (v : Option Staged)
@[simp] theorem State.setStaged_pending : (s.setStaged m v).pending = s.pending := rfl
@[simp] theorem State.setStaged_free : (s.setStaged m v).free = s.free := rfl
@[simp] theorem State.setStaged_active : (s.setStaged m v).active = s.active := rfl
@[simp] theorem State.setStaged_shadow : (s.setStaged m v).shadow = s.shadow := rfl
@[simp] theorem State.setStaged_direct : (s.setStaged m v).direct = s.direct := rfl
@[simp] theorem State.setStaged_ctr : (s.setStaged m v).ctr = s.ctr := rfl
@[simp] theorem State.setStaged_pages : (s.setStaged m v).pages = s.pages := rfl
@[simp] theorem State.setStaged_osc : (s.setStaged m v).osc = s.osc := rfl
@[simp] theorem State.setStaged_chans : (s.setStaged m v).chans = s.chans := rfl
@[simp] theorem State.setStaged_tims : (s.setStaged m v).tims = s.tims := rfl
@[simp] theorem State.setStaged_harvest : (s.setStaged m v).harvest = s.harvest := rfl
@[simp] theorem State.setStaged_quals : (s.setStaged m v).quals = s.quals := rfl
@[simp] theorem State.setStaged_doms : (s.setStaged m v).doms = s.doms := rfl
@[simp] theorem State.setStaged_syns : (s.setStaged m v).syns = s.syns := rfl
@[simp] theorem State.setStaged_outs : (s.setStaged m v).outs = s.outs := rfl
@[simp] theorem State.setStaged_time : (s.setStaged m v).time = s.time := rfl
@[simp] theorem State.setStaged_links : (s.setStaged m v).links = s.links := rfl
@[simp] theorem State.setStaged_board : (s.setStaged m v).board = s.board := rfl
@[simp] theorem State.setStaged_pair : (s.setStaged m v).pair = s.pair := rfl
@[simp] theorem State.setStaged_svc : (s.setStaged m v).svc = s.svc := rfl
@[simp] theorem State.setStaged_budget : (s.setStaged m v).budget = s.budget := rfl
@[simp] theorem State.setStaged_irq : (s.setStaged m v).irq = s.irq := rfl
@[simp] theorem State.setStaged_fault : (s.setStaged m v).fault = s.fault := rfl
@[simp] theorem State.setStaged_nv : (s.setStaged m v).nv = s.nv := rfl
@[simp] theorem State.setStaged_sec : (s.setStaged m v).sec = s.sec := rfl
@[simp] theorem State.setStaged_boot : (s.setStaged m v).boot = s.boot := rfl
end

/-! ### setOsc -/

section
variable (f : Osc → Osc)
@[simp] theorem State.setOsc_pending : (s.setOsc f).pending = s.pending := rfl
@[simp] theorem State.setOsc_free : (s.setOsc f).free = s.free := rfl
@[simp] theorem State.setOsc_sys : (s.setOsc f).sys = s.sys := rfl
@[simp] theorem State.setOsc_active : (s.setOsc f).active = s.active := rfl
@[simp] theorem State.setOsc_shadow : (s.setOsc f).shadow = s.shadow := rfl
@[simp] theorem State.setOsc_direct : (s.setOsc f).direct = s.direct := rfl
@[simp] theorem State.setOsc_ctr : (s.setOsc f).ctr = s.ctr := rfl
@[simp] theorem State.setOsc_pages : (s.setOsc f).pages = s.pages := rfl
@[simp] theorem State.setOsc_chans : (s.setOsc f).chans = s.chans := rfl
@[simp] theorem State.setOsc_tims : (s.setOsc f).tims = s.tims := rfl
@[simp] theorem State.setOsc_harvest : (s.setOsc f).harvest = s.harvest := rfl
@[simp] theorem State.setOsc_quals : (s.setOsc f).quals = s.quals := rfl
@[simp] theorem State.setOsc_doms : (s.setOsc f).doms = s.doms := rfl
@[simp] theorem State.setOsc_syns : (s.setOsc f).syns = s.syns := rfl
@[simp] theorem State.setOsc_outs : (s.setOsc f).outs = s.outs := rfl
@[simp] theorem State.setOsc_time : (s.setOsc f).time = s.time := rfl
@[simp] theorem State.setOsc_links : (s.setOsc f).links = s.links := rfl
@[simp] theorem State.setOsc_board : (s.setOsc f).board = s.board := rfl
@[simp] theorem State.setOsc_pair : (s.setOsc f).pair = s.pair := rfl
@[simp] theorem State.setOsc_svc : (s.setOsc f).svc = s.svc := rfl
@[simp] theorem State.setOsc_budget : (s.setOsc f).budget = s.budget := rfl
@[simp] theorem State.setOsc_irq : (s.setOsc f).irq = s.irq := rfl
@[simp] theorem State.setOsc_fault : (s.setOsc f).fault = s.fault := rfl
@[simp] theorem State.setOsc_nv : (s.setOsc f).nv = s.nv := rfl
@[simp] theorem State.setOsc_sec : (s.setOsc f).sec = s.sec := rfl
@[simp] theorem State.setOsc_boot : (s.setOsc f).boot = s.boot := rfl
end

/-! ### setHarvest -/

section
variable (f : Harvest → Harvest)
@[simp] theorem State.setHarvest_pending : (s.setHarvest f).pending = s.pending := rfl
@[simp] theorem State.setHarvest_free : (s.setHarvest f).free = s.free := rfl
@[simp] theorem State.setHarvest_sys : (s.setHarvest f).sys = s.sys := rfl
@[simp] theorem State.setHarvest_active : (s.setHarvest f).active = s.active := rfl
@[simp] theorem State.setHarvest_shadow : (s.setHarvest f).shadow = s.shadow := rfl
@[simp] theorem State.setHarvest_direct : (s.setHarvest f).direct = s.direct := rfl
@[simp] theorem State.setHarvest_ctr : (s.setHarvest f).ctr = s.ctr := rfl
@[simp] theorem State.setHarvest_pages : (s.setHarvest f).pages = s.pages := rfl
@[simp] theorem State.setHarvest_osc : (s.setHarvest f).osc = s.osc := rfl
@[simp] theorem State.setHarvest_chans : (s.setHarvest f).chans = s.chans := rfl
@[simp] theorem State.setHarvest_tims : (s.setHarvest f).tims = s.tims := rfl
@[simp] theorem State.setHarvest_quals : (s.setHarvest f).quals = s.quals := rfl
@[simp] theorem State.setHarvest_doms : (s.setHarvest f).doms = s.doms := rfl
@[simp] theorem State.setHarvest_syns : (s.setHarvest f).syns = s.syns := rfl
@[simp] theorem State.setHarvest_outs : (s.setHarvest f).outs = s.outs := rfl
@[simp] theorem State.setHarvest_time : (s.setHarvest f).time = s.time := rfl
@[simp] theorem State.setHarvest_links : (s.setHarvest f).links = s.links := rfl
@[simp] theorem State.setHarvest_board : (s.setHarvest f).board = s.board := rfl
@[simp] theorem State.setHarvest_pair : (s.setHarvest f).pair = s.pair := rfl
@[simp] theorem State.setHarvest_svc : (s.setHarvest f).svc = s.svc := rfl
@[simp] theorem State.setHarvest_budget : (s.setHarvest f).budget = s.budget := rfl
@[simp] theorem State.setHarvest_irq : (s.setHarvest f).irq = s.irq := rfl
@[simp] theorem State.setHarvest_fault : (s.setHarvest f).fault = s.fault := rfl
@[simp] theorem State.setHarvest_nv : (s.setHarvest f).nv = s.nv := rfl
@[simp] theorem State.setHarvest_sec : (s.setHarvest f).sec = s.sec := rfl
@[simp] theorem State.setHarvest_boot : (s.setHarvest f).boot = s.boot := rfl
end

/-! ### setBoard -/

section
variable (f : Board → Board)
@[simp] theorem State.setBoard_pending : (s.setBoard f).pending = s.pending := rfl
@[simp] theorem State.setBoard_free : (s.setBoard f).free = s.free := rfl
@[simp] theorem State.setBoard_sys : (s.setBoard f).sys = s.sys := rfl
@[simp] theorem State.setBoard_active : (s.setBoard f).active = s.active := rfl
@[simp] theorem State.setBoard_shadow : (s.setBoard f).shadow = s.shadow := rfl
@[simp] theorem State.setBoard_direct : (s.setBoard f).direct = s.direct := rfl
@[simp] theorem State.setBoard_ctr : (s.setBoard f).ctr = s.ctr := rfl
@[simp] theorem State.setBoard_pages : (s.setBoard f).pages = s.pages := rfl
@[simp] theorem State.setBoard_osc : (s.setBoard f).osc = s.osc := rfl
@[simp] theorem State.setBoard_chans : (s.setBoard f).chans = s.chans := rfl
@[simp] theorem State.setBoard_tims : (s.setBoard f).tims = s.tims := rfl
@[simp] theorem State.setBoard_harvest : (s.setBoard f).harvest = s.harvest := rfl
@[simp] theorem State.setBoard_quals : (s.setBoard f).quals = s.quals := rfl
@[simp] theorem State.setBoard_doms : (s.setBoard f).doms = s.doms := rfl
@[simp] theorem State.setBoard_syns : (s.setBoard f).syns = s.syns := rfl
@[simp] theorem State.setBoard_outs : (s.setBoard f).outs = s.outs := rfl
@[simp] theorem State.setBoard_time : (s.setBoard f).time = s.time := rfl
@[simp] theorem State.setBoard_links : (s.setBoard f).links = s.links := rfl
@[simp] theorem State.setBoard_pair : (s.setBoard f).pair = s.pair := rfl
@[simp] theorem State.setBoard_svc : (s.setBoard f).svc = s.svc := rfl
@[simp] theorem State.setBoard_budget : (s.setBoard f).budget = s.budget := rfl
@[simp] theorem State.setBoard_irq : (s.setBoard f).irq = s.irq := rfl
@[simp] theorem State.setBoard_fault : (s.setBoard f).fault = s.fault := rfl
@[simp] theorem State.setBoard_nv : (s.setBoard f).nv = s.nv := rfl
@[simp] theorem State.setBoard_sec : (s.setBoard f).sec = s.sec := rfl
@[simp] theorem State.setBoard_boot : (s.setBoard f).boot = s.boot := rfl
end

/-! ### setPair -/

section
variable (f : PairUnit → PairUnit)
@[simp] theorem State.setPair_pending : (s.setPair f).pending = s.pending := rfl
@[simp] theorem State.setPair_free : (s.setPair f).free = s.free := rfl
@[simp] theorem State.setPair_sys : (s.setPair f).sys = s.sys := rfl
@[simp] theorem State.setPair_active : (s.setPair f).active = s.active := rfl
@[simp] theorem State.setPair_shadow : (s.setPair f).shadow = s.shadow := rfl
@[simp] theorem State.setPair_direct : (s.setPair f).direct = s.direct := rfl
@[simp] theorem State.setPair_ctr : (s.setPair f).ctr = s.ctr := rfl
@[simp] theorem State.setPair_pages : (s.setPair f).pages = s.pages := rfl
@[simp] theorem State.setPair_osc : (s.setPair f).osc = s.osc := rfl
@[simp] theorem State.setPair_chans : (s.setPair f).chans = s.chans := rfl
@[simp] theorem State.setPair_tims : (s.setPair f).tims = s.tims := rfl
@[simp] theorem State.setPair_harvest : (s.setPair f).harvest = s.harvest := rfl
@[simp] theorem State.setPair_quals : (s.setPair f).quals = s.quals := rfl
@[simp] theorem State.setPair_doms : (s.setPair f).doms = s.doms := rfl
@[simp] theorem State.setPair_syns : (s.setPair f).syns = s.syns := rfl
@[simp] theorem State.setPair_outs : (s.setPair f).outs = s.outs := rfl
@[simp] theorem State.setPair_time : (s.setPair f).time = s.time := rfl
@[simp] theorem State.setPair_links : (s.setPair f).links = s.links := rfl
@[simp] theorem State.setPair_board : (s.setPair f).board = s.board := rfl
@[simp] theorem State.setPair_svc : (s.setPair f).svc = s.svc := rfl
@[simp] theorem State.setPair_budget : (s.setPair f).budget = s.budget := rfl
@[simp] theorem State.setPair_irq : (s.setPair f).irq = s.irq := rfl
@[simp] theorem State.setPair_fault : (s.setPair f).fault = s.fault := rfl
@[simp] theorem State.setPair_nv : (s.setPair f).nv = s.nv := rfl
@[simp] theorem State.setPair_sec : (s.setPair f).sec = s.sec := rfl
@[simp] theorem State.setPair_boot : (s.setPair f).boot = s.boot := rfl
end

/-! ### setSvc -/

section
variable (f : Service → Service)
@[simp] theorem State.setSvc_pending : (s.setSvc f).pending = s.pending := rfl
@[simp] theorem State.setSvc_free : (s.setSvc f).free = s.free := rfl
@[simp] theorem State.setSvc_sys : (s.setSvc f).sys = s.sys := rfl
@[simp] theorem State.setSvc_active : (s.setSvc f).active = s.active := rfl
@[simp] theorem State.setSvc_shadow : (s.setSvc f).shadow = s.shadow := rfl
@[simp] theorem State.setSvc_direct : (s.setSvc f).direct = s.direct := rfl
@[simp] theorem State.setSvc_ctr : (s.setSvc f).ctr = s.ctr := rfl
@[simp] theorem State.setSvc_pages : (s.setSvc f).pages = s.pages := rfl
@[simp] theorem State.setSvc_osc : (s.setSvc f).osc = s.osc := rfl
@[simp] theorem State.setSvc_chans : (s.setSvc f).chans = s.chans := rfl
@[simp] theorem State.setSvc_tims : (s.setSvc f).tims = s.tims := rfl
@[simp] theorem State.setSvc_harvest : (s.setSvc f).harvest = s.harvest := rfl
@[simp] theorem State.setSvc_quals : (s.setSvc f).quals = s.quals := rfl
@[simp] theorem State.setSvc_doms : (s.setSvc f).doms = s.doms := rfl
@[simp] theorem State.setSvc_syns : (s.setSvc f).syns = s.syns := rfl
@[simp] theorem State.setSvc_outs : (s.setSvc f).outs = s.outs := rfl
@[simp] theorem State.setSvc_time : (s.setSvc f).time = s.time := rfl
@[simp] theorem State.setSvc_links : (s.setSvc f).links = s.links := rfl
@[simp] theorem State.setSvc_board : (s.setSvc f).board = s.board := rfl
@[simp] theorem State.setSvc_pair : (s.setSvc f).pair = s.pair := rfl
@[simp] theorem State.setSvc_budget : (s.setSvc f).budget = s.budget := rfl
@[simp] theorem State.setSvc_irq : (s.setSvc f).irq = s.irq := rfl
@[simp] theorem State.setSvc_fault : (s.setSvc f).fault = s.fault := rfl
@[simp] theorem State.setSvc_nv : (s.setSvc f).nv = s.nv := rfl
@[simp] theorem State.setSvc_sec : (s.setSvc f).sec = s.sec := rfl
@[simp] theorem State.setSvc_boot : (s.setSvc f).boot = s.boot := rfl
end

/-! ### setBudget -/

section
variable (f : Budget → Budget)
@[simp] theorem State.setBudget_pending : (s.setBudget f).pending = s.pending := rfl
@[simp] theorem State.setBudget_free : (s.setBudget f).free = s.free := rfl
@[simp] theorem State.setBudget_sys : (s.setBudget f).sys = s.sys := rfl
@[simp] theorem State.setBudget_active : (s.setBudget f).active = s.active := rfl
@[simp] theorem State.setBudget_shadow : (s.setBudget f).shadow = s.shadow := rfl
@[simp] theorem State.setBudget_direct : (s.setBudget f).direct = s.direct := rfl
@[simp] theorem State.setBudget_ctr : (s.setBudget f).ctr = s.ctr := rfl
@[simp] theorem State.setBudget_pages : (s.setBudget f).pages = s.pages := rfl
@[simp] theorem State.setBudget_osc : (s.setBudget f).osc = s.osc := rfl
@[simp] theorem State.setBudget_chans : (s.setBudget f).chans = s.chans := rfl
@[simp] theorem State.setBudget_tims : (s.setBudget f).tims = s.tims := rfl
@[simp] theorem State.setBudget_harvest : (s.setBudget f).harvest = s.harvest := rfl
@[simp] theorem State.setBudget_quals : (s.setBudget f).quals = s.quals := rfl
@[simp] theorem State.setBudget_doms : (s.setBudget f).doms = s.doms := rfl
@[simp] theorem State.setBudget_syns : (s.setBudget f).syns = s.syns := rfl
@[simp] theorem State.setBudget_outs : (s.setBudget f).outs = s.outs := rfl
@[simp] theorem State.setBudget_time : (s.setBudget f).time = s.time := rfl
@[simp] theorem State.setBudget_links : (s.setBudget f).links = s.links := rfl
@[simp] theorem State.setBudget_board : (s.setBudget f).board = s.board := rfl
@[simp] theorem State.setBudget_pair : (s.setBudget f).pair = s.pair := rfl
@[simp] theorem State.setBudget_svc : (s.setBudget f).svc = s.svc := rfl
@[simp] theorem State.setBudget_irq : (s.setBudget f).irq = s.irq := rfl
@[simp] theorem State.setBudget_fault : (s.setBudget f).fault = s.fault := rfl
@[simp] theorem State.setBudget_nv : (s.setBudget f).nv = s.nv := rfl
@[simp] theorem State.setBudget_sec : (s.setBudget f).sec = s.sec := rfl
@[simp] theorem State.setBudget_boot : (s.setBudget f).boot = s.boot := rfl
end

/-! ### setIrq -/

section
variable (f : Irq → Irq)
@[simp] theorem State.setIrq_pending : (s.setIrq f).pending = s.pending := rfl
@[simp] theorem State.setIrq_free : (s.setIrq f).free = s.free := rfl
@[simp] theorem State.setIrq_sys : (s.setIrq f).sys = s.sys := rfl
@[simp] theorem State.setIrq_active : (s.setIrq f).active = s.active := rfl
@[simp] theorem State.setIrq_shadow : (s.setIrq f).shadow = s.shadow := rfl
@[simp] theorem State.setIrq_direct : (s.setIrq f).direct = s.direct := rfl
@[simp] theorem State.setIrq_ctr : (s.setIrq f).ctr = s.ctr := rfl
@[simp] theorem State.setIrq_pages : (s.setIrq f).pages = s.pages := rfl
@[simp] theorem State.setIrq_osc : (s.setIrq f).osc = s.osc := rfl
@[simp] theorem State.setIrq_chans : (s.setIrq f).chans = s.chans := rfl
@[simp] theorem State.setIrq_tims : (s.setIrq f).tims = s.tims := rfl
@[simp] theorem State.setIrq_harvest : (s.setIrq f).harvest = s.harvest := rfl
@[simp] theorem State.setIrq_quals : (s.setIrq f).quals = s.quals := rfl
@[simp] theorem State.setIrq_doms : (s.setIrq f).doms = s.doms := rfl
@[simp] theorem State.setIrq_syns : (s.setIrq f).syns = s.syns := rfl
@[simp] theorem State.setIrq_outs : (s.setIrq f).outs = s.outs := rfl
@[simp] theorem State.setIrq_time : (s.setIrq f).time = s.time := rfl
@[simp] theorem State.setIrq_links : (s.setIrq f).links = s.links := rfl
@[simp] theorem State.setIrq_board : (s.setIrq f).board = s.board := rfl
@[simp] theorem State.setIrq_pair : (s.setIrq f).pair = s.pair := rfl
@[simp] theorem State.setIrq_svc : (s.setIrq f).svc = s.svc := rfl
@[simp] theorem State.setIrq_budget : (s.setIrq f).budget = s.budget := rfl
@[simp] theorem State.setIrq_fault : (s.setIrq f).fault = s.fault := rfl
@[simp] theorem State.setIrq_nv : (s.setIrq f).nv = s.nv := rfl
@[simp] theorem State.setIrq_sec : (s.setIrq f).sec = s.sec := rfl
@[simp] theorem State.setIrq_boot : (s.setIrq f).boot = s.boot := rfl
end

/-! ### setFault -/

section
variable (f : FaultUnit → FaultUnit)
@[simp] theorem State.setFault_pending : (s.setFault f).pending = s.pending := rfl
@[simp] theorem State.setFault_free : (s.setFault f).free = s.free := rfl
@[simp] theorem State.setFault_sys : (s.setFault f).sys = s.sys := rfl
@[simp] theorem State.setFault_active : (s.setFault f).active = s.active := rfl
@[simp] theorem State.setFault_shadow : (s.setFault f).shadow = s.shadow := rfl
@[simp] theorem State.setFault_direct : (s.setFault f).direct = s.direct := rfl
@[simp] theorem State.setFault_ctr : (s.setFault f).ctr = s.ctr := rfl
@[simp] theorem State.setFault_pages : (s.setFault f).pages = s.pages := rfl
@[simp] theorem State.setFault_osc : (s.setFault f).osc = s.osc := rfl
@[simp] theorem State.setFault_chans : (s.setFault f).chans = s.chans := rfl
@[simp] theorem State.setFault_tims : (s.setFault f).tims = s.tims := rfl
@[simp] theorem State.setFault_harvest : (s.setFault f).harvest = s.harvest := rfl
@[simp] theorem State.setFault_quals : (s.setFault f).quals = s.quals := rfl
@[simp] theorem State.setFault_doms : (s.setFault f).doms = s.doms := rfl
@[simp] theorem State.setFault_syns : (s.setFault f).syns = s.syns := rfl
@[simp] theorem State.setFault_outs : (s.setFault f).outs = s.outs := rfl
@[simp] theorem State.setFault_time : (s.setFault f).time = s.time := rfl
@[simp] theorem State.setFault_links : (s.setFault f).links = s.links := rfl
@[simp] theorem State.setFault_board : (s.setFault f).board = s.board := rfl
@[simp] theorem State.setFault_pair : (s.setFault f).pair = s.pair := rfl
@[simp] theorem State.setFault_svc : (s.setFault f).svc = s.svc := rfl
@[simp] theorem State.setFault_budget : (s.setFault f).budget = s.budget := rfl
@[simp] theorem State.setFault_irq : (s.setFault f).irq = s.irq := rfl
@[simp] theorem State.setFault_nv : (s.setFault f).nv = s.nv := rfl
@[simp] theorem State.setFault_sec : (s.setFault f).sec = s.sec := rfl
@[simp] theorem State.setFault_boot : (s.setFault f).boot = s.boot := rfl
end

/-! ### setNv -/

section
variable (f : NvUnit → NvUnit)
@[simp] theorem State.setNv_pending : (s.setNv f).pending = s.pending := rfl
@[simp] theorem State.setNv_free : (s.setNv f).free = s.free := rfl
@[simp] theorem State.setNv_sys : (s.setNv f).sys = s.sys := rfl
@[simp] theorem State.setNv_active : (s.setNv f).active = s.active := rfl
@[simp] theorem State.setNv_shadow : (s.setNv f).shadow = s.shadow := rfl
@[simp] theorem State.setNv_direct : (s.setNv f).direct = s.direct := rfl
@[simp] theorem State.setNv_ctr : (s.setNv f).ctr = s.ctr := rfl
@[simp] theorem State.setNv_pages : (s.setNv f).pages = s.pages := rfl
@[simp] theorem State.setNv_osc : (s.setNv f).osc = s.osc := rfl
@[simp] theorem State.setNv_chans : (s.setNv f).chans = s.chans := rfl
@[simp] theorem State.setNv_tims : (s.setNv f).tims = s.tims := rfl
@[simp] theorem State.setNv_harvest : (s.setNv f).harvest = s.harvest := rfl
@[simp] theorem State.setNv_quals : (s.setNv f).quals = s.quals := rfl
@[simp] theorem State.setNv_doms : (s.setNv f).doms = s.doms := rfl
@[simp] theorem State.setNv_syns : (s.setNv f).syns = s.syns := rfl
@[simp] theorem State.setNv_outs : (s.setNv f).outs = s.outs := rfl
@[simp] theorem State.setNv_time : (s.setNv f).time = s.time := rfl
@[simp] theorem State.setNv_links : (s.setNv f).links = s.links := rfl
@[simp] theorem State.setNv_board : (s.setNv f).board = s.board := rfl
@[simp] theorem State.setNv_pair : (s.setNv f).pair = s.pair := rfl
@[simp] theorem State.setNv_svc : (s.setNv f).svc = s.svc := rfl
@[simp] theorem State.setNv_budget : (s.setNv f).budget = s.budget := rfl
@[simp] theorem State.setNv_irq : (s.setNv f).irq = s.irq := rfl
@[simp] theorem State.setNv_fault : (s.setNv f).fault = s.fault := rfl
@[simp] theorem State.setNv_sec : (s.setNv f).sec = s.sec := rfl
@[simp] theorem State.setNv_boot : (s.setNv f).boot = s.boot := rfl
end

/-! ### setSec -/

section
variable (f : SecUnit → SecUnit)
@[simp] theorem State.setSec_pending : (s.setSec f).pending = s.pending := rfl
@[simp] theorem State.setSec_free : (s.setSec f).free = s.free := rfl
@[simp] theorem State.setSec_sys : (s.setSec f).sys = s.sys := rfl
@[simp] theorem State.setSec_active : (s.setSec f).active = s.active := rfl
@[simp] theorem State.setSec_shadow : (s.setSec f).shadow = s.shadow := rfl
@[simp] theorem State.setSec_direct : (s.setSec f).direct = s.direct := rfl
@[simp] theorem State.setSec_ctr : (s.setSec f).ctr = s.ctr := rfl
@[simp] theorem State.setSec_pages : (s.setSec f).pages = s.pages := rfl
@[simp] theorem State.setSec_osc : (s.setSec f).osc = s.osc := rfl
@[simp] theorem State.setSec_chans : (s.setSec f).chans = s.chans := rfl
@[simp] theorem State.setSec_tims : (s.setSec f).tims = s.tims := rfl
@[simp] theorem State.setSec_harvest : (s.setSec f).harvest = s.harvest := rfl
@[simp] theorem State.setSec_quals : (s.setSec f).quals = s.quals := rfl
@[simp] theorem State.setSec_doms : (s.setSec f).doms = s.doms := rfl
@[simp] theorem State.setSec_syns : (s.setSec f).syns = s.syns := rfl
@[simp] theorem State.setSec_outs : (s.setSec f).outs = s.outs := rfl
@[simp] theorem State.setSec_time : (s.setSec f).time = s.time := rfl
@[simp] theorem State.setSec_links : (s.setSec f).links = s.links := rfl
@[simp] theorem State.setSec_board : (s.setSec f).board = s.board := rfl
@[simp] theorem State.setSec_pair : (s.setSec f).pair = s.pair := rfl
@[simp] theorem State.setSec_svc : (s.setSec f).svc = s.svc := rfl
@[simp] theorem State.setSec_budget : (s.setSec f).budget = s.budget := rfl
@[simp] theorem State.setSec_irq : (s.setSec f).irq = s.irq := rfl
@[simp] theorem State.setSec_fault : (s.setSec f).fault = s.fault := rfl
@[simp] theorem State.setSec_nv : (s.setSec f).nv = s.nv := rfl
@[simp] theorem State.setSec_boot : (s.setSec f).boot = s.boot := rfl
end

/-! ### setBoot -/

section
variable (f : Boot → Boot)
@[simp] theorem State.setBoot_pending : (s.setBoot f).pending = s.pending := rfl
@[simp] theorem State.setBoot_free : (s.setBoot f).free = s.free := rfl
@[simp] theorem State.setBoot_sys : (s.setBoot f).sys = s.sys := rfl
@[simp] theorem State.setBoot_active : (s.setBoot f).active = s.active := rfl
@[simp] theorem State.setBoot_shadow : (s.setBoot f).shadow = s.shadow := rfl
@[simp] theorem State.setBoot_direct : (s.setBoot f).direct = s.direct := rfl
@[simp] theorem State.setBoot_ctr : (s.setBoot f).ctr = s.ctr := rfl
@[simp] theorem State.setBoot_pages : (s.setBoot f).pages = s.pages := rfl
@[simp] theorem State.setBoot_osc : (s.setBoot f).osc = s.osc := rfl
@[simp] theorem State.setBoot_chans : (s.setBoot f).chans = s.chans := rfl
@[simp] theorem State.setBoot_tims : (s.setBoot f).tims = s.tims := rfl
@[simp] theorem State.setBoot_harvest : (s.setBoot f).harvest = s.harvest := rfl
@[simp] theorem State.setBoot_quals : (s.setBoot f).quals = s.quals := rfl
@[simp] theorem State.setBoot_doms : (s.setBoot f).doms = s.doms := rfl
@[simp] theorem State.setBoot_syns : (s.setBoot f).syns = s.syns := rfl
@[simp] theorem State.setBoot_outs : (s.setBoot f).outs = s.outs := rfl
@[simp] theorem State.setBoot_time : (s.setBoot f).time = s.time := rfl
@[simp] theorem State.setBoot_links : (s.setBoot f).links = s.links := rfl
@[simp] theorem State.setBoot_board : (s.setBoot f).board = s.board := rfl
@[simp] theorem State.setBoot_pair : (s.setBoot f).pair = s.pair := rfl
@[simp] theorem State.setBoot_svc : (s.setBoot f).svc = s.svc := rfl
@[simp] theorem State.setBoot_budget : (s.setBoot f).budget = s.budget := rfl
@[simp] theorem State.setBoot_irq : (s.setBoot f).irq = s.irq := rfl
@[simp] theorem State.setBoot_fault : (s.setBoot f).fault = s.fault := rfl
@[simp] theorem State.setBoot_nv : (s.setBoot f).nv = s.nv := rfl
@[simp] theorem State.setBoot_sec : (s.setBoot f).sec = s.sec := rfl
end

/-! ### setSys -/

section
variable (f : SysUnit → SysUnit)
@[simp] theorem State.setSys_pending : (s.setSys f).pending = s.pending := rfl
@[simp] theorem State.setSys_free : (s.setSys f).free = s.free := rfl
@[simp] theorem State.setSys_active : (s.setSys f).active = s.active := rfl
@[simp] theorem State.setSys_shadow : (s.setSys f).shadow = s.shadow := rfl
@[simp] theorem State.setSys_direct : (s.setSys f).direct = s.direct := rfl
@[simp] theorem State.setSys_ctr : (s.setSys f).ctr = s.ctr := rfl
@[simp] theorem State.setSys_pages : (s.setSys f).pages = s.pages := rfl
@[simp] theorem State.setSys_osc : (s.setSys f).osc = s.osc := rfl
@[simp] theorem State.setSys_chans : (s.setSys f).chans = s.chans := rfl
@[simp] theorem State.setSys_tims : (s.setSys f).tims = s.tims := rfl
@[simp] theorem State.setSys_harvest : (s.setSys f).harvest = s.harvest := rfl
@[simp] theorem State.setSys_quals : (s.setSys f).quals = s.quals := rfl
@[simp] theorem State.setSys_doms : (s.setSys f).doms = s.doms := rfl
@[simp] theorem State.setSys_syns : (s.setSys f).syns = s.syns := rfl
@[simp] theorem State.setSys_outs : (s.setSys f).outs = s.outs := rfl
@[simp] theorem State.setSys_time : (s.setSys f).time = s.time := rfl
@[simp] theorem State.setSys_links : (s.setSys f).links = s.links := rfl
@[simp] theorem State.setSys_board : (s.setSys f).board = s.board := rfl
@[simp] theorem State.setSys_pair : (s.setSys f).pair = s.pair := rfl
@[simp] theorem State.setSys_svc : (s.setSys f).svc = s.svc := rfl
@[simp] theorem State.setSys_budget : (s.setSys f).budget = s.budget := rfl
@[simp] theorem State.setSys_irq : (s.setSys f).irq = s.irq := rfl
@[simp] theorem State.setSys_fault : (s.setSys f).fault = s.fault := rfl
@[simp] theorem State.setSys_nv : (s.setSys f).nv = s.nv := rfl
@[simp] theorem State.setSys_sec : (s.setSys f).sec = s.sec := rfl
@[simp] theorem State.setSys_boot : (s.setSys f).boot = s.boot := rfl
end

/-! ### What an update reads back -/

theorem State.setPage_page (j k : Nat) (f : Page → Page) :
    (s.setPage k f).page j = if j = k then f (s.page k) else s.page j := tget_tmod f
@[simp] theorem State.setPage_page_self (k : Nat) (f : Page → Page) : (s.setPage k f).page k = f (s.page k) := tget_tmod_self f
theorem State.setChan_chan (j k : Nat) (f : Chan → Chan) :
    (s.setChan k f).chan j = if j = k then f (s.chan k) else s.chan j := tget_tmod f
@[simp] theorem State.setChan_chan_self (k : Nat) (f : Chan → Chan) : (s.setChan k f).chan k = f (s.chan k) := tget_tmod_self f
theorem State.setTim_tim (j k : Nat) (f : Tim → Tim) :
    (s.setTim k f).tim j = if j = k then f (s.tim k) else s.tim j := tget_tmod f
@[simp] theorem State.setTim_tim_self (k : Nat) (f : Tim → Tim) : (s.setTim k f).tim k = f (s.tim k) := tget_tmod_self f
theorem State.setQual_qual (j k : Nat) (f : Qual → Qual) :
    (s.setQual k f).qual j = if j = k then f (s.qual k) else s.qual j := tget_tmod f
@[simp] theorem State.setQual_qual_self (k : Nat) (f : Qual → Qual) : (s.setQual k f).qual k = f (s.qual k) := tget_tmod_self f
theorem State.setDom_dom (j k : Nat) (f : Dom → Dom) :
    (s.setDom k f).dom j = if j = k then f (s.dom k) else s.dom j := tget_tmod f
@[simp] theorem State.setDom_dom_self (k : Nat) (f : Dom → Dom) : (s.setDom k f).dom k = f (s.dom k) := tget_tmod_self f
theorem State.setSyn_syn (j k : Nat) (f : Syn → Syn) :
    (s.setSyn k f).syn j = if j = k then f (s.syn k) else s.syn j := tget_tmod f
@[simp] theorem State.setSyn_syn_self (k : Nat) (f : Syn → Syn) : (s.setSyn k f).syn k = f (s.syn k) := tget_tmod_self f
theorem State.setOut_out (j k : Nat) (f : Out → Out) :
    (s.setOut k f).out j = if j = k then f (s.out k) else s.out j := tget_tmod f
@[simp] theorem State.setOut_out_self (k : Nat) (f : Out → Out) : (s.setOut k f).out k = f (s.out k) := tget_tmod_self f
theorem State.setLink_link (j k : Nat) (f : Link → Link) :
    (s.setLink k f).link j = if j = k then f (s.link k) else s.link j := tget_tmod f
@[simp] theorem State.setLink_link_self (k : Nat) (f : Link → Link) : (s.setLink k f).link k = f (s.link k) := tget_tmod_self f
theorem State.setTdom_tdom (j k : Nat) (f : TimeDom → TimeDom) :
    (s.setTdom k f).tdom j = if j = k then f (s.tdom k) else s.tdom j := tget_tmod f
@[simp] theorem State.setTdom_tdom_self (k : Nat) (f : TimeDom → TimeDom) : (s.setTdom k f).tdom k = f (s.tdom k) := tget_tmod_self f
theorem State.setCell_cell (j k : Nat) (f : Cell → Cell) :
    (s.setCell k f).cell j = if j = k then f (s.cell k) else s.cell j := tget_tmod f
@[simp] theorem State.setCell_cell_self (k : Nat) (f : Cell → Cell) : (s.setCell k f).cell k = f (s.cell k) := tget_tmod_self f
theorem State.setClient_client (j k : Nat) (f : Client → Client) :
    (s.setClient k f).client j = if j = k then f (s.client k) else s.client j := tget_tmod f
@[simp] theorem State.setClient_client_self (k : Nat) (f : Client → Client) : (s.setClient k f).client k = f (s.client k) := tget_tmod_self f
theorem State.setPort_port (j k : Nat) (f : Port → Port) :
    (s.setPort k f).port j = if j = k then f (s.port k) else s.port j := tget_tmod f
@[simp] theorem State.setPort_port_self (k : Nat) (f : Port → Port) : (s.setPort k f).port k = f (s.port k) := tget_tmod_self f
@[simp] theorem State.setOsc_osc (f : Osc → Osc) : (s.setOsc f).osc = f s.osc := rfl
@[simp] theorem State.setHarvest_harvest (f : Harvest → Harvest) : (s.setHarvest f).harvest = f s.harvest := rfl
@[simp] theorem State.setBoard_board (f : Board → Board) : (s.setBoard f).board = f s.board := rfl
@[simp] theorem State.setPair_pair (f : PairUnit → PairUnit) : (s.setPair f).pair = f s.pair := rfl
@[simp] theorem State.setSvc_svc (f : Service → Service) : (s.setSvc f).svc = f s.svc := rfl
@[simp] theorem State.setBudget_budget (f : Budget → Budget) : (s.setBudget f).budget = f s.budget := rfl
@[simp] theorem State.setIrq_irq (f : Irq → Irq) : (s.setIrq f).irq = f s.irq := rfl
@[simp] theorem State.setFault_fault (f : FaultUnit → FaultUnit) : (s.setFault f).fault = f s.fault := rfl
@[simp] theorem State.setNv_nv (f : NvUnit → NvUnit) : (s.setNv f).nv = f s.nv := rfl
@[simp] theorem State.setSec_sec (f : SecUnit → SecUnit) : (s.setSec f).sec = f s.sec := rfl
@[simp] theorem State.setBoot_boot (f : Boot → Boot) : (s.setBoot f).boot = f s.boot := rfl
@[simp] theorem State.setSys_sys (f : SysUnit → SysUnit) : (s.setSys f).sys = f s.sys := rfl
@[simp] theorem State.nextFree_free : s.nextFree.free = s.free + 1 := rfl
theorem State.addCtr_counter (p o n q r : Nat) :
    (s.addCtr p o n).counter q r = if q * 0x1000 + r = p * 0x1000 + o then (s.counter p o + n) % 2 ^ 64 else s.counter q r :=
  tget_tput
theorem State.bump_counter (p o q r : Nat) :
    (s.bump p o).counter q r = if q * 0x1000 + r = p * 0x1000 + o then (s.counter p o + 1) % 2 ^ 64 else s.counter q r :=
  tget_tput
theorem State.setDir_dir (p o q r : Nat) (v : Word) :
    (s.setDir p o v).dir q r
      = if q * 0x1000 + r = p * 0x1000 + o then v &&& word (dirAt (p * 0x1000 + o)).mask else s.dir q r := tget_tput

end Sys2Proof.Machine
end

