-- ==== Sys2Proof/Laws/Reads.lean ====
section
/-! SUPPORT. What a unit reads as after an update of another. -/

namespace Sys2Proof.Machine

variable (s : State) {k q r : Nat}

/-! ### setPage -/

section
variable (j : Nat) (f : Page → Page)
@[simp] theorem State.setPage_r_chan : (s.setPage j f).chan k = s.chan k := rfl
@[simp] theorem State.setPage_r_tim : (s.setPage j f).tim k = s.tim k := rfl
@[simp] theorem State.setPage_r_qual : (s.setPage j f).qual k = s.qual k := rfl
@[simp] theorem State.setPage_r_dom : (s.setPage j f).dom k = s.dom k := rfl
@[simp] theorem State.setPage_r_syn : (s.setPage j f).syn k = s.syn k := rfl
@[simp] theorem State.setPage_r_out : (s.setPage j f).out k = s.out k := rfl
@[simp] theorem State.setPage_r_link : (s.setPage j f).link k = s.link k := rfl
@[simp] theorem State.setPage_r_tdom : (s.setPage j f).tdom k = s.tdom k := rfl
@[simp] theorem State.setPage_r_cell : (s.setPage j f).cell k = s.cell k := rfl
@[simp] theorem State.setPage_r_client : (s.setPage j f).client k = s.client k := rfl
@[simp] theorem State.setPage_r_port : (s.setPage j f).port k = s.port k := rfl
@[simp] theorem State.setPage_r_grant : (s.setPage j f).grant k = s.grant k := rfl
@[simp] theorem State.setPage_r_counter : (s.setPage j f).counter q r = s.counter q r := rfl
@[simp] theorem State.setPage_r_cfg : (s.setPage j f).cfg q r = s.cfg q r := rfl
@[simp] theorem State.setPage_r_dir : (s.setPage j f).dir q r = s.dir q r := rfl
end

/-! ### setDir -/

section
variable (p o : Nat) (v : Word)
@[simp] theorem State.setDir_r_page : (s.setDir p o v).page k = s.page k := rfl
@[simp] theorem State.setDir_r_chan : (s.setDir p o v).chan k = s.chan k := rfl
@[simp] theorem State.setDir_r_tim : (s.setDir p o v).tim k = s.tim k := rfl
@[simp] theorem State.setDir_r_qual : (s.setDir p o v).qual k = s.qual k := rfl
@[simp] theorem State.setDir_r_dom : (s.setDir p o v).dom k = s.dom k := rfl
@[simp] theorem State.setDir_r_syn : (s.setDir p o v).syn k = s.syn k := rfl
@[simp] theorem State.setDir_r_out : (s.setDir p o v).out k = s.out k := rfl
@[simp] theorem State.setDir_r_link : (s.setDir p o v).link k = s.link k := rfl
@[simp] theorem State.setDir_r_tdom : (s.setDir p o v).tdom k = s.tdom k := rfl
@[simp] theorem State.setDir_r_cell : (s.setDir p o v).cell k = s.cell k := rfl
@[simp] theorem State.setDir_r_client : (s.setDir p o v).client k = s.client k := rfl
@[simp] theorem State.setDir_r_port : (s.setDir p o v).port k = s.port k := rfl
@[simp] theorem State.setDir_r_grant : (s.setDir p o v).grant k = s.grant k := rfl
@[simp] theorem State.setDir_r_counter : (s.setDir p o v).counter q r = s.counter q r := rfl
@[simp] theorem State.setDir_r_cfg : (s.setDir p o v).cfg q r = s.cfg q r := rfl
end

/-! ### setShadow -/

section
variable (j : Nat) (v : Word)
@[simp] theorem State.setShadow_r_page : (s.setShadow j v).page k = s.page k := rfl
@[simp] theorem State.setShadow_r_chan : (s.setShadow j v).chan k = s.chan k := rfl
@[simp] theorem State.setShadow_r_tim : (s.setShadow j v).tim k = s.tim k := rfl
@[simp] theorem State.setShadow_r_qual : (s.setShadow j v).qual k = s.qual k := rfl
@[simp] theorem State.setShadow_r_dom : (s.setShadow j v).dom k = s.dom k := rfl
@[simp] theorem State.setShadow_r_syn : (s.setShadow j v).syn k = s.syn k := rfl
@[simp] theorem State.setShadow_r_out : (s.setShadow j v).out k = s.out k := rfl
@[simp] theorem State.setShadow_r_link : (s.setShadow j v).link k = s.link k := rfl
@[simp] theorem State.setShadow_r_tdom : (s.setShadow j v).tdom k = s.tdom k := rfl
@[simp] theorem State.setShadow_r_cell : (s.setShadow j v).cell k = s.cell k := rfl
@[simp] theorem State.setShadow_r_client : (s.setShadow j v).client k = s.client k := rfl
@[simp] theorem State.setShadow_r_port : (s.setShadow j v).port k = s.port k := rfl
@[simp] theorem State.setShadow_r_grant : (s.setShadow j v).grant k = s.grant k := rfl
@[simp] theorem State.setShadow_r_counter : (s.setShadow j v).counter q r = s.counter q r := rfl
@[simp] theorem State.setShadow_r_cfg : (s.setShadow j v).cfg q r = s.cfg q r := rfl
@[simp] theorem State.setShadow_r_dir : (s.setShadow j v).dir q r = s.dir q r := rfl
end

/-! ### setChan -/

section
variable (j : Nat) (f : Chan → Chan)
@[simp] theorem State.setChan_r_page : (s.setChan j f).page k = s.page k := rfl
@[simp] theorem State.setChan_r_tim : (s.setChan j f).tim k = s.tim k := rfl
@[simp] theorem State.setChan_r_qual : (s.setChan j f).qual k = s.qual k := rfl
@[simp] theorem State.setChan_r_dom : (s.setChan j f).dom k = s.dom k := rfl
@[simp] theorem State.setChan_r_syn : (s.setChan j f).syn k = s.syn k := rfl
@[simp] theorem State.setChan_r_out : (s.setChan j f).out k = s.out k := rfl
@[simp] theorem State.setChan_r_link : (s.setChan j f).link k = s.link k := rfl
@[simp] theorem State.setChan_r_tdom : (s.setChan j f).tdom k = s.tdom k := rfl
@[simp] theorem State.setChan_r_cell : (s.setChan j f).cell k = s.cell k := rfl
@[simp] theorem State.setChan_r_client : (s.setChan j f).client k = s.client k := rfl
@[simp] theorem State.setChan_r_port : (s.setChan j f).port k = s.port k := rfl
@[simp] theorem State.setChan_r_grant : (s.setChan j f).grant k = s.grant k := rfl
@[simp] theorem State.setChan_r_counter : (s.setChan j f).counter q r = s.counter q r := rfl
@[simp] theorem State.setChan_r_cfg : (s.setChan j f).cfg q r = s.cfg q r := rfl
@[simp] theorem State.setChan_r_dir : (s.setChan j f).dir q r = s.dir q r := rfl
end

/-! ### setTim -/

section
variable (j : Nat) (f : Tim → Tim)
@[simp] theorem State.setTim_r_page : (s.setTim j f).page k = s.page k := rfl
@[simp] theorem State.setTim_r_chan : (s.setTim j f).chan k = s.chan k := rfl
@[simp] theorem State.setTim_r_qual : (s.setTim j f).qual k = s.qual k := rfl
@[simp] theorem State.setTim_r_dom : (s.setTim j f).dom k = s.dom k := rfl
@[simp] theorem State.setTim_r_syn : (s.setTim j f).syn k = s.syn k := rfl
@[simp] theorem State.setTim_r_out : (s.setTim j f).out k = s.out k := rfl
@[simp] theorem State.setTim_r_link : (s.setTim j f).link k = s.link k := rfl
@[simp] theorem State.setTim_r_tdom : (s.setTim j f).tdom k = s.tdom k := rfl
@[simp] theorem State.setTim_r_cell : (s.setTim j f).cell k = s.cell k := rfl
@[simp] theorem State.setTim_r_client : (s.setTim j f).client k = s.client k := rfl
@[simp] theorem State.setTim_r_port : (s.setTim j f).port k = s.port k := rfl
@[simp] theorem State.setTim_r_grant : (s.setTim j f).grant k = s.grant k := rfl
@[simp] theorem State.setTim_r_counter : (s.setTim j f).counter q r = s.counter q r := rfl
@[simp] theorem State.setTim_r_cfg : (s.setTim j f).cfg q r = s.cfg q r := rfl
@[simp] theorem State.setTim_r_dir : (s.setTim j f).dir q r = s.dir q r := rfl
end

/-! ### setQual -/

section
variable (j : Nat) (f : Qual → Qual)
@[simp] theorem State.setQual_r_page : (s.setQual j f).page k = s.page k := rfl
@[simp] theorem State.setQual_r_chan : (s.setQual j f).chan k = s.chan k := rfl
@[simp] theorem State.setQual_r_tim : (s.setQual j f).tim k = s.tim k := rfl
@[simp] theorem State.setQual_r_dom : (s.setQual j f).dom k = s.dom k := rfl
@[simp] theorem State.setQual_r_syn : (s.setQual j f).syn k = s.syn k := rfl
@[simp] theorem State.setQual_r_out : (s.setQual j f).out k = s.out k := rfl
@[simp] theorem State.setQual_r_link : (s.setQual j f).link k = s.link k := rfl
@[simp] theorem State.setQual_r_tdom : (s.setQual j f).tdom k = s.tdom k := rfl
@[simp] theorem State.setQual_r_cell : (s.setQual j f).cell k = s.cell k := rfl
@[simp] theorem State.setQual_r_client : (s.setQual j f).client k = s.client k := rfl
@[simp] theorem State.setQual_r_port : (s.setQual j f).port k = s.port k := rfl
@[simp] theorem State.setQual_r_grant : (s.setQual j f).grant k = s.grant k := rfl
@[simp] theorem State.setQual_r_counter : (s.setQual j f).counter q r = s.counter q r := rfl
@[simp] theorem State.setQual_r_cfg : (s.setQual j f).cfg q r = s.cfg q r := rfl
@[simp] theorem State.setQual_r_dir : (s.setQual j f).dir q r = s.dir q r := rfl
end

/-! ### setDom -/

section
variable (j : Nat) (f : Dom → Dom)
@[simp] theorem State.setDom_r_page : (s.setDom j f).page k = s.page k := rfl
@[simp] theorem State.setDom_r_chan : (s.setDom j f).chan k = s.chan k := rfl
@[simp] theorem State.setDom_r_tim : (s.setDom j f).tim k = s.tim k := rfl
@[simp] theorem State.setDom_r_qual : (s.setDom j f).qual k = s.qual k := rfl
@[simp] theorem State.setDom_r_syn : (s.setDom j f).syn k = s.syn k := rfl
@[simp] theorem State.setDom_r_out : (s.setDom j f).out k = s.out k := rfl
@[simp] theorem State.setDom_r_link : (s.setDom j f).link k = s.link k := rfl
@[simp] theorem State.setDom_r_tdom : (s.setDom j f).tdom k = s.tdom k := rfl
@[simp] theorem State.setDom_r_cell : (s.setDom j f).cell k = s.cell k := rfl
@[simp] theorem State.setDom_r_client : (s.setDom j f).client k = s.client k := rfl
@[simp] theorem State.setDom_r_port : (s.setDom j f).port k = s.port k := rfl
@[simp] theorem State.setDom_r_grant : (s.setDom j f).grant k = s.grant k := rfl
@[simp] theorem State.setDom_r_counter : (s.setDom j f).counter q r = s.counter q r := rfl
@[simp] theorem State.setDom_r_cfg : (s.setDom j f).cfg q r = s.cfg q r := rfl
@[simp] theorem State.setDom_r_dir : (s.setDom j f).dir q r = s.dir q r := rfl
end

/-! ### setSyn -/

section
variable (j : Nat) (f : Syn → Syn)
@[simp] theorem State.setSyn_r_page : (s.setSyn j f).page k = s.page k := rfl
@[simp] theorem State.setSyn_r_chan : (s.setSyn j f).chan k = s.chan k := rfl
@[simp] theorem State.setSyn_r_tim : (s.setSyn j f).tim k = s.tim k := rfl
@[simp] theorem State.setSyn_r_qual : (s.setSyn j f).qual k = s.qual k := rfl
@[simp] theorem State.setSyn_r_dom : (s.setSyn j f).dom k = s.dom k := rfl
@[simp] theorem State.setSyn_r_out : (s.setSyn j f).out k = s.out k := rfl
@[simp] theorem State.setSyn_r_link : (s.setSyn j f).link k = s.link k := rfl
@[simp] theorem State.setSyn_r_tdom : (s.setSyn j f).tdom k = s.tdom k := rfl
@[simp] theorem State.setSyn_r_cell : (s.setSyn j f).cell k = s.cell k := rfl
@[simp] theorem State.setSyn_r_client : (s.setSyn j f).client k = s.client k := rfl
@[simp] theorem State.setSyn_r_port : (s.setSyn j f).port k = s.port k := rfl
@[simp] theorem State.setSyn_r_grant : (s.setSyn j f).grant k = s.grant k := rfl
@[simp] theorem State.setSyn_r_counter : (s.setSyn j f).counter q r = s.counter q r := rfl
@[simp] theorem State.setSyn_r_cfg : (s.setSyn j f).cfg q r = s.cfg q r := rfl
@[simp] theorem State.setSyn_r_dir : (s.setSyn j f).dir q r = s.dir q r := rfl
end

/-! ### setOut -/

section
variable (j : Nat) (f : Out → Out)
@[simp] theorem State.setOut_r_page : (s.setOut j f).page k = s.page k := rfl
@[simp] theorem State.setOut_r_chan : (s.setOut j f).chan k = s.chan k := rfl
@[simp] theorem State.setOut_r_tim : (s.setOut j f).tim k = s.tim k := rfl
@[simp] theorem State.setOut_r_qual : (s.setOut j f).qual k = s.qual k := rfl
@[simp] theorem State.setOut_r_dom : (s.setOut j f).dom k = s.dom k := rfl
@[simp] theorem State.setOut_r_syn : (s.setOut j f).syn k = s.syn k := rfl
@[simp] theorem State.setOut_r_link : (s.setOut j f).link k = s.link k := rfl
@[simp] theorem State.setOut_r_tdom : (s.setOut j f).tdom k = s.tdom k := rfl
@[simp] theorem State.setOut_r_cell : (s.setOut j f).cell k = s.cell k := rfl
@[simp] theorem State.setOut_r_client : (s.setOut j f).client k = s.client k := rfl
@[simp] theorem State.setOut_r_port : (s.setOut j f).port k = s.port k := rfl
@[simp] theorem State.setOut_r_grant : (s.setOut j f).grant k = s.grant k := rfl
@[simp] theorem State.setOut_r_counter : (s.setOut j f).counter q r = s.counter q r := rfl
@[simp] theorem State.setOut_r_cfg : (s.setOut j f).cfg q r = s.cfg q r := rfl
@[simp] theorem State.setOut_r_dir : (s.setOut j f).dir q r = s.dir q r := rfl
end

/-! ### setLink -/

section
variable (j : Nat) (f : Link → Link)
@[simp] theorem State.setLink_r_page : (s.setLink j f).page k = s.page k := rfl
@[simp] theorem State.setLink_r_chan : (s.setLink j f).chan k = s.chan k := rfl
@[simp] theorem State.setLink_r_tim : (s.setLink j f).tim k = s.tim k := rfl
@[simp] theorem State.setLink_r_qual : (s.setLink j f).qual k = s.qual k := rfl
@[simp] theorem State.setLink_r_dom : (s.setLink j f).dom k = s.dom k := rfl
@[simp] theorem State.setLink_r_syn : (s.setLink j f).syn k = s.syn k := rfl
@[simp] theorem State.setLink_r_out : (s.setLink j f).out k = s.out k := rfl
@[simp] theorem State.setLink_r_tdom : (s.setLink j f).tdom k = s.tdom k := rfl
@[simp] theorem State.setLink_r_cell : (s.setLink j f).cell k = s.cell k := rfl
@[simp] theorem State.setLink_r_client : (s.setLink j f).client k = s.client k := rfl
@[simp] theorem State.setLink_r_port : (s.setLink j f).port k = s.port k := rfl
@[simp] theorem State.setLink_r_grant : (s.setLink j f).grant k = s.grant k := rfl
@[simp] theorem State.setLink_r_counter : (s.setLink j f).counter q r = s.counter q r := rfl
@[simp] theorem State.setLink_r_cfg : (s.setLink j f).cfg q r = s.cfg q r := rfl
@[simp] theorem State.setLink_r_dir : (s.setLink j f).dir q r = s.dir q r := rfl
end

/-! ### setTdom -/

section
variable (j : Nat) (f : TimeDom → TimeDom)
@[simp] theorem State.setTdom_r_page : (s.setTdom j f).page k = s.page k := rfl
@[simp] theorem State.setTdom_r_chan : (s.setTdom j f).chan k = s.chan k := rfl
@[simp] theorem State.setTdom_r_tim : (s.setTdom j f).tim k = s.tim k := rfl
@[simp] theorem State.setTdom_r_qual : (s.setTdom j f).qual k = s.qual k := rfl
@[simp] theorem State.setTdom_r_dom : (s.setTdom j f).dom k = s.dom k := rfl
@[simp] theorem State.setTdom_r_syn : (s.setTdom j f).syn k = s.syn k := rfl
@[simp] theorem State.setTdom_r_out : (s.setTdom j f).out k = s.out k := rfl
@[simp] theorem State.setTdom_r_link : (s.setTdom j f).link k = s.link k := rfl
@[simp] theorem State.setTdom_r_cell : (s.setTdom j f).cell k = s.cell k := rfl
@[simp] theorem State.setTdom_r_client : (s.setTdom j f).client k = s.client k := rfl
@[simp] theorem State.setTdom_r_port : (s.setTdom j f).port k = s.port k := rfl
@[simp] theorem State.setTdom_r_grant : (s.setTdom j f).grant k = s.grant k := rfl
@[simp] theorem State.setTdom_r_counter : (s.setTdom j f).counter q r = s.counter q r := rfl
@[simp] theorem State.setTdom_r_cfg : (s.setTdom j f).cfg q r = s.cfg q r := rfl
@[simp] theorem State.setTdom_r_dir : (s.setTdom j f).dir q r = s.dir q r := rfl
end

/-! ### setCell -/

section
variable (j : Nat) (f : Cell → Cell)
@[simp] theorem State.setCell_r_page : (s.setCell j f).page k = s.page k := rfl
@[simp] theorem State.setCell_r_chan : (s.setCell j f).chan k = s.chan k := rfl
@[simp] theorem State.setCell_r_tim : (s.setCell j f).tim k = s.tim k := rfl
@[simp] theorem State.setCell_r_qual : (s.setCell j f).qual k = s.qual k := rfl
@[simp] theorem State.setCell_r_dom : (s.setCell j f).dom k = s.dom k := rfl
@[simp] theorem State.setCell_r_syn : (s.setCell j f).syn k = s.syn k := rfl
@[simp] theorem State.setCell_r_out : (s.setCell j f).out k = s.out k := rfl
@[simp] theorem State.setCell_r_link : (s.setCell j f).link k = s.link k := rfl
@[simp] theorem State.setCell_r_tdom : (s.setCell j f).tdom k = s.tdom k := rfl
@[simp] theorem State.setCell_r_client : (s.setCell j f).client k = s.client k := rfl
@[simp] theorem State.setCell_r_port : (s.setCell j f).port k = s.port k := rfl
@[simp] theorem State.setCell_r_grant : (s.setCell j f).grant k = s.grant k := rfl
@[simp] theorem State.setCell_r_counter : (s.setCell j f).counter q r = s.counter q r := rfl
@[simp] theorem State.setCell_r_cfg : (s.setCell j f).cfg q r = s.cfg q r := rfl
@[simp] theorem State.setCell_r_dir : (s.setCell j f).dir q r = s.dir q r := rfl
end

/-! ### setClient -/

section
variable (j : Nat) (f : Client → Client)
@[simp] theorem State.setClient_r_page : (s.setClient j f).page k = s.page k := rfl
@[simp] theorem State.setClient_r_chan : (s.setClient j f).chan k = s.chan k := rfl
@[simp] theorem State.setClient_r_tim : (s.setClient j f).tim k = s.tim k := rfl
@[simp] theorem State.setClient_r_qual : (s.setClient j f).qual k = s.qual k := rfl
@[simp] theorem State.setClient_r_dom : (s.setClient j f).dom k = s.dom k := rfl
@[simp] theorem State.setClient_r_syn : (s.setClient j f).syn k = s.syn k := rfl
@[simp] theorem State.setClient_r_out : (s.setClient j f).out k = s.out k := rfl
@[simp] theorem State.setClient_r_link : (s.setClient j f).link k = s.link k := rfl
@[simp] theorem State.setClient_r_tdom : (s.setClient j f).tdom k = s.tdom k := rfl
@[simp] theorem State.setClient_r_cell : (s.setClient j f).cell k = s.cell k := rfl
@[simp] theorem State.setClient_r_port : (s.setClient j f).port k = s.port k := rfl
@[simp] theorem State.setClient_r_grant : (s.setClient j f).grant k = s.grant k := rfl
@[simp] theorem State.setClient_r_counter : (s.setClient j f).counter q r = s.counter q r := rfl
@[simp] theorem State.setClient_r_cfg : (s.setClient j f).cfg q r = s.cfg q r := rfl
@[simp] theorem State.setClient_r_dir : (s.setClient j f).dir q r = s.dir q r := rfl
end

/-! ### setPort -/

section
variable (j : Nat) (f : Port → Port)
@[simp] theorem State.setPort_r_page : (s.setPort j f).page k = s.page k := rfl
@[simp] theorem State.setPort_r_chan : (s.setPort j f).chan k = s.chan k := rfl
@[simp] theorem State.setPort_r_tim : (s.setPort j f).tim k = s.tim k := rfl
@[simp] theorem State.setPort_r_qual : (s.setPort j f).qual k = s.qual k := rfl
@[simp] theorem State.setPort_r_dom : (s.setPort j f).dom k = s.dom k := rfl
@[simp] theorem State.setPort_r_syn : (s.setPort j f).syn k = s.syn k := rfl
@[simp] theorem State.setPort_r_out : (s.setPort j f).out k = s.out k := rfl
@[simp] theorem State.setPort_r_link : (s.setPort j f).link k = s.link k := rfl
@[simp] theorem State.setPort_r_tdom : (s.setPort j f).tdom k = s.tdom k := rfl
@[simp] theorem State.setPort_r_cell : (s.setPort j f).cell k = s.cell k := rfl
@[simp] theorem State.setPort_r_client : (s.setPort j f).client k = s.client k := rfl
@[simp] theorem State.setPort_r_grant : (s.setPort j f).grant k = s.grant k := rfl
@[simp] theorem State.setPort_r_counter : (s.setPort j f).counter q r = s.counter q r := rfl
@[simp] theorem State.setPort_r_cfg : (s.setPort j f).cfg q r = s.cfg q r := rfl
@[simp] theorem State.setPort_r_dir : (s.setPort j f).dir q r = s.dir q r := rfl
end

/-! ### setGrant -/

section
variable (j : Nat) (g : Option Grant)
@[simp] theorem State.setGrant_r_page : (s.setGrant j g).page k = s.page k := rfl
@[simp] theorem State.setGrant_r_chan : (s.setGrant j g).chan k = s.chan k := rfl
@[simp] theorem State.setGrant_r_tim : (s.setGrant j g).tim k = s.tim k := rfl
@[simp] theorem State.setGrant_r_qual : (s.setGrant j g).qual k = s.qual k := rfl
@[simp] theorem State.setGrant_r_dom : (s.setGrant j g).dom k = s.dom k := rfl
@[simp] theorem State.setGrant_r_syn : (s.setGrant j g).syn k = s.syn k := rfl
@[simp] theorem State.setGrant_r_out : (s.setGrant j g).out k = s.out k := rfl
@[simp] theorem State.setGrant_r_link : (s.setGrant j g).link k = s.link k := rfl
@[simp] theorem State.setGrant_r_tdom : (s.setGrant j g).tdom k = s.tdom k := rfl
@[simp] theorem State.setGrant_r_cell : (s.setGrant j g).cell k = s.cell k := rfl
@[simp] theorem State.setGrant_r_client : (s.setGrant j g).client k = s.client k := rfl
@[simp] theorem State.setGrant_r_port : (s.setGrant j g).port k = s.port k := rfl
@[simp] theorem State.setGrant_r_counter : (s.setGrant j g).counter q r = s.counter q r := rfl
@[simp] theorem State.setGrant_r_cfg : (s.setGrant j g).cfg q r = s.cfg q r := rfl
@[simp] theorem State.setGrant_r_dir : (s.setGrant j g).dir q r = s.dir q r := rfl
end

/-! ### addCtr -/

section
variable (p o n : Nat)
@[simp] theorem State.addCtr_r_page : (s.addCtr p o n).page k = s.page k := rfl
@[simp] theorem State.addCtr_r_chan : (s.addCtr p o n).chan k = s.chan k := rfl
@[simp] theorem State.addCtr_r_tim : (s.addCtr p o n).tim k = s.tim k := rfl
@[simp] theorem State.addCtr_r_qual : (s.addCtr p o n).qual k = s.qual k := rfl
@[simp] theorem State.addCtr_r_dom : (s.addCtr p o n).dom k = s.dom k := rfl
@[simp] theorem State.addCtr_r_syn : (s.addCtr p o n).syn k = s.syn k := rfl
@[simp] theorem State.addCtr_r_out : (s.addCtr p o n).out k = s.out k := rfl
@[simp] theorem State.addCtr_r_link : (s.addCtr p o n).link k = s.link k := rfl
@[simp] theorem State.addCtr_r_tdom : (s.addCtr p o n).tdom k = s.tdom k := rfl
@[simp] theorem State.addCtr_r_cell : (s.addCtr p o n).cell k = s.cell k := rfl
@[simp] theorem State.addCtr_r_client : (s.addCtr p o n).client k = s.client k := rfl
@[simp] theorem State.addCtr_r_port : (s.addCtr p o n).port k = s.port k := rfl
@[simp] theorem State.addCtr_r_grant : (s.addCtr p o n).grant k = s.grant k := rfl
@[simp] theorem State.addCtr_r_cfg : (s.addCtr p o n).cfg q r = s.cfg q r := rfl
@[simp] theorem State.addCtr_r_dir : (s.addCtr p o n).dir q r = s.dir q r := rfl
end

/-! ### bump -/

section
variable (p o : Nat)
@[simp] theorem State.bump_r_page : (s.bump p o).page k = s.page k := rfl
@[simp] theorem State.bump_r_chan : (s.bump p o).chan k = s.chan k := rfl
@[simp] theorem State.bump_r_tim : (s.bump p o).tim k = s.tim k := rfl
@[simp] theorem State.bump_r_qual : (s.bump p o).qual k = s.qual k := rfl
@[simp] theorem State.bump_r_dom : (s.bump p o).dom k = s.dom k := rfl
@[simp] theorem State.bump_r_syn : (s.bump p o).syn k = s.syn k := rfl
@[simp] theorem State.bump_r_out : (s.bump p o).out k = s.out k := rfl
@[simp] theorem State.bump_r_link : (s.bump p o).link k = s.link k := rfl
@[simp] theorem State.bump_r_tdom : (s.bump p o).tdom k = s.tdom k := rfl
@[simp] theorem State.bump_r_cell : (s.bump p o).cell k = s.cell k := rfl
@[simp] theorem State.bump_r_client : (s.bump p o).client k = s.client k := rfl
@[simp] theorem State.bump_r_port : (s.bump p o).port k = s.port k := rfl
@[simp] theorem State.bump_r_grant : (s.bump p o).grant k = s.grant k := rfl
@[simp] theorem State.bump_r_cfg : (s.bump p o).cfg q r = s.cfg q r := rfl
@[simp] theorem State.bump_r_dir : (s.bump p o).dir q r = s.dir q r := rfl
end

/-! ### nextFree -/

@[simp] theorem State.nextFree_r_page : (s.nextFree).page k = s.page k := rfl
@[simp] theorem State.nextFree_r_chan : (s.nextFree).chan k = s.chan k := rfl
@[simp] theorem State.nextFree_r_tim : (s.nextFree).tim k = s.tim k := rfl
@[simp] theorem State.nextFree_r_qual : (s.nextFree).qual k = s.qual k := rfl
@[simp] theorem State.nextFree_r_dom : (s.nextFree).dom k = s.dom k := rfl
@[simp] theorem State.nextFree_r_syn : (s.nextFree).syn k = s.syn k := rfl
@[simp] theorem State.nextFree_r_out : (s.nextFree).out k = s.out k := rfl
@[simp] theorem State.nextFree_r_link : (s.nextFree).link k = s.link k := rfl
@[simp] theorem State.nextFree_r_tdom : (s.nextFree).tdom k = s.tdom k := rfl
@[simp] theorem State.nextFree_r_cell : (s.nextFree).cell k = s.cell k := rfl
@[simp] theorem State.nextFree_r_client : (s.nextFree).client k = s.client k := rfl
@[simp] theorem State.nextFree_r_port : (s.nextFree).port k = s.port k := rfl
@[simp] theorem State.nextFree_r_grant : (s.nextFree).grant k = s.grant k := rfl
@[simp] theorem State.nextFree_r_counter : (s.nextFree).counter q r = s.counter q r := rfl
@[simp] theorem State.nextFree_r_cfg : (s.nextFree).cfg q r = s.cfg q r := rfl
@[simp] theorem State.nextFree_r_dir : (s.nextFree).dir q r = s.dir q r := rfl

/-! ### event -/

section
variable (p b : Nat)
@[simp] theorem State.event_r_chan : (s.event p b).chan k = s.chan k := rfl
@[simp] theorem State.event_r_tim : (s.event p b).tim k = s.tim k := rfl
@[simp] theorem State.event_r_qual : (s.event p b).qual k = s.qual k := rfl
@[simp] theorem State.event_r_dom : (s.event p b).dom k = s.dom k := rfl
@[simp] theorem State.event_r_syn : (s.event p b).syn k = s.syn k := rfl
@[simp] theorem State.event_r_out : (s.event p b).out k = s.out k := rfl
@[simp] theorem State.event_r_link : (s.event p b).link k = s.link k := rfl
@[simp] theorem State.event_r_tdom : (s.event p b).tdom k = s.tdom k := rfl
@[simp] theorem State.event_r_cell : (s.event p b).cell k = s.cell k := rfl
@[simp] theorem State.event_r_client : (s.event p b).client k = s.client k := rfl
@[simp] theorem State.event_r_port : (s.event p b).port k = s.port k := rfl
@[simp] theorem State.event_r_grant : (s.event p b).grant k = s.grant k := rfl
@[simp] theorem State.event_r_counter : (s.event p b).counter q r = s.counter q r := rfl
@[simp] theorem State.event_r_cfg : (s.event p b).cfg q r = s.cfg q r := rfl
@[simp] theorem State.event_r_dir : (s.event p b).dir q r = s.dir q r := rfl
end

/-! ### faultBit -/

section
variable (p b : Nat)
@[simp] theorem State.faultBit_r_chan : (s.faultBit p b).chan k = s.chan k := rfl
@[simp] theorem State.faultBit_r_tim : (s.faultBit p b).tim k = s.tim k := rfl
@[simp] theorem State.faultBit_r_qual : (s.faultBit p b).qual k = s.qual k := rfl
@[simp] theorem State.faultBit_r_dom : (s.faultBit p b).dom k = s.dom k := rfl
@[simp] theorem State.faultBit_r_syn : (s.faultBit p b).syn k = s.syn k := rfl
@[simp] theorem State.faultBit_r_out : (s.faultBit p b).out k = s.out k := rfl
@[simp] theorem State.faultBit_r_link : (s.faultBit p b).link k = s.link k := rfl
@[simp] theorem State.faultBit_r_tdom : (s.faultBit p b).tdom k = s.tdom k := rfl
@[simp] theorem State.faultBit_r_cell : (s.faultBit p b).cell k = s.cell k := rfl
@[simp] theorem State.faultBit_r_client : (s.faultBit p b).client k = s.client k := rfl
@[simp] theorem State.faultBit_r_port : (s.faultBit p b).port k = s.port k := rfl
@[simp] theorem State.faultBit_r_grant : (s.faultBit p b).grant k = s.grant k := rfl
@[simp] theorem State.faultBit_r_counter : (s.faultBit p b).counter q r = s.counter q r := rfl
@[simp] theorem State.faultBit_r_cfg : (s.faultBit p b).cfg q r = s.cfg q r := rfl
@[simp] theorem State.faultBit_r_dir : (s.faultBit p b).dir q r = s.dir q r := rfl
end

/-! ### latchIrq -/

section
variable (n : Nat)
@[simp] theorem State.latchIrq_r_page : (s.latchIrq n).page k = s.page k := rfl
@[simp] theorem State.latchIrq_r_chan : (s.latchIrq n).chan k = s.chan k := rfl
@[simp] theorem State.latchIrq_r_tim : (s.latchIrq n).tim k = s.tim k := rfl
@[simp] theorem State.latchIrq_r_qual : (s.latchIrq n).qual k = s.qual k := rfl
@[simp] theorem State.latchIrq_r_dom : (s.latchIrq n).dom k = s.dom k := rfl
@[simp] theorem State.latchIrq_r_syn : (s.latchIrq n).syn k = s.syn k := rfl
@[simp] theorem State.latchIrq_r_out : (s.latchIrq n).out k = s.out k := rfl
@[simp] theorem State.latchIrq_r_link : (s.latchIrq n).link k = s.link k := rfl
@[simp] theorem State.latchIrq_r_tdom : (s.latchIrq n).tdom k = s.tdom k := rfl
@[simp] theorem State.latchIrq_r_cell : (s.latchIrq n).cell k = s.cell k := rfl
@[simp] theorem State.latchIrq_r_client : (s.latchIrq n).client k = s.client k := rfl
@[simp] theorem State.latchIrq_r_port : (s.latchIrq n).port k = s.port k := rfl
@[simp] theorem State.latchIrq_r_grant : (s.latchIrq n).grant k = s.grant k := rfl
@[simp] theorem State.latchIrq_r_counter : (s.latchIrq n).counter q r = s.counter q r := rfl
@[simp] theorem State.latchIrq_r_cfg : (s.latchIrq n).cfg q r = s.cfg q r := rfl
@[simp] theorem State.latchIrq_r_dir : (s.latchIrq n).dir q r = s.dir q r := rfl
end

/-! ### latchFatal -/

@[simp] theorem State.latchFatal_r_page : (s.latchFatal).page k = s.page k := rfl
@[simp] theorem State.latchFatal_r_chan : (s.latchFatal).chan k = s.chan k := rfl
@[simp] theorem State.latchFatal_r_tim : (s.latchFatal).tim k = s.tim k := rfl
@[simp] theorem State.latchFatal_r_qual : (s.latchFatal).qual k = s.qual k := rfl
@[simp] theorem State.latchFatal_r_dom : (s.latchFatal).dom k = s.dom k := rfl
@[simp] theorem State.latchFatal_r_syn : (s.latchFatal).syn k = s.syn k := rfl
@[simp] theorem State.latchFatal_r_out : (s.latchFatal).out k = s.out k := rfl
@[simp] theorem State.latchFatal_r_link : (s.latchFatal).link k = s.link k := rfl
@[simp] theorem State.latchFatal_r_tdom : (s.latchFatal).tdom k = s.tdom k := rfl
@[simp] theorem State.latchFatal_r_cell : (s.latchFatal).cell k = s.cell k := rfl
@[simp] theorem State.latchFatal_r_client : (s.latchFatal).client k = s.client k := rfl
@[simp] theorem State.latchFatal_r_port : (s.latchFatal).port k = s.port k := rfl
@[simp] theorem State.latchFatal_r_grant : (s.latchFatal).grant k = s.grant k := rfl
@[simp] theorem State.latchFatal_r_counter : (s.latchFatal).counter q r = s.counter q r := rfl
@[simp] theorem State.latchFatal_r_cfg : (s.latchFatal).cfg q r = s.cfg q r := rfl
@[simp] theorem State.latchFatal_r_dir : (s.latchFatal).dir q r = s.dir q r := rfl

/-! ### setStaged -/

section
variable (m : Nat) (v : Option Staged)
@[simp] theorem State.setStaged_r_page : (s.setStaged m v).page k = s.page k := rfl
@[simp] theorem State.setStaged_r_chan : (s.setStaged m v).chan k = s.chan k := rfl
@[simp] theorem State.setStaged_r_tim : (s.setStaged m v).tim k = s.tim k := rfl
@[simp] theorem State.setStaged_r_qual : (s.setStaged m v).qual k = s.qual k := rfl
@[simp] theorem State.setStaged_r_dom : (s.setStaged m v).dom k = s.dom k := rfl
@[simp] theorem State.setStaged_r_syn : (s.setStaged m v).syn k = s.syn k := rfl
@[simp] theorem State.setStaged_r_out : (s.setStaged m v).out k = s.out k := rfl
@[simp] theorem State.setStaged_r_link : (s.setStaged m v).link k = s.link k := rfl
@[simp] theorem State.setStaged_r_tdom : (s.setStaged m v).tdom k = s.tdom k := rfl
@[simp] theorem State.setStaged_r_cell : (s.setStaged m v).cell k = s.cell k := rfl
@[simp] theorem State.setStaged_r_client : (s.setStaged m v).client k = s.client k := rfl
@[simp] theorem State.setStaged_r_port : (s.setStaged m v).port k = s.port k := rfl
@[simp] theorem State.setStaged_r_grant : (s.setStaged m v).grant k = s.grant k := rfl
@[simp] theorem State.setStaged_r_counter : (s.setStaged m v).counter q r = s.counter q r := rfl
@[simp] theorem State.setStaged_r_cfg : (s.setStaged m v).cfg q r = s.cfg q r := rfl
@[simp] theorem State.setStaged_r_dir : (s.setStaged m v).dir q r = s.dir q r := rfl
end

/-! ### setOsc -/

section
variable (f : Osc → Osc)
@[simp] theorem State.setOsc_r_page : (s.setOsc f).page k = s.page k := rfl
@[simp] theorem State.setOsc_r_chan : (s.setOsc f).chan k = s.chan k := rfl
@[simp] theorem State.setOsc_r_tim : (s.setOsc f).tim k = s.tim k := rfl
@[simp] theorem State.setOsc_r_qual : (s.setOsc f).qual k = s.qual k := rfl
@[simp] theorem State.setOsc_r_dom : (s.setOsc f).dom k = s.dom k := rfl
@[simp] theorem State.setOsc_r_syn : (s.setOsc f).syn k = s.syn k := rfl
@[simp] theorem State.setOsc_r_out : (s.setOsc f).out k = s.out k := rfl
@[simp] theorem State.setOsc_r_link : (s.setOsc f).link k = s.link k := rfl
@[simp] theorem State.setOsc_r_tdom : (s.setOsc f).tdom k = s.tdom k := rfl
@[simp] theorem State.setOsc_r_cell : (s.setOsc f).cell k = s.cell k := rfl
@[simp] theorem State.setOsc_r_client : (s.setOsc f).client k = s.client k := rfl
@[simp] theorem State.setOsc_r_port : (s.setOsc f).port k = s.port k := rfl
@[simp] theorem State.setOsc_r_grant : (s.setOsc f).grant k = s.grant k := rfl
@[simp] theorem State.setOsc_r_counter : (s.setOsc f).counter q r = s.counter q r := rfl
@[simp] theorem State.setOsc_r_cfg : (s.setOsc f).cfg q r = s.cfg q r := rfl
@[simp] theorem State.setOsc_r_dir : (s.setOsc f).dir q r = s.dir q r := rfl
end

/-! ### setHarvest -/

section
variable (f : Harvest → Harvest)
@[simp] theorem State.setHarvest_r_page : (s.setHarvest f).page k = s.page k := rfl
@[simp] theorem State.setHarvest_r_chan : (s.setHarvest f).chan k = s.chan k := rfl
@[simp] theorem State.setHarvest_r_tim : (s.setHarvest f).tim k = s.tim k := rfl
@[simp] theorem State.setHarvest_r_qual : (s.setHarvest f).qual k = s.qual k := rfl
@[simp] theorem State.setHarvest_r_dom : (s.setHarvest f).dom k = s.dom k := rfl
@[simp] theorem State.setHarvest_r_syn : (s.setHarvest f).syn k = s.syn k := rfl
@[simp] theorem State.setHarvest_r_out : (s.setHarvest f).out k = s.out k := rfl
@[simp] theorem State.setHarvest_r_link : (s.setHarvest f).link k = s.link k := rfl
@[simp] theorem State.setHarvest_r_tdom : (s.setHarvest f).tdom k = s.tdom k := rfl
@[simp] theorem State.setHarvest_r_cell : (s.setHarvest f).cell k = s.cell k := rfl
@[simp] theorem State.setHarvest_r_client : (s.setHarvest f).client k = s.client k := rfl
@[simp] theorem State.setHarvest_r_port : (s.setHarvest f).port k = s.port k := rfl
@[simp] theorem State.setHarvest_r_grant : (s.setHarvest f).grant k = s.grant k := rfl
@[simp] theorem State.setHarvest_r_counter : (s.setHarvest f).counter q r = s.counter q r := rfl
@[simp] theorem State.setHarvest_r_cfg : (s.setHarvest f).cfg q r = s.cfg q r := rfl
@[simp] theorem State.setHarvest_r_dir : (s.setHarvest f).dir q r = s.dir q r := rfl
end

/-! ### setBoard -/

section
variable (f : Board → Board)
@[simp] theorem State.setBoard_r_page : (s.setBoard f).page k = s.page k := rfl
@[simp] theorem State.setBoard_r_chan : (s.setBoard f).chan k = s.chan k := rfl
@[simp] theorem State.setBoard_r_tim : (s.setBoard f).tim k = s.tim k := rfl
@[simp] theorem State.setBoard_r_qual : (s.setBoard f).qual k = s.qual k := rfl
@[simp] theorem State.setBoard_r_dom : (s.setBoard f).dom k = s.dom k := rfl
@[simp] theorem State.setBoard_r_syn : (s.setBoard f).syn k = s.syn k := rfl
@[simp] theorem State.setBoard_r_out : (s.setBoard f).out k = s.out k := rfl
@[simp] theorem State.setBoard_r_link : (s.setBoard f).link k = s.link k := rfl
@[simp] theorem State.setBoard_r_tdom : (s.setBoard f).tdom k = s.tdom k := rfl
@[simp] theorem State.setBoard_r_client : (s.setBoard f).client k = s.client k := rfl
@[simp] theorem State.setBoard_r_port : (s.setBoard f).port k = s.port k := rfl
@[simp] theorem State.setBoard_r_grant : (s.setBoard f).grant k = s.grant k := rfl
@[simp] theorem State.setBoard_r_counter : (s.setBoard f).counter q r = s.counter q r := rfl
@[simp] theorem State.setBoard_r_cfg : (s.setBoard f).cfg q r = s.cfg q r := rfl
@[simp] theorem State.setBoard_r_dir : (s.setBoard f).dir q r = s.dir q r := rfl
end

/-! ### setPair -/

section
variable (f : PairUnit → PairUnit)
@[simp] theorem State.setPair_r_page : (s.setPair f).page k = s.page k := rfl
@[simp] theorem State.setPair_r_chan : (s.setPair f).chan k = s.chan k := rfl
@[simp] theorem State.setPair_r_tim : (s.setPair f).tim k = s.tim k := rfl
@[simp] theorem State.setPair_r_qual : (s.setPair f).qual k = s.qual k := rfl
@[simp] theorem State.setPair_r_dom : (s.setPair f).dom k = s.dom k := rfl
@[simp] theorem State.setPair_r_syn : (s.setPair f).syn k = s.syn k := rfl
@[simp] theorem State.setPair_r_out : (s.setPair f).out k = s.out k := rfl
@[simp] theorem State.setPair_r_link : (s.setPair f).link k = s.link k := rfl
@[simp] theorem State.setPair_r_tdom : (s.setPair f).tdom k = s.tdom k := rfl
@[simp] theorem State.setPair_r_cell : (s.setPair f).cell k = s.cell k := rfl
@[simp] theorem State.setPair_r_client : (s.setPair f).client k = s.client k := rfl
@[simp] theorem State.setPair_r_port : (s.setPair f).port k = s.port k := rfl
@[simp] theorem State.setPair_r_grant : (s.setPair f).grant k = s.grant k := rfl
@[simp] theorem State.setPair_r_counter : (s.setPair f).counter q r = s.counter q r := rfl
@[simp] theorem State.setPair_r_cfg : (s.setPair f).cfg q r = s.cfg q r := rfl
@[simp] theorem State.setPair_r_dir : (s.setPair f).dir q r = s.dir q r := rfl
end

/-! ### setSvc -/

section
variable (f : Service → Service)
@[simp] theorem State.setSvc_r_page : (s.setSvc f).page k = s.page k := rfl
@[simp] theorem State.setSvc_r_chan : (s.setSvc f).chan k = s.chan k := rfl
@[simp] theorem State.setSvc_r_tim : (s.setSvc f).tim k = s.tim k := rfl
@[simp] theorem State.setSvc_r_qual : (s.setSvc f).qual k = s.qual k := rfl
@[simp] theorem State.setSvc_r_dom : (s.setSvc f).dom k = s.dom k := rfl
@[simp] theorem State.setSvc_r_syn : (s.setSvc f).syn k = s.syn k := rfl
@[simp] theorem State.setSvc_r_out : (s.setSvc f).out k = s.out k := rfl
@[simp] theorem State.setSvc_r_link : (s.setSvc f).link k = s.link k := rfl
@[simp] theorem State.setSvc_r_tdom : (s.setSvc f).tdom k = s.tdom k := rfl
@[simp] theorem State.setSvc_r_cell : (s.setSvc f).cell k = s.cell k := rfl
@[simp] theorem State.setSvc_r_counter : (s.setSvc f).counter q r = s.counter q r := rfl
@[simp] theorem State.setSvc_r_cfg : (s.setSvc f).cfg q r = s.cfg q r := rfl
@[simp] theorem State.setSvc_r_dir : (s.setSvc f).dir q r = s.dir q r := rfl
end

/-! ### setBudget -/

section
variable (f : Budget → Budget)
@[simp] theorem State.setBudget_r_page : (s.setBudget f).page k = s.page k := rfl
@[simp] theorem State.setBudget_r_chan : (s.setBudget f).chan k = s.chan k := rfl
@[simp] theorem State.setBudget_r_tim : (s.setBudget f).tim k = s.tim k := rfl
@[simp] theorem State.setBudget_r_qual : (s.setBudget f).qual k = s.qual k := rfl
@[simp] theorem State.setBudget_r_dom : (s.setBudget f).dom k = s.dom k := rfl
@[simp] theorem State.setBudget_r_syn : (s.setBudget f).syn k = s.syn k := rfl
@[simp] theorem State.setBudget_r_out : (s.setBudget f).out k = s.out k := rfl
@[simp] theorem State.setBudget_r_link : (s.setBudget f).link k = s.link k := rfl
@[simp] theorem State.setBudget_r_tdom : (s.setBudget f).tdom k = s.tdom k := rfl
@[simp] theorem State.setBudget_r_cell : (s.setBudget f).cell k = s.cell k := rfl
@[simp] theorem State.setBudget_r_client : (s.setBudget f).client k = s.client k := rfl
@[simp] theorem State.setBudget_r_port : (s.setBudget f).port k = s.port k := rfl
@[simp] theorem State.setBudget_r_grant : (s.setBudget f).grant k = s.grant k := rfl
@[simp] theorem State.setBudget_r_counter : (s.setBudget f).counter q r = s.counter q r := rfl
@[simp] theorem State.setBudget_r_cfg : (s.setBudget f).cfg q r = s.cfg q r := rfl
@[simp] theorem State.setBudget_r_dir : (s.setBudget f).dir q r = s.dir q r := rfl
end

/-! ### setIrq -/

section
variable (f : Irq → Irq)
@[simp] theorem State.setIrq_r_page : (s.setIrq f).page k = s.page k := rfl
@[simp] theorem State.setIrq_r_chan : (s.setIrq f).chan k = s.chan k := rfl
@[simp] theorem State.setIrq_r_tim : (s.setIrq f).tim k = s.tim k := rfl
@[simp] theorem State.setIrq_r_qual : (s.setIrq f).qual k = s.qual k := rfl
@[simp] theorem State.setIrq_r_dom : (s.setIrq f).dom k = s.dom k := rfl
@[simp] theorem State.setIrq_r_syn : (s.setIrq f).syn k = s.syn k := rfl
@[simp] theorem State.setIrq_r_out : (s.setIrq f).out k = s.out k := rfl
@[simp] theorem State.setIrq_r_link : (s.setIrq f).link k = s.link k := rfl
@[simp] theorem State.setIrq_r_tdom : (s.setIrq f).tdom k = s.tdom k := rfl
@[simp] theorem State.setIrq_r_cell : (s.setIrq f).cell k = s.cell k := rfl
@[simp] theorem State.setIrq_r_client : (s.setIrq f).client k = s.client k := rfl
@[simp] theorem State.setIrq_r_port : (s.setIrq f).port k = s.port k := rfl
@[simp] theorem State.setIrq_r_grant : (s.setIrq f).grant k = s.grant k := rfl
@[simp] theorem State.setIrq_r_counter : (s.setIrq f).counter q r = s.counter q r := rfl
@[simp] theorem State.setIrq_r_cfg : (s.setIrq f).cfg q r = s.cfg q r := rfl
@[simp] theorem State.setIrq_r_dir : (s.setIrq f).dir q r = s.dir q r := rfl
end

/-! ### setFault -/

section
variable (f : FaultUnit → FaultUnit)
@[simp] theorem State.setFault_r_page : (s.setFault f).page k = s.page k := rfl
@[simp] theorem State.setFault_r_chan : (s.setFault f).chan k = s.chan k := rfl
@[simp] theorem State.setFault_r_tim : (s.setFault f).tim k = s.tim k := rfl
@[simp] theorem State.setFault_r_qual : (s.setFault f).qual k = s.qual k := rfl
@[simp] theorem State.setFault_r_dom : (s.setFault f).dom k = s.dom k := rfl
@[simp] theorem State.setFault_r_syn : (s.setFault f).syn k = s.syn k := rfl
@[simp] theorem State.setFault_r_out : (s.setFault f).out k = s.out k := rfl
@[simp] theorem State.setFault_r_link : (s.setFault f).link k = s.link k := rfl
@[simp] theorem State.setFault_r_tdom : (s.setFault f).tdom k = s.tdom k := rfl
@[simp] theorem State.setFault_r_cell : (s.setFault f).cell k = s.cell k := rfl
@[simp] theorem State.setFault_r_client : (s.setFault f).client k = s.client k := rfl
@[simp] theorem State.setFault_r_port : (s.setFault f).port k = s.port k := rfl
@[simp] theorem State.setFault_r_grant : (s.setFault f).grant k = s.grant k := rfl
@[simp] theorem State.setFault_r_counter : (s.setFault f).counter q r = s.counter q r := rfl
@[simp] theorem State.setFault_r_cfg : (s.setFault f).cfg q r = s.cfg q r := rfl
@[simp] theorem State.setFault_r_dir : (s.setFault f).dir q r = s.dir q r := rfl
end

/-! ### setNv -/

section
variable (f : NvUnit → NvUnit)
@[simp] theorem State.setNv_r_page : (s.setNv f).page k = s.page k := rfl
@[simp] theorem State.setNv_r_chan : (s.setNv f).chan k = s.chan k := rfl
@[simp] theorem State.setNv_r_tim : (s.setNv f).tim k = s.tim k := rfl
@[simp] theorem State.setNv_r_qual : (s.setNv f).qual k = s.qual k := rfl
@[simp] theorem State.setNv_r_dom : (s.setNv f).dom k = s.dom k := rfl
@[simp] theorem State.setNv_r_syn : (s.setNv f).syn k = s.syn k := rfl
@[simp] theorem State.setNv_r_out : (s.setNv f).out k = s.out k := rfl
@[simp] theorem State.setNv_r_link : (s.setNv f).link k = s.link k := rfl
@[simp] theorem State.setNv_r_tdom : (s.setNv f).tdom k = s.tdom k := rfl
@[simp] theorem State.setNv_r_cell : (s.setNv f).cell k = s.cell k := rfl
@[simp] theorem State.setNv_r_client : (s.setNv f).client k = s.client k := rfl
@[simp] theorem State.setNv_r_port : (s.setNv f).port k = s.port k := rfl
@[simp] theorem State.setNv_r_grant : (s.setNv f).grant k = s.grant k := rfl
@[simp] theorem State.setNv_r_counter : (s.setNv f).counter q r = s.counter q r := rfl
@[simp] theorem State.setNv_r_cfg : (s.setNv f).cfg q r = s.cfg q r := rfl
@[simp] theorem State.setNv_r_dir : (s.setNv f).dir q r = s.dir q r := rfl
end

/-! ### setSec -/

section
variable (f : SecUnit → SecUnit)
@[simp] theorem State.setSec_r_page : (s.setSec f).page k = s.page k := rfl
@[simp] theorem State.setSec_r_chan : (s.setSec f).chan k = s.chan k := rfl
@[simp] theorem State.setSec_r_tim : (s.setSec f).tim k = s.tim k := rfl
@[simp] theorem State.setSec_r_qual : (s.setSec f).qual k = s.qual k := rfl
@[simp] theorem State.setSec_r_dom : (s.setSec f).dom k = s.dom k := rfl
@[simp] theorem State.setSec_r_syn : (s.setSec f).syn k = s.syn k := rfl
@[simp] theorem State.setSec_r_out : (s.setSec f).out k = s.out k := rfl
@[simp] theorem State.setSec_r_link : (s.setSec f).link k = s.link k := rfl
@[simp] theorem State.setSec_r_tdom : (s.setSec f).tdom k = s.tdom k := rfl
@[simp] theorem State.setSec_r_cell : (s.setSec f).cell k = s.cell k := rfl
@[simp] theorem State.setSec_r_client : (s.setSec f).client k = s.client k := rfl
@[simp] theorem State.setSec_r_port : (s.setSec f).port k = s.port k := rfl
@[simp] theorem State.setSec_r_grant : (s.setSec f).grant k = s.grant k := rfl
@[simp] theorem State.setSec_r_counter : (s.setSec f).counter q r = s.counter q r := rfl
@[simp] theorem State.setSec_r_cfg : (s.setSec f).cfg q r = s.cfg q r := rfl
@[simp] theorem State.setSec_r_dir : (s.setSec f).dir q r = s.dir q r := rfl
end

/-! ### setBoot -/

section
variable (f : Boot → Boot)
@[simp] theorem State.setBoot_r_page : (s.setBoot f).page k = s.page k := rfl
@[simp] theorem State.setBoot_r_chan : (s.setBoot f).chan k = s.chan k := rfl
@[simp] theorem State.setBoot_r_tim : (s.setBoot f).tim k = s.tim k := rfl
@[simp] theorem State.setBoot_r_qual : (s.setBoot f).qual k = s.qual k := rfl
@[simp] theorem State.setBoot_r_dom : (s.setBoot f).dom k = s.dom k := rfl
@[simp] theorem State.setBoot_r_syn : (s.setBoot f).syn k = s.syn k := rfl
@[simp] theorem State.setBoot_r_out : (s.setBoot f).out k = s.out k := rfl
@[simp] theorem State.setBoot_r_link : (s.setBoot f).link k = s.link k := rfl
@[simp] theorem State.setBoot_r_tdom : (s.setBoot f).tdom k = s.tdom k := rfl
@[simp] theorem State.setBoot_r_cell : (s.setBoot f).cell k = s.cell k := rfl
@[simp] theorem State.setBoot_r_client : (s.setBoot f).client k = s.client k := rfl
@[simp] theorem State.setBoot_r_port : (s.setBoot f).port k = s.port k := rfl
@[simp] theorem State.setBoot_r_grant : (s.setBoot f).grant k = s.grant k := rfl
@[simp] theorem State.setBoot_r_counter : (s.setBoot f).counter q r = s.counter q r := rfl
@[simp] theorem State.setBoot_r_cfg : (s.setBoot f).cfg q r = s.cfg q r := rfl
@[simp] theorem State.setBoot_r_dir : (s.setBoot f).dir q r = s.dir q r := rfl
end

/-! ### setSys -/

section
variable (f : SysUnit → SysUnit)
@[simp] theorem State.setSys_r_page : (s.setSys f).page k = s.page k := rfl
@[simp] theorem State.setSys_r_chan : (s.setSys f).chan k = s.chan k := rfl
@[simp] theorem State.setSys_r_tim : (s.setSys f).tim k = s.tim k := rfl
@[simp] theorem State.setSys_r_qual : (s.setSys f).qual k = s.qual k := rfl
@[simp] theorem State.setSys_r_dom : (s.setSys f).dom k = s.dom k := rfl
@[simp] theorem State.setSys_r_syn : (s.setSys f).syn k = s.syn k := rfl
@[simp] theorem State.setSys_r_out : (s.setSys f).out k = s.out k := rfl
@[simp] theorem State.setSys_r_link : (s.setSys f).link k = s.link k := rfl
@[simp] theorem State.setSys_r_tdom : (s.setSys f).tdom k = s.tdom k := rfl
@[simp] theorem State.setSys_r_cell : (s.setSys f).cell k = s.cell k := rfl
@[simp] theorem State.setSys_r_client : (s.setSys f).client k = s.client k := rfl
@[simp] theorem State.setSys_r_port : (s.setSys f).port k = s.port k := rfl
@[simp] theorem State.setSys_r_grant : (s.setSys f).grant k = s.grant k := rfl
@[simp] theorem State.setSys_r_counter : (s.setSys f).counter q r = s.counter q r := rfl
@[simp] theorem State.setSys_r_cfg : (s.setSys f).cfg q r = s.cfg q r := rfl
@[simp] theorem State.setSys_r_dir : (s.setSys f).dir q r = s.dir q r := rfl
end

/-! ### osc -/

section
variable (v : Osc)
@[simp] theorem State.with_osc_page : ({ s with osc := v } : State).page k = s.page k := rfl
@[simp] theorem State.with_osc_chan : ({ s with osc := v } : State).chan k = s.chan k := rfl
@[simp] theorem State.with_osc_tim : ({ s with osc := v } : State).tim k = s.tim k := rfl
@[simp] theorem State.with_osc_qual : ({ s with osc := v } : State).qual k = s.qual k := rfl
@[simp] theorem State.with_osc_dom : ({ s with osc := v } : State).dom k = s.dom k := rfl
@[simp] theorem State.with_osc_syn : ({ s with osc := v } : State).syn k = s.syn k := rfl
@[simp] theorem State.with_osc_out : ({ s with osc := v } : State).out k = s.out k := rfl
@[simp] theorem State.with_osc_link : ({ s with osc := v } : State).link k = s.link k := rfl
@[simp] theorem State.with_osc_tdom : ({ s with osc := v } : State).tdom k = s.tdom k := rfl
@[simp] theorem State.with_osc_cell : ({ s with osc := v } : State).cell k = s.cell k := rfl
@[simp] theorem State.with_osc_client : ({ s with osc := v } : State).client k = s.client k := rfl
@[simp] theorem State.with_osc_port : ({ s with osc := v } : State).port k = s.port k := rfl
@[simp] theorem State.with_osc_grant : ({ s with osc := v } : State).grant k = s.grant k := rfl
@[simp] theorem State.with_osc_counter : ({ s with osc := v } : State).counter q r = s.counter q r := rfl
@[simp] theorem State.with_osc_cfg : ({ s with osc := v } : State).cfg q r = s.cfg q r := rfl
@[simp] theorem State.with_osc_dir : ({ s with osc := v } : State).dir q r = s.dir q r := rfl
end

/-! ### irq -/

section
variable (v : Irq)
@[simp] theorem State.with_irq_page : ({ s with irq := v } : State).page k = s.page k := rfl
@[simp] theorem State.with_irq_chan : ({ s with irq := v } : State).chan k = s.chan k := rfl
@[simp] theorem State.with_irq_tim : ({ s with irq := v } : State).tim k = s.tim k := rfl
@[simp] theorem State.with_irq_qual : ({ s with irq := v } : State).qual k = s.qual k := rfl
@[simp] theorem State.with_irq_dom : ({ s with irq := v } : State).dom k = s.dom k := rfl
@[simp] theorem State.with_irq_syn : ({ s with irq := v } : State).syn k = s.syn k := rfl
@[simp] theorem State.with_irq_out : ({ s with irq := v } : State).out k = s.out k := rfl
@[simp] theorem State.with_irq_link : ({ s with irq := v } : State).link k = s.link k := rfl
@[simp] theorem State.with_irq_tdom : ({ s with irq := v } : State).tdom k = s.tdom k := rfl
@[simp] theorem State.with_irq_cell : ({ s with irq := v } : State).cell k = s.cell k := rfl
@[simp] theorem State.with_irq_client : ({ s with irq := v } : State).client k = s.client k := rfl
@[simp] theorem State.with_irq_port : ({ s with irq := v } : State).port k = s.port k := rfl
@[simp] theorem State.with_irq_grant : ({ s with irq := v } : State).grant k = s.grant k := rfl
@[simp] theorem State.with_irq_counter : ({ s with irq := v } : State).counter q r = s.counter q r := rfl
@[simp] theorem State.with_irq_cfg : ({ s with irq := v } : State).cfg q r = s.cfg q r := rfl
@[simp] theorem State.with_irq_dir : ({ s with irq := v } : State).dir q r = s.dir q r := rfl
end

/-! ### fault -/

section
variable (v : FaultUnit)
@[simp] theorem State.with_fault_page : ({ s with fault := v } : State).page k = s.page k := rfl
@[simp] theorem State.with_fault_chan : ({ s with fault := v } : State).chan k = s.chan k := rfl
@[simp] theorem State.with_fault_tim : ({ s with fault := v } : State).tim k = s.tim k := rfl
@[simp] theorem State.with_fault_qual : ({ s with fault := v } : State).qual k = s.qual k := rfl
@[simp] theorem State.with_fault_dom : ({ s with fault := v } : State).dom k = s.dom k := rfl
@[simp] theorem State.with_fault_syn : ({ s with fault := v } : State).syn k = s.syn k := rfl
@[simp] theorem State.with_fault_out : ({ s with fault := v } : State).out k = s.out k := rfl
@[simp] theorem State.with_fault_link : ({ s with fault := v } : State).link k = s.link k := rfl
@[simp] theorem State.with_fault_tdom : ({ s with fault := v } : State).tdom k = s.tdom k := rfl
@[simp] theorem State.with_fault_cell : ({ s with fault := v } : State).cell k = s.cell k := rfl
@[simp] theorem State.with_fault_client : ({ s with fault := v } : State).client k = s.client k := rfl
@[simp] theorem State.with_fault_port : ({ s with fault := v } : State).port k = s.port k := rfl
@[simp] theorem State.with_fault_grant : ({ s with fault := v } : State).grant k = s.grant k := rfl
@[simp] theorem State.with_fault_counter : ({ s with fault := v } : State).counter q r = s.counter q r := rfl
@[simp] theorem State.with_fault_cfg : ({ s with fault := v } : State).cfg q r = s.cfg q r := rfl
@[simp] theorem State.with_fault_dir : ({ s with fault := v } : State).dir q r = s.dir q r := rfl
end

/-! ### nv -/

section
variable (v : NvUnit)
@[simp] theorem State.with_nv_page : ({ s with nv := v } : State).page k = s.page k := rfl
@[simp] theorem State.with_nv_chan : ({ s with nv := v } : State).chan k = s.chan k := rfl
@[simp] theorem State.with_nv_tim : ({ s with nv := v } : State).tim k = s.tim k := rfl
@[simp] theorem State.with_nv_qual : ({ s with nv := v } : State).qual k = s.qual k := rfl
@[simp] theorem State.with_nv_dom : ({ s with nv := v } : State).dom k = s.dom k := rfl
@[simp] theorem State.with_nv_syn : ({ s with nv := v } : State).syn k = s.syn k := rfl
@[simp] theorem State.with_nv_out : ({ s with nv := v } : State).out k = s.out k := rfl
@[simp] theorem State.with_nv_link : ({ s with nv := v } : State).link k = s.link k := rfl
@[simp] theorem State.with_nv_tdom : ({ s with nv := v } : State).tdom k = s.tdom k := rfl
@[simp] theorem State.with_nv_cell : ({ s with nv := v } : State).cell k = s.cell k := rfl
@[simp] theorem State.with_nv_client : ({ s with nv := v } : State).client k = s.client k := rfl
@[simp] theorem State.with_nv_port : ({ s with nv := v } : State).port k = s.port k := rfl
@[simp] theorem State.with_nv_grant : ({ s with nv := v } : State).grant k = s.grant k := rfl
@[simp] theorem State.with_nv_counter : ({ s with nv := v } : State).counter q r = s.counter q r := rfl
@[simp] theorem State.with_nv_cfg : ({ s with nv := v } : State).cfg q r = s.cfg q r := rfl
@[simp] theorem State.with_nv_dir : ({ s with nv := v } : State).dir q r = s.dir q r := rfl
end

/-! ### sys -/

section
variable (v : SysUnit)
@[simp] theorem State.with_sys_page : ({ s with sys := v } : State).page k = s.page k := rfl
@[simp] theorem State.with_sys_chan : ({ s with sys := v } : State).chan k = s.chan k := rfl
@[simp] theorem State.with_sys_tim : ({ s with sys := v } : State).tim k = s.tim k := rfl
@[simp] theorem State.with_sys_qual : ({ s with sys := v } : State).qual k = s.qual k := rfl
@[simp] theorem State.with_sys_dom : ({ s with sys := v } : State).dom k = s.dom k := rfl
@[simp] theorem State.with_sys_syn : ({ s with sys := v } : State).syn k = s.syn k := rfl
@[simp] theorem State.with_sys_out : ({ s with sys := v } : State).out k = s.out k := rfl
@[simp] theorem State.with_sys_link : ({ s with sys := v } : State).link k = s.link k := rfl
@[simp] theorem State.with_sys_tdom : ({ s with sys := v } : State).tdom k = s.tdom k := rfl
@[simp] theorem State.with_sys_cell : ({ s with sys := v } : State).cell k = s.cell k := rfl
@[simp] theorem State.with_sys_client : ({ s with sys := v } : State).client k = s.client k := rfl
@[simp] theorem State.with_sys_port : ({ s with sys := v } : State).port k = s.port k := rfl
@[simp] theorem State.with_sys_grant : ({ s with sys := v } : State).grant k = s.grant k := rfl
@[simp] theorem State.with_sys_counter : ({ s with sys := v } : State).counter q r = s.counter q r := rfl
@[simp] theorem State.with_sys_cfg : ({ s with sys := v } : State).cfg q r = s.cfg q r := rfl
@[simp] theorem State.with_sys_dir : ({ s with sys := v } : State).dir q r = s.dir q r := rfl
end

/-! ### boot -/

section
variable (v : Boot)
@[simp] theorem State.with_boot_page : ({ s with boot := v } : State).page k = s.page k := rfl
@[simp] theorem State.with_boot_chan : ({ s with boot := v } : State).chan k = s.chan k := rfl
@[simp] theorem State.with_boot_tim : ({ s with boot := v } : State).tim k = s.tim k := rfl
@[simp] theorem State.with_boot_qual : ({ s with boot := v } : State).qual k = s.qual k := rfl
@[simp] theorem State.with_boot_dom : ({ s with boot := v } : State).dom k = s.dom k := rfl
@[simp] theorem State.with_boot_syn : ({ s with boot := v } : State).syn k = s.syn k := rfl
@[simp] theorem State.with_boot_out : ({ s with boot := v } : State).out k = s.out k := rfl
@[simp] theorem State.with_boot_link : ({ s with boot := v } : State).link k = s.link k := rfl
@[simp] theorem State.with_boot_tdom : ({ s with boot := v } : State).tdom k = s.tdom k := rfl
@[simp] theorem State.with_boot_cell : ({ s with boot := v } : State).cell k = s.cell k := rfl
@[simp] theorem State.with_boot_client : ({ s with boot := v } : State).client k = s.client k := rfl
@[simp] theorem State.with_boot_port : ({ s with boot := v } : State).port k = s.port k := rfl
@[simp] theorem State.with_boot_grant : ({ s with boot := v } : State).grant k = s.grant k := rfl
@[simp] theorem State.with_boot_counter : ({ s with boot := v } : State).counter q r = s.counter q r := rfl
@[simp] theorem State.with_boot_cfg : ({ s with boot := v } : State).cfg q r = s.cfg q r := rfl
@[simp] theorem State.with_boot_dir : ({ s with boot := v } : State).dir q r = s.dir q r := rfl
end

/-! ### budget -/

section
variable (v : Budget)
@[simp] theorem State.with_budget_page : ({ s with budget := v } : State).page k = s.page k := rfl
@[simp] theorem State.with_budget_chan : ({ s with budget := v } : State).chan k = s.chan k := rfl
@[simp] theorem State.with_budget_tim : ({ s with budget := v } : State).tim k = s.tim k := rfl
@[simp] theorem State.with_budget_qual : ({ s with budget := v } : State).qual k = s.qual k := rfl
@[simp] theorem State.with_budget_dom : ({ s with budget := v } : State).dom k = s.dom k := rfl
@[simp] theorem State.with_budget_syn : ({ s with budget := v } : State).syn k = s.syn k := rfl
@[simp] theorem State.with_budget_out : ({ s with budget := v } : State).out k = s.out k := rfl
@[simp] theorem State.with_budget_link : ({ s with budget := v } : State).link k = s.link k := rfl
@[simp] theorem State.with_budget_tdom : ({ s with budget := v } : State).tdom k = s.tdom k := rfl
@[simp] theorem State.with_budget_cell : ({ s with budget := v } : State).cell k = s.cell k := rfl
@[simp] theorem State.with_budget_client : ({ s with budget := v } : State).client k = s.client k := rfl
@[simp] theorem State.with_budget_port : ({ s with budget := v } : State).port k = s.port k := rfl
@[simp] theorem State.with_budget_grant : ({ s with budget := v } : State).grant k = s.grant k := rfl
@[simp] theorem State.with_budget_counter : ({ s with budget := v } : State).counter q r = s.counter q r := rfl
@[simp] theorem State.with_budget_cfg : ({ s with budget := v } : State).cfg q r = s.cfg q r := rfl
@[simp] theorem State.with_budget_dir : ({ s with budget := v } : State).dir q r = s.dir q r := rfl
end

/-! ### pair -/

section
variable (v : PairUnit)
@[simp] theorem State.with_pair_page : ({ s with pair := v } : State).page k = s.page k := rfl
@[simp] theorem State.with_pair_chan : ({ s with pair := v } : State).chan k = s.chan k := rfl
@[simp] theorem State.with_pair_tim : ({ s with pair := v } : State).tim k = s.tim k := rfl
@[simp] theorem State.with_pair_qual : ({ s with pair := v } : State).qual k = s.qual k := rfl
@[simp] theorem State.with_pair_dom : ({ s with pair := v } : State).dom k = s.dom k := rfl
@[simp] theorem State.with_pair_syn : ({ s with pair := v } : State).syn k = s.syn k := rfl
@[simp] theorem State.with_pair_out : ({ s with pair := v } : State).out k = s.out k := rfl
@[simp] theorem State.with_pair_link : ({ s with pair := v } : State).link k = s.link k := rfl
@[simp] theorem State.with_pair_tdom : ({ s with pair := v } : State).tdom k = s.tdom k := rfl
@[simp] theorem State.with_pair_cell : ({ s with pair := v } : State).cell k = s.cell k := rfl
@[simp] theorem State.with_pair_client : ({ s with pair := v } : State).client k = s.client k := rfl
@[simp] theorem State.with_pair_port : ({ s with pair := v } : State).port k = s.port k := rfl
@[simp] theorem State.with_pair_grant : ({ s with pair := v } : State).grant k = s.grant k := rfl
@[simp] theorem State.with_pair_counter : ({ s with pair := v } : State).counter q r = s.counter q r := rfl
@[simp] theorem State.with_pair_cfg : ({ s with pair := v } : State).cfg q r = s.cfg q r := rfl
@[simp] theorem State.with_pair_dir : ({ s with pair := v } : State).dir q r = s.dir q r := rfl
end

/-! ### board -/

section
variable (v : Board)
@[simp] theorem State.with_board_page : ({ s with board := v } : State).page k = s.page k := rfl
@[simp] theorem State.with_board_chan : ({ s with board := v } : State).chan k = s.chan k := rfl
@[simp] theorem State.with_board_tim : ({ s with board := v } : State).tim k = s.tim k := rfl
@[simp] theorem State.with_board_qual : ({ s with board := v } : State).qual k = s.qual k := rfl
@[simp] theorem State.with_board_dom : ({ s with board := v } : State).dom k = s.dom k := rfl
@[simp] theorem State.with_board_syn : ({ s with board := v } : State).syn k = s.syn k := rfl
@[simp] theorem State.with_board_out : ({ s with board := v } : State).out k = s.out k := rfl
@[simp] theorem State.with_board_link : ({ s with board := v } : State).link k = s.link k := rfl
@[simp] theorem State.with_board_tdom : ({ s with board := v } : State).tdom k = s.tdom k := rfl
@[simp] theorem State.with_board_client : ({ s with board := v } : State).client k = s.client k := rfl
@[simp] theorem State.with_board_port : ({ s with board := v } : State).port k = s.port k := rfl
@[simp] theorem State.with_board_grant : ({ s with board := v } : State).grant k = s.grant k := rfl
@[simp] theorem State.with_board_counter : ({ s with board := v } : State).counter q r = s.counter q r := rfl
@[simp] theorem State.with_board_cfg : ({ s with board := v } : State).cfg q r = s.cfg q r := rfl
@[simp] theorem State.with_board_dir : ({ s with board := v } : State).dir q r = s.dir q r := rfl
end

/-! ### harvest -/

section
variable (v : Harvest)
@[simp] theorem State.with_harvest_page : ({ s with harvest := v } : State).page k = s.page k := rfl
@[simp] theorem State.with_harvest_chan : ({ s with harvest := v } : State).chan k = s.chan k := rfl
@[simp] theorem State.with_harvest_tim : ({ s with harvest := v } : State).tim k = s.tim k := rfl
@[simp] theorem State.with_harvest_qual : ({ s with harvest := v } : State).qual k = s.qual k := rfl
@[simp] theorem State.with_harvest_dom : ({ s with harvest := v } : State).dom k = s.dom k := rfl
@[simp] theorem State.with_harvest_syn : ({ s with harvest := v } : State).syn k = s.syn k := rfl
@[simp] theorem State.with_harvest_out : ({ s with harvest := v } : State).out k = s.out k := rfl
@[simp] theorem State.with_harvest_link : ({ s with harvest := v } : State).link k = s.link k := rfl
@[simp] theorem State.with_harvest_tdom : ({ s with harvest := v } : State).tdom k = s.tdom k := rfl
@[simp] theorem State.with_harvest_cell : ({ s with harvest := v } : State).cell k = s.cell k := rfl
@[simp] theorem State.with_harvest_client : ({ s with harvest := v } : State).client k = s.client k := rfl
@[simp] theorem State.with_harvest_port : ({ s with harvest := v } : State).port k = s.port k := rfl
@[simp] theorem State.with_harvest_grant : ({ s with harvest := v } : State).grant k = s.grant k := rfl
@[simp] theorem State.with_harvest_counter : ({ s with harvest := v } : State).counter q r = s.counter q r := rfl
@[simp] theorem State.with_harvest_cfg : ({ s with harvest := v } : State).cfg q r = s.cfg q r := rfl
@[simp] theorem State.with_harvest_dir : ({ s with harvest := v } : State).dir q r = s.dir q r := rfl
end

/-! ### sec -/

section
variable (v : SecUnit)
@[simp] theorem State.with_sec_page : ({ s with sec := v } : State).page k = s.page k := rfl
@[simp] theorem State.with_sec_chan : ({ s with sec := v } : State).chan k = s.chan k := rfl
@[simp] theorem State.with_sec_tim : ({ s with sec := v } : State).tim k = s.tim k := rfl
@[simp] theorem State.with_sec_qual : ({ s with sec := v } : State).qual k = s.qual k := rfl
@[simp] theorem State.with_sec_dom : ({ s with sec := v } : State).dom k = s.dom k := rfl
@[simp] theorem State.with_sec_syn : ({ s with sec := v } : State).syn k = s.syn k := rfl
@[simp] theorem State.with_sec_out : ({ s with sec := v } : State).out k = s.out k := rfl
@[simp] theorem State.with_sec_link : ({ s with sec := v } : State).link k = s.link k := rfl
@[simp] theorem State.with_sec_tdom : ({ s with sec := v } : State).tdom k = s.tdom k := rfl
@[simp] theorem State.with_sec_cell : ({ s with sec := v } : State).cell k = s.cell k := rfl
@[simp] theorem State.with_sec_client : ({ s with sec := v } : State).client k = s.client k := rfl
@[simp] theorem State.with_sec_port : ({ s with sec := v } : State).port k = s.port k := rfl
@[simp] theorem State.with_sec_grant : ({ s with sec := v } : State).grant k = s.grant k := rfl
@[simp] theorem State.with_sec_counter : ({ s with sec := v } : State).counter q r = s.counter q r := rfl
@[simp] theorem State.with_sec_cfg : ({ s with sec := v } : State).cfg q r = s.cfg q r := rfl
@[simp] theorem State.with_sec_dir : ({ s with sec := v } : State).dir q r = s.dir q r := rfl
end

/-! ### svc -/

section
variable (v : Service)
@[simp] theorem State.with_svc_page : ({ s with svc := v } : State).page k = s.page k := rfl
@[simp] theorem State.with_svc_chan : ({ s with svc := v } : State).chan k = s.chan k := rfl
@[simp] theorem State.with_svc_tim : ({ s with svc := v } : State).tim k = s.tim k := rfl
@[simp] theorem State.with_svc_qual : ({ s with svc := v } : State).qual k = s.qual k := rfl
@[simp] theorem State.with_svc_dom : ({ s with svc := v } : State).dom k = s.dom k := rfl
@[simp] theorem State.with_svc_syn : ({ s with svc := v } : State).syn k = s.syn k := rfl
@[simp] theorem State.with_svc_out : ({ s with svc := v } : State).out k = s.out k := rfl
@[simp] theorem State.with_svc_link : ({ s with svc := v } : State).link k = s.link k := rfl
@[simp] theorem State.with_svc_tdom : ({ s with svc := v } : State).tdom k = s.tdom k := rfl
@[simp] theorem State.with_svc_cell : ({ s with svc := v } : State).cell k = s.cell k := rfl
@[simp] theorem State.with_svc_counter : ({ s with svc := v } : State).counter q r = s.counter q r := rfl
@[simp] theorem State.with_svc_cfg : ({ s with svc := v } : State).cfg q r = s.cfg q r := rfl
@[simp] theorem State.with_svc_dir : ({ s with svc := v } : State).dir q r = s.dir q r := rfl
end

/-! ### time -/

section
variable (v : TimeUnit)
@[simp] theorem State.with_time_page : ({ s with time := v } : State).page k = s.page k := rfl
@[simp] theorem State.with_time_chan : ({ s with time := v } : State).chan k = s.chan k := rfl
@[simp] theorem State.with_time_tim : ({ s with time := v } : State).tim k = s.tim k := rfl
@[simp] theorem State.with_time_qual : ({ s with time := v } : State).qual k = s.qual k := rfl
@[simp] theorem State.with_time_dom : ({ s with time := v } : State).dom k = s.dom k := rfl
@[simp] theorem State.with_time_syn : ({ s with time := v } : State).syn k = s.syn k := rfl
@[simp] theorem State.with_time_out : ({ s with time := v } : State).out k = s.out k := rfl
@[simp] theorem State.with_time_link : ({ s with time := v } : State).link k = s.link k := rfl
@[simp] theorem State.with_time_cell : ({ s with time := v } : State).cell k = s.cell k := rfl
@[simp] theorem State.with_time_client : ({ s with time := v } : State).client k = s.client k := rfl
@[simp] theorem State.with_time_port : ({ s with time := v } : State).port k = s.port k := rfl
@[simp] theorem State.with_time_grant : ({ s with time := v } : State).grant k = s.grant k := rfl
@[simp] theorem State.with_time_counter : ({ s with time := v } : State).counter q r = s.counter q r := rfl
@[simp] theorem State.with_time_cfg : ({ s with time := v } : State).cfg q r = s.cfg q r := rfl
@[simp] theorem State.with_time_dir : ({ s with time := v } : State).dir q r = s.dir q r := rfl
end

end Sys2Proof.Machine
end

