-- ==== Sys2Proof/Laws/Ops.lean ====
section
/-! SUPPORT. What the shared operations do, said once: the end of every command, accesses, answers, refusals, waiting
commands and the boundary's check of them, immediate and two-party commands. -/

namespace Sys2Proof.Machine

variable (s : State)

/-! ### finish and settle -/

/-- Every command ends in a next state. -/
theorem finish_next : finish s = .next (s.nvDue.settle false) := rfl

/-- With no NV report due, a command ends in the state it made, requests re-evaluated. -/
theorem finish_clear (h : s.nv.ctrDue = false) : finish s = .next (s.settle false) := by
  simp [finish, State.nvDue, h]

section
variable (b : Bool)
@[simp] theorem State.settle_pending : (s.settle b).pending = s.pending := by unfold State.settle; dsimp only; split <;> rfl
@[simp] theorem State.settle_free : (s.settle b).free = s.free := by unfold State.settle; dsimp only; split <;> rfl
@[simp] theorem State.settle_sys : (s.settle b).sys = s.sys := by unfold State.settle; dsimp only; split <;> rfl
@[simp] theorem State.settle_active : (s.settle b).active = s.active := by unfold State.settle; dsimp only; split <;> rfl
@[simp] theorem State.settle_shadow : (s.settle b).shadow = s.shadow := by unfold State.settle; dsimp only; split <;> rfl
@[simp] theorem State.settle_direct : (s.settle b).direct = s.direct := by unfold State.settle; dsimp only; split <;> rfl
@[simp] theorem State.settle_pages : (s.settle b).pages = s.pages := by unfold State.settle; dsimp only; split <;> rfl
@[simp] theorem State.settle_osc : (s.settle b).osc = s.osc := by unfold State.settle; dsimp only; split <;> rfl
@[simp] theorem State.settle_chans : (s.settle b).chans = s.chans := by unfold State.settle; dsimp only; split <;> rfl
@[simp] theorem State.settle_tims : (s.settle b).tims = s.tims := by unfold State.settle; dsimp only; split <;> rfl
@[simp] theorem State.settle_harvest : (s.settle b).harvest = s.harvest := by unfold State.settle; dsimp only; split <;> rfl
@[simp] theorem State.settle_quals : (s.settle b).quals = s.quals := by unfold State.settle; dsimp only; split <;> rfl
@[simp] theorem State.settle_doms : (s.settle b).doms = s.doms := by unfold State.settle; dsimp only; split <;> rfl
@[simp] theorem State.settle_syns : (s.settle b).syns = s.syns := by unfold State.settle; dsimp only; split <;> rfl
@[simp] theorem State.settle_outs : (s.settle b).outs = s.outs := by unfold State.settle; dsimp only; split <;> rfl
@[simp] theorem State.settle_time : (s.settle b).time = s.time := by unfold State.settle; dsimp only; split <;> rfl
@[simp] theorem State.settle_links : (s.settle b).links = s.links := by unfold State.settle; dsimp only; split <;> rfl
@[simp] theorem State.settle_board : (s.settle b).board = s.board := by unfold State.settle; dsimp only; split <;> rfl
@[simp] theorem State.settle_pair : (s.settle b).pair = s.pair := by unfold State.settle; dsimp only; split <;> rfl
@[simp] theorem State.settle_svc : (s.settle b).svc = s.svc := by unfold State.settle; dsimp only; split <;> rfl
@[simp] theorem State.settle_budget : (s.settle b).budget = s.budget := by unfold State.settle; dsimp only; split <;> rfl
@[simp] theorem State.settle_fault : (s.settle b).fault = s.fault := by unfold State.settle; dsimp only; split <;> rfl
@[simp] theorem State.settle_nv : (s.settle b).nv = s.nv := by unfold State.settle; dsimp only; split <;> rfl
@[simp] theorem State.settle_sec : (s.settle b).sec = s.sec := by unfold State.settle; dsimp only; split <;> rfl
@[simp] theorem State.settle_boot : (s.settle b).boot = s.boot := by unfold State.settle; dsimp only; split <;> rfl
@[simp] theorem State.settle_insvcC : (s.settle b).irq.insvcC = s.irq.insvcC := by unfold State.settle; dsimp only; split <;> rfl
@[simp] theorem State.settle_insvcG : (s.settle b).irq.insvcG = s.irq.insvcG := by unfold State.settle; dsimp only; split <;> rfl
@[simp] theorem State.settle_latched : (s.settle b).irq.latched = s.irq.latched := by unfold State.settle; dsimp only; split <;> rfl
@[simp] theorem State.settle_fatalC : (s.settle b).irq.fatalC = s.irq.fatalC := by unfold State.settle; dsimp only; split <;> rfl
@[simp] theorem State.settle_fatalG : (s.settle b).irq.fatalG = s.irq.fatalG := by unfold State.settle; dsimp only; split <;> rfl
end

/-- A re-evaluation counts nothing but MSIs. -/
theorem State.settle_counter (b : Bool) (p o : Nat) (h : p * 0x1000 + o ≠ 0x4A20) :
    (s.settle b).counter p o = s.counter p o := by
  unfold State.settle; dsimp only
  split
  · simp only [State.counter, State.bump, State.addCtr]
    exact tget_tput_other h
  · rfl

/-! ### Accesses (R392) -/

/-- An access of a master that has staged nothing changes nothing. -/
theorem State.access_clean {m : Nat} (h : s.stagedOf m = none) : s.access m = s := by simp [State.access, h]

/-- Where registers answer, a write does what it does. -/
theorem State.onWrite_ready {p m : Nat} {f : State → State} (h1 : s.boot.released = true)
    (h2 : s.mayAccess m true = true) (h3 : s.reaches p = true) (h4 : s.stagedOf m = none) : s.onWrite p m f = f s := by
  simp [State.onWrite, h1, h2, h3, s.access_clean h4]

/-- In reset nothing answers. -/
theorem State.onWrite_reset {p m : Nat} {f : State → State} (h : s.boot.released = false) : s.onWrite p m f = s := by
  simp [State.onWrite, h]

/-! ### Answers (R400, R401, R507) -/

/-- A command whose checks pass waits for the boundary. -/
theorem State.submit_accepts {p m code : Nat} {arg : Word} {c : Checks} (h : c.result = 0) :
    s.submit p m code arg c = s.accept p m code arg := by simp [State.submit, h]

theorem State.submit_refuses {p m code : Nat} {arg : Word} {c : Checks} (h : c.result ≠ 0) :
    s.submit p m code arg c = s.refuse p m code c.result := by simp [State.submit, h]

theorem State.immediate_accepts {p m code : Nat} {c : Checks} {f : State → State} (h : c.result = 0) :
    s.immediate p m code c f = f (s.answer p m code 0 true) := by simp [State.immediate, h]

/-- What an answer leaves on its page. -/
theorem State.answer_page (p m code r : Nat) (fin : Bool) :
    (s.answer p m code r fin).page p = { (s.page p).setStatus m { result := r, code := code % 256, seq := ((s.page p).seq + 1) % 32768, done := fin } with seq := ((s.page p).seq + 1) % 32768 } := by
  simp [State.answer]

/-- The answer that CMD_STATUS of the master shows. -/
theorem State.answer_status (p m code r : Nat) (fin : Bool) :
    (s.answer p m code r fin).cmdStatus p m = { result := r, code := code % 256, seq := ((s.page p).seq + 1) % 32768, done := fin } := by
  simp [State.cmdStatus, State.answer_page, Page.setStatus]

theorem State.answer_page_other {p q : Nat} (m code r : Nat) (fin : Bool) (h : q ≠ p) :
    (s.answer p m code r fin).page q = s.page q := by simp [State.answer, State.setPage_page, h]

/-- An accepted command stands on its page until the boundary. -/
theorem State.accept_pend (p m code : Nat) (arg : Word) (data : List Word) :
    ((s.accept p m code arg data).page p).pend = some { master := m, code, arg, seq := ((s.page p).seq + 1) % 32768, data } := by
  simp [State.accept, State.answer_page]

theorem State.accept_status (p m code : Nat) (arg : Word) (data : List Word) :
    (s.accept p m code arg data).cmdStatus p m = { result := 0, code := code % 256, seq := ((s.page p).seq + 1) % 32768, done := false } := by
  simp [State.accept, State.cmdStatus, State.answer_page, Page.setStatus]

theorem State.accept_page_other {p q : Nat} (m code : Nat) (arg : Word) (data : List Word) (h : q ≠ p) :
    (s.accept p m code arg data).page q = s.page q := by
  simp [State.accept, State.setPage_page, h, State.answer_page_other]

/-- A waiting command whose conditions fail at the boundary is dropped (R507). -/
theorem State.settleCmd_none {p again : Nat} {f : CmdPend → State → State} (h : (s.page p).pend = none) :
    s.settleCmd p again f = s := by simp [State.settleCmd, h]

end Sys2Proof.Machine
end

