-- ==== Sys2Proof/Laws/Kept.lean ====
section
/-! SUPPORT. What recording a fault and ending a command leave alone: every unit (`Safety.Kept`). -/

namespace Sys2Proof.Safety

open Machine

variable {s t u : State}

theorem Kept.refl (s : State) : Kept s s := by constructor <;> first | rfl | intro _; rfl

theorem Kept.trans (h : Kept s t) (g : Kept t u) : Kept s u := by
  constructor
  case page =>
    intro p
    have a := h.page p
    have b := g.page p
    rw [← a, ← b]
  all_goals first
    | exact g.pending.trans h.pending | exact g.sys.trans h.sys | exact g.active.trans h.active
    | exact g.shadow.trans h.shadow | exact g.direct.trans h.direct | exact g.osc.trans h.osc
    | exact g.chans.trans h.chans | exact g.tims.trans h.tims | exact g.harvest.trans h.harvest
    | exact g.quals.trans h.quals | exact g.doms.trans h.doms | exact g.syns.trans h.syns
    | exact g.outs.trans h.outs | exact g.time.trans h.time | exact g.links.trans h.links
    | exact g.board.trans h.board | exact g.pair.trans h.pair | exact g.svc.trans h.svc
    | exact g.budget.trans h.budget | exact g.sec.trans h.sec | exact g.boot.trans h.boot
    | exact g.fault.trans h.fault

theorem Kept.bist (h : Kept s t) : t.fault.bist = s.fault.bist := by
  simpa [faultRest] using congrArg FaultUnit.bist h.fault
theorem Kept.compat (h : Kept s t) : t.fault.compat = s.fault.compat := by
  simpa [faultRest] using congrArg FaultUnit.compat h.fault

/-- A state whose other fields are the same. -/
theorem Kept.of_fields {f : FaultUnit} {i : Irq} {v : NvUnit} {c : Table Nat} {n : Nat}
    (h : faultRest f = faultRest s.fault) : Kept s { s with fault := f, irq := i, nv := v, ctr := c, free := n } := by
  constructor <;> first | exact h | rfl | (intro _; rfl)

theorem Kept.event (s : State) (p b : Nat) : Kept s (s.event p b) := by
  constructor
  case page => intro q; simp only [State.event, State.setPage_page]; split <;> simp_all
  all_goals rfl

theorem Kept.faultBit (s : State) (p b : Nat) : Kept s (s.faultBit p b) := by
  constructor
  case page => intro q; simp only [State.faultBit, State.setPage_page]; split <;> simp_all
  all_goals rfl

theorem Kept.bump (s : State) (p o : Nat) : Kept s (s.bump p o) := Kept.of_fields rfl
theorem Kept.addCtr (s : State) (p o n : Nat) : Kept s (s.addCtr p o n) := Kept.of_fields rfl
theorem Kept.nextFree (s : State) : Kept s s.nextFree := Kept.of_fields rfl
theorem Kept.latchIrq (s : State) (n : Nat) : Kept s (s.latchIrq n) := Kept.of_fields rfl
theorem Kept.latchFatal (s : State) : Kept s s.latchFatal := Kept.of_fields rfl

theorem Kept.andFault {f : FaultUnit} (h : Kept s t) (hf : faultRest f = faultRest t.fault) :
    Kept s { t with fault := f } := h.trans (Kept.of_fields hf)

theorem Kept.andEvent {p b : Nat} (h : Kept s t) : Kept s (t.event p b) := h.trans (Kept.event _ _ _)
theorem Kept.andBump {p o : Nat} (h : Kept s t) : Kept s (t.bump p o) := h.trans (Kept.bump _ _ _)

theorem Kept.storeRec (s : State) (r : FaultRec) : Kept s (s.storeRec r) := by
  unfold State.storeRec; dsimp only
  split
  · exact Kept.andFault (Kept.andEvent (Kept.andBump (Kept.andFault (Kept.refl s) rfl))) rfl
  · split
    · exact Kept.andEvent (Kept.andBump (Kept.andFault (Kept.andEvent (Kept.andBump (Kept.andFault (Kept.refl s) rfl))) rfl))
    · exact Kept.andFault (Kept.andEvent (Kept.andBump (Kept.andFault (Kept.refl s) rfl))) rfl

theorem Kept.collectC (s : State) (e : Event) : Kept s (s.collectC e) := by
  unfold State.collectC; dsimp only
  split
  · exact (Kept.faultBit _ _ _).trans (Kept.bump _ _ _)
  · exact (((Kept.faultBit _ _ _).trans (Kept.storeRec _ _)).trans (Kept.nextFree _)).trans (Kept.latchIrq _ _)

theorem Kept.logRecord (s : State) (r : FaultRec) : Kept s (s.logRecord r) := by
  unfold State.logRecord; dsimp only
  split
  · split
    · exact Kept.of_fields rfl
    · exact Kept.bump _ _ _
  · exact Kept.refl _

theorem Kept.nvWrite (s : State) (a : Nat) (l : List Nat) : Kept s (s.nvWrite a l) := by
  unfold State.nvWrite
  split
  · exact (Kept.of_fields rfl).trans (Kept.addCtr _ _ _ _)
  · exact Kept.refl _

theorem Kept.nvIncrement (s : State) (a : Nat) : Kept s (s.nvIncrement a) := by
  unfold State.nvIncrement
  split
  · exact Kept.nvWrite _ _ _
  · exact Kept.nvWrite _ _ _
  · exact Kept.of_fields rfl

theorem Kept.protectWrite (s : State) (m c a : Nat) : Kept s (s.protectWrite m c a) :=
  (Kept.bump _ _ _).trans (Kept.collectC _ _)

theorem Kept.deviceCounter (s : State) (k : Nat) : Kept s (s.deviceCounter k) := by
  unfold State.deviceCounter; dsimp only
  split
  · split
    · exact Kept.protectWrite _ _ _ _
    · exact Kept.nvIncrement _ _
  · exact Kept.refl _

/-- An F record of a source that no domain answers for. -/
theorem Kept.fatal (s : State) (e : Event) (b : Bool) (h : ∀ u : State, u.reactDoms e.page e.bit e.pairs = []) :
    Kept s (s.fatal e b) := by
  unfold State.fatal; dsimp only
  rw [h]
  exact ((((Kept.storeRec _ _).trans (Kept.nextFree _)).trans (Kept.latchFatal _)).trans (Kept.logRecord _ _)).trans
    (Kept.deviceCounter _ _)

/-- A U event of the NV store, or of another page whose sources concern no unit. -/
theorem Kept.collectU (s : State) (e : Event) (h : ∀ u : State, u.reactDoms e.page e.bit e.pairs = [])
    (hf : ∀ u : State, u.fence e.page e.bit e.ctx (e.pairs.headD 0) = u) (hx : ∀ u : State, u.escalateExtra e.page e.bit = u) :
    Kept s (s.collectU e) := by
  unfold State.collectU; dsimp only
  have k := (((Kept.faultBit s e.page e.bit).trans (Kept.storeRec _
    ((s.faultBit e.page e.bit).mkRec e 1 false))).trans (Kept.nextFree _)).trans (Kept.logRecord _
      ((s.faultBit e.page e.bit).mkRec e 1 false))
  split
  · rw [hf]; exact k
  · split
    · exact k
    · refine k.trans ?_
      unfold State.check; dsimp only
      split
      · exact Kept.of_fields rfl
      · split
        · exact Kept.of_fields rfl
        · unfold State.escalate; dsimp only
          rw [hx]
          exact ((((Kept.bump _ _ _).trans (Kept.event _ _ _)).trans (Kept.bump _ _ _)).trans (Kept.event _ _ _)).trans
            (Kept.fatal _ _ _ h)

theorem Kept.nvDue (s : State) : Kept s s.nvDue := by
  unfold State.nvDue
  split
  · exact (Kept.of_fields rfl).trans (Kept.collectU _ { page := 0x05, bit := 3 } (fun _ => rfl) (fun _ => rfl) (fun _ => rfl))
  · exact Kept.refl _

theorem Kept.settle (s : State) (b : Bool) : Kept s (s.settle b) := by
  constructor <;> first | exact State.settle_pending s b | (simp; done) | skip
  intro p
  simp [State.page]

/-- Every command ends in a next state whose units are those that the command left. -/
theorem finish_kept (s : State) : ∃ t, finish s = .next t ∧ Kept s t :=
  ⟨_, rfl, (Kept.nvDue s).trans (Kept.settle _ _)⟩

/-- A re-evaluation leaves every request and line what the eligible sources make it. -/
theorem settle_follows (s : State) (b : Bool) : RequestsFollow (s.settle b) := by
  unfold State.settle RequestsFollow
  dsimp only
  split <;>
  · refine ⟨rfl, rfl, rfl, rfl, ?_⟩
    intro n hn
    have := (List.mem_filter.mp hn).2
    simp only [Bool.or_eq_true] at this
    exact this

end Sys2Proof.Safety
end

