-- ==== Sys2Proof/Laws/Report.lean ====
section
/-! SUPPORT. What a fault event leaves alone in native mode (`Safety.Reported`), from the record to the escalation. -/

namespace Sys2Proof.Safety

open Machine

variable {s t u : State}

theorem Kept.reported (h : Kept s t) : Reported s t := by
  constructor
  case svc => rw [h.svc]
  case port => intro p; simp [State.port, h.svc]
  case dom => intro d; simp [State.dom, h.doms]
  case out => intro j; left; simp [State.out, h.outs]
  case pair => rw [h.pair]
  case page => exact h.page
  all_goals first
    | exact h.pending | exact h.sys | exact h.active | exact h.shadow | exact h.direct | exact h.osc | exact h.chans
    | exact h.tims | exact h.harvest | exact h.quals | exact h.syns | exact h.time | exact h.links | exact h.board
    | exact h.budget | exact h.sec | exact h.boot | exact h.fault

theorem Reported.bist (h : Reported s t) : t.fault.bist = s.fault.bist := by
  simpa [faultRest] using congrArg FaultUnit.bist h.fault
theorem Reported.compat (h : Reported s t) : t.fault.compat = s.fault.compat := by
  simpa [faultRest] using congrArg FaultUnit.compat h.fault

theorem Reported.refl (s : State) : Reported s s := (Kept.refl s).reported

theorem Reported.trans (h : Reported s t) (g : Reported t u) : Reported s u := by
  constructor
  case svc => have a := h.svc; have b := g.svc; rw [← a, ← b]
  case port => intro p; have a := h.port p; have b := g.port p; rw [← a, ← b]
  case dom => intro p; have a := h.dom p; have b := g.dom p; rw [← a, ← b]
  case out =>
    intro p
    rcases h.out p with a | a <;> rcases g.out p with b | b <;> simp_all
  case pair => have a := h.pair; have b := g.pair; rw [← a, ← b]
  case page => intro p; have a := h.page p; have b := g.page p; rw [← a, ← b]
  all_goals first
    | exact g.pending.trans h.pending | exact g.sys.trans h.sys | exact g.active.trans h.active
    | exact g.shadow.trans h.shadow | exact g.direct.trans h.direct | exact g.osc.trans h.osc
    | exact g.chans.trans h.chans | exact g.tims.trans h.tims | exact g.harvest.trans h.harvest
    | exact g.quals.trans h.quals | exact g.syns.trans h.syns | exact g.time.trans h.time
    | exact g.links.trans h.links | exact g.board.trans h.board | exact g.budget.trans h.budget
    | exact g.sec.trans h.sec | exact g.boot.trans h.boot | exact g.fault.trans h.fault

theorem Reported.castleRequest (s : State) (c : Nat) : Reported s (s.castleRequest c) := by
  unfold State.castleRequest
  split
  · exact Reported.refl s
  · split <;> (constructor <;> first | rfl | (intro _; rfl) | (intro _; exact .inl rfl))

theorem Reported.holdOut (s : State) (j : Nat) : Reported s (s.setOut j holdForSafe) := by
  constructor
  case out =>
    intro i
    rw [State.setOut_out]
    split
    · subst i; unfold holdForSafe; split <;> simp
    · exact .inl rfl
  all_goals first | rfl | (intro _; rfl)

theorem Reported.due (s : State) (d id : Nat) :
    Reported s (s.setDom d fun x => { x with safePend := some (x.safePend.getD id) }) := by
  constructor
  case dom => intro i; rw [State.setDom_dom]; split <;> simp_all
  all_goals first | rfl | (intro _; rfl) | (intro _; exact .inl rfl)

theorem Reported.foldl {α : Type} {f : State → α → State} (hf : ∀ s a, Reported s (f s a)) (l : List α) (s : State) :
    Reported s (l.foldl f s) := by
  induction l generalizing s with
  | nil => exact Reported.refl s
  | cons a l ih => exact (hf s a).trans (ih _)

theorem Reported.fReaction (s : State) (id d : Nat) : Reported s (s.fReaction id d) := by
  unfold State.fReaction
  split
  · exact Reported.refl s
  · exact ((Reported.foldl (fun s j => Reported.holdOut s j) _ _).trans (Reported.due _ _ _)).trans
      (Reported.castleRequest _ _)

theorem Reported.stopPort (s : State) (p : Nat) : Reported s (s.stopPort p) := by
  constructor
  case port => intro i; unfold State.stopPort; rw [State.setPort_port]; split <;> simp_all
  all_goals first | rfl | (intro _; rfl) | (intro _; exact .inl rfl)

theorem Reported.fatal (s : State) (e : Event) (b : Bool) : Reported s (s.fatal e b) := by
  unfold State.fatal State.fReactions
  exact (((((Kept.storeRec _ _).trans (Kept.nextFree _)).trans (Kept.latchFatal _)).trans (Kept.logRecord _ _)).trans
    (Kept.deviceCounter _ _)).reported.trans (Reported.foldl (fun s d => Reported.fReaction s _ d) _ _)

theorem Reported.escalate (s : State) (e : Event) : Reported s (s.escalate e) := by
  have a := ((((Kept.bump s 0x03 0xA18).trans (Kept.event _ 0x03 3)).reported).trans (Reported.fatal _ e true))
  unfold State.escalate State.escalateExtra
  dsimp only
  refine a.trans ?_
  split
  · exact Reported.stopPort _ _
  · split
    · exact Reported.castleRequest _ _
    · exact Reported.refl _
  · exact Reported.refl _

theorem Kept.setSlot (s : State) (i : Nat) (v : Option Slot) : Kept s { s with fault := s.fault.setSlot i v } :=
  Kept.of_fields rfl

theorem Reported.check (s : State) (e : Event) : Reported s (s.check e) := by
  unfold State.check
  dsimp only
  split
  · exact (Kept.setSlot _ _ _).reported
  · split
    · exact (Kept.setSlot _ _ _).reported
    · exact ((Kept.bump _ _ _).trans (Kept.event _ _ _)).reported.trans (Reported.escalate _ _)

theorem Kept.recordU (s : State) (e : Event) :
    Kept s (((((s.faultBit e.page e.bit).storeRec ((s.faultBit e.page e.bit).mkRec e 1 false)).nextFree).logRecord
      ((s.faultBit e.page e.bit).mkRec e 1 false))) :=
  ((Kept.faultBit s e.page e.bit).trans (Kept.storeRec _ _)).trans ((Kept.nextFree _).trans (Kept.logRecord _ _))

theorem Reported.collectU (s : State) (e : Event) (h : s.fault.compat = false) : Reported s (s.collectU e) := by
  have k := Kept.recordU s e
  have c : (((((s.faultBit e.page e.bit).storeRec ((s.faultBit e.page e.bit).mkRec e 1 false)).nextFree).logRecord
      ((s.faultBit e.page e.bit).mkRec e 1 false))).fault.compat = false := by rw [k.compat, h]
  unfold State.collectU
  dsimp only
  rw [if_neg (by simpa using c)]
  split
  · exact k.reported
  · exact k.reported.trans (Reported.check _ _)

theorem Reported.collectF (s : State) (e : Event) : Reported s (s.collectF e) := by
  have a := (Kept.faultBit s e.page e.bit).reported.trans (Reported.fatal (s.faultBit e.page e.bit) e false)
  unfold State.collectF
  dsimp only
  split
  · refine a.trans (Reported.foldl (fun s i => ?_) _ _)
    split
    · exact (Kept.setSlot _ _ _).reported.trans (Reported.escalate _ _)
    · exact Reported.refl _
  · exact a

/-- A fault event in native mode. -/
theorem Reported.report (s : State) (e : Event) (h : s.fault.compat = false) : Reported s (s.report e) := by
  unfold State.report
  split
  · exact (Kept.collectC s e).reported
  · exact Reported.collectU s e h
  · exact Reported.collectF s e
  · exact Reported.refl s

/-- A command that ends in a fault event in native mode. -/
theorem finish_reported (s : State) (e : Event) (h : s.fault.compat = false) :
    ∃ t, finish (s.report e) = .next t ∧ Reported s t := by
  obtain ⟨t, ht, k⟩ := finish_kept (s.report e)
  exact ⟨t, ht, (Reported.report s e h).trans k.reported⟩

end Sys2Proof.Safety

namespace Sys2Proof.Machine

open Safety

variable {s : State} {e : Event} (h : s.fault.compat = false)

/-! ### What reads the same after a fault event in native mode -/

include h

theorem State.report_pending : (s.report e).pending = s.pending := (Reported.report s e h).pending
theorem State.report_sys : (s.report e).sys = s.sys := (Reported.report s e h).sys
theorem State.report_active : (s.report e).active = s.active := (Reported.report s e h).active
theorem State.report_shadow : (s.report e).shadow = s.shadow := (Reported.report s e h).shadow
theorem State.report_direct : (s.report e).direct = s.direct := (Reported.report s e h).direct
theorem State.report_osc : (s.report e).osc = s.osc := (Reported.report s e h).osc
theorem State.report_harvest : (s.report e).harvest = s.harvest := (Reported.report s e h).harvest
theorem State.report_time : (s.report e).time = s.time := (Reported.report s e h).time
theorem State.report_board : (s.report e).board = s.board := (Reported.report s e h).board
theorem State.report_budget : (s.report e).budget = s.budget := (Reported.report s e h).budget
theorem State.report_sec : (s.report e).sec = s.sec := (Reported.report s e h).sec
theorem State.report_boot : (s.report e).boot = s.boot := (Reported.report s e h).boot
theorem State.report_compat : (s.report e).fault.compat = s.fault.compat := (Reported.report s e h).compat
theorem State.report_bist : (s.report e).fault.bist = s.fault.bist := (Reported.report s e h).bist
theorem State.report_chan (k : Nat) : (s.report e).chan k = s.chan k := by
  unfold State.chan; rw [(Reported.report s e h).chans]
theorem State.report_tim (k : Nat) : (s.report e).tim k = s.tim k := by
  unfold State.tim; rw [(Reported.report s e h).tims]
theorem State.report_qual (k : Nat) : (s.report e).qual k = s.qual k := by
  unfold State.qual; rw [(Reported.report s e h).quals]
theorem State.report_syn (k : Nat) : (s.report e).syn k = s.syn k := by
  unfold State.syn; rw [(Reported.report s e h).syns]
theorem State.report_link (k : Nat) : (s.report e).link k = s.link k := by
  unfold State.link; rw [(Reported.report s e h).links]
theorem State.report_tdom (k : Nat) : (s.report e).tdom k = s.tdom k := by
  unfold State.tdom; rw [(Reported.report s e h).time]
theorem State.report_cell (k : Nat) : (s.report e).cell k = s.cell k := by
  unfold State.cell; rw [(Reported.report s e h).board]
theorem State.report_cfg (p x : Nat) : (s.report e).cfg p x = s.cfg p x := by
  unfold State.cfg; rw [(Reported.report s e h).active]
theorem State.report_dom (d : Nat) : { (s.report e).dom d with safePend := (s.dom d).safePend } = s.dom d :=
  (Reported.report s e h).dom d
theorem State.report_out (j : Nat) :
    (s.report e).out j = s.out j ∨ (s.report e).out j = { s.out j with held := true } :=
  (Reported.report s e h).out j

end Sys2Proof.Machine
end

