-- ==== Sys2Proof/Laws/Same.lean ====
section
/-! SUPPORT. Units that read the same (`Safety.Same`): what keeps them, and one lemma per update, that a unit written
twice reads as one written once. -/

namespace Sys2Proof.Safety

open Machine

variable {s t u : State} {l m : List Nat}

theorem Kept.same (h : Kept s t) : Same s t l := by
  constructor
  case chan => intro i; simp [State.chan, h.chans]
  case tim => intro i; simp [State.tim, h.tims]
  case qual => intro i; simp [State.qual, h.quals]
  case dom => intro i; simp [State.dom, h.doms]
  case syn => intro i; simp [State.syn, h.syns]
  case out => intro i; simp [State.out, h.outs]
  case time => rw [h.time]
  case tdom => intro i; simp [State.tdom, h.time]
  case link => intro i; simp [State.link, h.links]
  case board => rw [h.board]
  case cell => intro i; simp [State.cell, h.board]
  case svc => rw [h.svc]
  case port => intro i; simp [State.port, h.svc]
  case client => intro i; simp [State.client, h.svc]
  case grant => intro i; simp [State.grant, h.svc]
  case page => intro p _; exact h.page p
  all_goals first
    | exact h.pending | exact h.sys | exact h.active | exact h.shadow | exact h.direct | exact h.osc
    | exact h.harvest | exact h.pair | exact h.budget | exact h.sec | exact h.boot | exact h.fault

theorem Same.bist {but : List Nat} (h : Same s t but) : t.fault.bist = s.fault.bist := by
  simpa [faultRest] using congrArg FaultUnit.bist h.fault
theorem Same.compat {but : List Nat} (h : Same s t but) : t.fault.compat = s.fault.compat := by
  simpa [faultRest] using congrArg FaultUnit.compat h.fault

theorem Same.refl (s : State) : Same s s l := (Kept.refl s).same

theorem Same.trans (h : Same s t l) (g : Same t u l) : Same s u l := by
  constructor
  case time => have a := h.time; have b := g.time; rw [← a, ← b]
  case board => have a := h.board; have b := g.board; rw [← a, ← b]
  case svc => have a := h.svc; have b := g.svc; rw [← a, ← b]
  case page => intro p hp; have a := h.page p hp; have b := g.page p hp; rw [← a, ← b]
  case chan => intro i; rw [g.chan, h.chan]
  case tim => intro i; rw [g.tim, h.tim]
  case qual => intro i; rw [g.qual, h.qual]
  case dom => intro i; rw [g.dom, h.dom]
  case syn => intro i; rw [g.syn, h.syn]
  case out => intro i; rw [g.out, h.out]
  case tdom => intro i; rw [g.tdom, h.tdom]
  case link => intro i; rw [g.link, h.link]
  case cell => intro i; rw [g.cell, h.cell]
  case port => intro i; rw [g.port, h.port]
  case client => intro i; rw [g.client, h.client]
  case grant => intro i; rw [g.grant, h.grant]
  all_goals first
    | exact g.pending.trans h.pending | exact g.sys.trans h.sys | exact g.active.trans h.active
    | exact g.shadow.trans h.shadow | exact g.direct.trans h.direct | exact g.osc.trans h.osc
    | exact g.harvest.trans h.harvest | exact g.pair.trans h.pair | exact g.budget.trans h.budget
    | exact g.sec.trans h.sec | exact g.boot.trans h.boot | exact g.fault.trans h.fault

theorem Same.mono (h : Same s t l) (g : ∀ p ∈ l, p ∈ m) : Same s t m :=
  { h with page := fun p hp => h.page p fun hl => hp (g p hl) }

theorem Same.setChan {k : Nat} {f g : Chan → Chan} (h : g (s.chan k) = f (s.chan k)) : Same (s.setChan k f) (s.setChan k g) l := by
  constructor
  case chan => intro i; rw [State.setChan_chan, State.setChan_chan, h]
  all_goals first | rfl | (intro _; rfl) | (intro _ _; rfl)

theorem Same.setChan_twice {k : Nat} {f g h : Chan → Chan} (e : h (s.chan k) = g (f (s.chan k))) :
    Same (s.setChan k h) ((s.setChan k f).setChan k g) l := by
  constructor
  case chan => intro i; simp only [State.setChan_chan, e]; split <;> simp_all
  all_goals first | rfl | (intro _; rfl) | (intro _ _; rfl)

theorem Same.setTim {k : Nat} {f g : Tim → Tim} (h : g (s.tim k) = f (s.tim k)) : Same (s.setTim k f) (s.setTim k g) l := by
  constructor
  case tim => intro i; rw [State.setTim_tim, State.setTim_tim, h]
  all_goals first | rfl | (intro _; rfl) | (intro _ _; rfl)

theorem Same.setTim_twice {k : Nat} {f g h : Tim → Tim} (e : h (s.tim k) = g (f (s.tim k))) :
    Same (s.setTim k h) ((s.setTim k f).setTim k g) l := by
  constructor
  case tim => intro i; simp only [State.setTim_tim, e]; split <;> simp_all
  all_goals first | rfl | (intro _; rfl) | (intro _ _; rfl)

theorem Same.setQual {k : Nat} {f g : Qual → Qual} (h : g (s.qual k) = f (s.qual k)) : Same (s.setQual k f) (s.setQual k g) l := by
  constructor
  case qual => intro i; rw [State.setQual_qual, State.setQual_qual, h]
  all_goals first | rfl | (intro _; rfl) | (intro _ _; rfl)

theorem Same.setQual_twice {k : Nat} {f g h : Qual → Qual} (e : h (s.qual k) = g (f (s.qual k))) :
    Same (s.setQual k h) ((s.setQual k f).setQual k g) l := by
  constructor
  case qual => intro i; simp only [State.setQual_qual, e]; split <;> simp_all
  all_goals first | rfl | (intro _; rfl) | (intro _ _; rfl)

theorem Same.setDom {k : Nat} {f g : Dom → Dom} (h : g (s.dom k) = f (s.dom k)) : Same (s.setDom k f) (s.setDom k g) l := by
  constructor
  case dom => intro i; rw [State.setDom_dom, State.setDom_dom, h]
  all_goals first | rfl | (intro _; rfl) | (intro _ _; rfl)

theorem Same.setDom_twice {k : Nat} {f g h : Dom → Dom} (e : h (s.dom k) = g (f (s.dom k))) :
    Same (s.setDom k h) ((s.setDom k f).setDom k g) l := by
  constructor
  case dom => intro i; simp only [State.setDom_dom, e]; split <;> simp_all
  all_goals first | rfl | (intro _; rfl) | (intro _ _; rfl)

theorem Same.setSyn {k : Nat} {f g : Syn → Syn} (h : g (s.syn k) = f (s.syn k)) : Same (s.setSyn k f) (s.setSyn k g) l := by
  constructor
  case syn => intro i; rw [State.setSyn_syn, State.setSyn_syn, h]
  all_goals first | rfl | (intro _; rfl) | (intro _ _; rfl)

theorem Same.setSyn_twice {k : Nat} {f g h : Syn → Syn} (e : h (s.syn k) = g (f (s.syn k))) :
    Same (s.setSyn k h) ((s.setSyn k f).setSyn k g) l := by
  constructor
  case syn => intro i; simp only [State.setSyn_syn, e]; split <;> simp_all
  all_goals first | rfl | (intro _; rfl) | (intro _ _; rfl)

theorem Same.setOut {k : Nat} {f g : Out → Out} (h : g (s.out k) = f (s.out k)) : Same (s.setOut k f) (s.setOut k g) l := by
  constructor
  case out => intro i; rw [State.setOut_out, State.setOut_out, h]
  all_goals first | rfl | (intro _; rfl) | (intro _ _; rfl)

theorem Same.setOut_twice {k : Nat} {f g h : Out → Out} (e : h (s.out k) = g (f (s.out k))) :
    Same (s.setOut k h) ((s.setOut k f).setOut k g) l := by
  constructor
  case out => intro i; simp only [State.setOut_out, e]; split <;> simp_all
  all_goals first | rfl | (intro _; rfl) | (intro _ _; rfl)

theorem Same.setLink {k : Nat} {f g : Link → Link} (h : g (s.link k) = f (s.link k)) : Same (s.setLink k f) (s.setLink k g) l := by
  constructor
  case link => intro i; rw [State.setLink_link, State.setLink_link, h]
  all_goals first | rfl | (intro _; rfl) | (intro _ _; rfl)

theorem Same.setLink_twice {k : Nat} {f g h : Link → Link} (e : h (s.link k) = g (f (s.link k))) :
    Same (s.setLink k h) ((s.setLink k f).setLink k g) l := by
  constructor
  case link => intro i; simp only [State.setLink_link, e]; split <;> simp_all
  all_goals first | rfl | (intro _; rfl) | (intro _ _; rfl)

theorem Same.setTdom {k : Nat} {f g : TimeDom → TimeDom} (h : g (s.tdom k) = f (s.tdom k)) : Same (s.setTdom k f) (s.setTdom k g) l := by
  constructor
  case tdom => intro i; rw [State.setTdom_tdom, State.setTdom_tdom, h]
  all_goals first | rfl | (intro _; rfl) | (intro _ _; rfl)

theorem Same.setTdom_twice {k : Nat} {f g h : TimeDom → TimeDom} (e : h (s.tdom k) = g (f (s.tdom k))) :
    Same (s.setTdom k h) ((s.setTdom k f).setTdom k g) l := by
  constructor
  case tdom => intro i; simp only [State.setTdom_tdom, e]; split <;> simp_all
  all_goals first | rfl | (intro _; rfl) | (intro _ _; rfl)

theorem Same.setCell {k : Nat} {f g : Cell → Cell} (h : g (s.cell k) = f (s.cell k)) : Same (s.setCell k f) (s.setCell k g) l := by
  constructor
  case cell => intro i; rw [State.setCell_cell, State.setCell_cell, h]
  all_goals first | rfl | (intro _; rfl) | (intro _ _; rfl)

theorem Same.setCell_twice {k : Nat} {f g h : Cell → Cell} (e : h (s.cell k) = g (f (s.cell k))) :
    Same (s.setCell k h) ((s.setCell k f).setCell k g) l := by
  constructor
  case cell => intro i; simp only [State.setCell_cell, e]; split <;> simp_all
  all_goals first | rfl | (intro _; rfl) | (intro _ _; rfl)

theorem Same.setClient {k : Nat} {f g : Client → Client} (h : g (s.client k) = f (s.client k)) : Same (s.setClient k f) (s.setClient k g) l := by
  constructor
  case client => intro i; rw [State.setClient_client, State.setClient_client, h]
  all_goals first | rfl | (intro _; rfl) | (intro _ _; rfl)

theorem Same.setClient_twice {k : Nat} {f g h : Client → Client} (e : h (s.client k) = g (f (s.client k))) :
    Same (s.setClient k h) ((s.setClient k f).setClient k g) l := by
  constructor
  case client => intro i; simp only [State.setClient_client, e]; split <;> simp_all
  all_goals first | rfl | (intro _; rfl) | (intro _ _; rfl)

theorem Same.setPort {k : Nat} {f g : Port → Port} (h : g (s.port k) = f (s.port k)) : Same (s.setPort k f) (s.setPort k g) l := by
  constructor
  case port => intro i; rw [State.setPort_port, State.setPort_port, h]
  all_goals first | rfl | (intro _; rfl) | (intro _ _; rfl)

theorem Same.setPort_twice {k : Nat} {f g h : Port → Port} (e : h (s.port k) = g (f (s.port k))) :
    Same (s.setPort k h) ((s.setPort k f).setPort k g) l := by
  constructor
  case port => intro i; simp only [State.setPort_port, e]; split <;> simp_all
  all_goals first | rfl | (intro _; rfl) | (intro _ _; rfl)

/-- A page that may differ. -/
theorem Same.setPage {k : Nat} {f : Page → Page} : Same s (s.setPage k f) [k] := by
  constructor
  case page => intro p hp; rw [State.setPage_page, if_neg (by simpa using hp)]
  all_goals first | rfl | (intro _; rfl)

end Sys2Proof.Safety
end

