-- ==== Sys2Proof/Laws/Claims.lean ====
section
/-! SUPPORT. How the forms of Safety.lean follow from what a command's operation does: waiting commands, commands that act
at once, effects up to what `finish` touches, and fault events. -/

namespace Sys2Proof.Stated

open Machine

variable {s u w : State} {c : Instr} {m : Master}

/-- A meaning that ends in `w` does what makes `w`. -/
theorem does_of {but : List Nat} (he : exec c s = finish w) (hk : Safety.Same u w but) : Does c s u but := by
  obtain ⟨t, ht, k⟩ := Safety.finish_kept w
  exact ⟨t, he.trans ht, hk.trans k.same⟩

/-- A meaning that ends in `w` completes with what every state shows that is `w` but for records and requests. -/
theorem completes_of {P : State → Prop} (he : exec c s = finish w) (hp : ∀ t, Safety.Kept w t → P t) :
    Completes c s P := by
  obtain ⟨t, ht, k⟩ := Safety.finish_kept w
  exact ⟨t, he.trans ht, hp t k⟩

/-- A meaning that ends in a state that differs from `u` by a fault event. -/
theorem reports_of (he : exec c s = finish w) (hk : Safety.Reported u w) : Reports c s u := by
  obtain ⟨t, ht, k⟩ := Safety.finish_kept w
  exact ⟨t, he.trans ht, hk.trans k.reported⟩

theorem ready_write {p : Nat} {f : State → State} (h : Ready s p m) : s.onWrite p (masterCode m) f = f s :=
  s.onWrite_ready h.1 h.2.1 h.2.2.1 h.2.2.2

theorem answers_read {p : Nat} {f : State → List Word × State} (h : Answers s p m) :
    s.onRead p (masterCode m) f = { (f s).2 with sys := { (f s).2.sys with reply := (f s).1 } } := by
  have e := s.access_clean h.2.2.2
  unfold State.onRead
  rw [if_neg (by simp [h.1]), if_neg (by simp [h.2.1])]
  simp only [e, h.2.2.1, if_true]

/-- What a page and a master's CMD_STATUS read as after `finish`. -/
theorem kept_status {t : State} (h : Safety.Kept s t) (p k : Nat) : t.cmdStatus p k = s.cmdStatus p k := by
  have e : (t.page p).status = (s.page p).status := by rw [← h.page p]
  unfold State.cmdStatus; rw [e]

theorem kept_pend {t : State} (h : Safety.Kept s t) (p : Nat) : (t.page p).pend = (s.page p).pend := by rw [← h.page p]

theorem kept_prop {t : State} (h : Safety.Kept s t) (p : Nat) : (t.page p).prop = (s.page p).prop := by rw [← h.page p]

/-- A command that its page accepts for a later boundary. -/
theorem waits_of {p code : Nat} {arg : Word} {data : List Word} {apply F : State → State} {legal : State → Prop}
    {effect : State → State → Prop} (hr : Ready s p m) (he : exec c s = finish (s.onWrite p (masterCode m) F))
    (hp : ((F s).page p).pend = some (waiting s p m code arg data))
    (hs : (F s).cmdStatus p (masterCode m) = accepted s p code false)
    (hb : ∀ u, (u.page p).pend = some (waiting s p m code arg data) → legal u → effect u (apply u)) :
    Waits c s p m code arg apply legal effect data := by
  obtain ⟨t, ht, k⟩ := Safety.finish_kept (F s)
  exact ⟨t, by rw [he, ready_write hr, ht], (kept_status k _ _).trans hs, (kept_pend k p).trans hp, hb⟩

theorem submit_pend {p code : Nat} {arg : Word} {ck : Checks} (hc : ck.result = 0) :
    ((s.submit p (masterCode m) code arg ck).page p).pend = some (waiting s p m code arg) := by
  rw [s.submit_accepts hc]; exact s.accept_pend p (masterCode m) code arg []

theorem accept_shows {p code : Nat} {arg : Word} {data : List Word} (h : code < 256) :
    (s.accept p (masterCode m) code arg data).cmdStatus p (masterCode m) = accepted s p code false := by
  have e := s.accept_status p (masterCode m) code arg data
  rw [Nat.mod_eq_of_lt h] at e
  exact e

theorem submit_shows {p code : Nat} {arg : Word} {ck : Checks} (hc : ck.result = 0) (h : code < 256) :
    (s.submit p (masterCode m) code arg ck).cmdStatus p (masterCode m) = accepted s p code false := by
  rw [s.submit_accepts hc]; exact accept_shows h

/-- The usual waiting command: its operation is a `submit` whose checks pass. -/
theorem waits_submit {p code : Nat} {arg : Word} {ck : Checks} {apply F : State → State} {legal : State → Prop}
    {effect : State → State → Prop} (hr : Ready s p m) (he : exec c s = finish (s.onWrite p (masterCode m) F))
    (hF : F s = s.submit p (masterCode m) code arg ck) (hc : ck.result = 0) (hcode : code < 256)
    (hb : ∀ u, (u.page p).pend = some (waiting s p m code arg) → legal u → effect u (apply u)) :
    Waits c s p m code arg apply legal effect :=
  waits_of hr he (hF ▸ submit_pend hc) (hF ▸ submit_shows hc hcode) hb

/-- A pending command whose conditions still hold takes effect on a state with other common registers alone. -/
theorem settle_of {p again : Nat} {q : CmdPend} {f : CmdPend → State → State} (h : (u.page p).pend = some q)
    (ha : again = 0) : ∃ v, u.settleCmd p again f = f q v ∧ ∃ g, v = { u with pages := g } := by
  subst ha
  simp only [State.settleCmd, h]
  exact ⟨_, rfl, _, rfl⟩

/-- Answering a command touches its page alone. -/
theorem answer_same (p k code r : Nat) (fin : Bool) : Safety.Same s (s.answer p k code r fin) [p] := by
  unfold State.answer; exact Safety.Same.setPage

theorem event_same (p b : Nat) (l : List Nat) : Safety.Same s (s.event p b) l := (Safety.Kept.event s p b).same
theorem bump_same (p o : Nat) (l : List Nat) : Safety.Same s (s.bump p o) l := (Safety.Kept.bump s p o).same

theorem refuse_same (p k code r : Nat) : Safety.Same s (s.refuse p k code r) [p] := by
  unfold State.refuse State.noteRefusal
  dsimp only
  split
  · exact (((answer_same p k code r false).trans (bump_same _ _ _)).trans (event_same _ _ _)).trans (event_same _ _ _)
  · exact ((answer_same p k code r false).trans (bump_same _ _ _)).trans (event_same _ _ _)

theorem accept_same (p k code : Nat) (arg : Word) (data : List Word) : Safety.Same s (s.accept p k code arg data) [p] := by
  unfold State.accept; exact (answer_same p k code 0 false).trans Safety.Same.setPage

/-- Issuing a command that waits touches its page alone. -/
theorem submit_same (p k code : Nat) (arg : Word) (ck : Checks) : Safety.Same s (s.submit p k code arg ck) [p] := by
  unfold State.submit
  split
  · exact accept_same p k code arg []
  · exact refuse_same p k code _

/-- A command whose effect comes at once. -/
theorem carries_of {p code : Nat} {ck : Checks} {F f : State → State} (hr : Ready s p m)
    (he : exec c s = finish (s.onWrite p (masterCode m) F)) (hF : F s = s.immediate p (masterCode m) code ck f)
    (hc : ck.result = 0) (hcode : code < 256)
    (hs : (f (s.answer p (masterCode m) code 0 true)).cmdStatus p (masterCode m)
      = (s.answer p (masterCode m) code 0 true).cmdStatus p (masterCode m))
    (hk : Safety.Same u (f (s.answer p (masterCode m) code 0 true)) [p]) : Carries c s p m code u := by
  obtain ⟨t, ht, k⟩ := Safety.finish_kept (f (s.answer p (masterCode m) code 0 true))
  refine ⟨t, by rw [he, ready_write hr, hF, s.immediate_accepts hc, ht], ?_, hk.trans k.same⟩
  rw [kept_status k, hs]
  have e := s.answer_status p (masterCode m) code 0 true
  rw [Nat.mod_eq_of_lt hcode] at e
  exact e

end Sys2Proof.Stated
end

