-- ==== Sys2Proof/WellFormed.lean ====
section
/-! DEFINITION. Commands that the outside world can send as written: widths of counts and stamps, lengths of addresses,
frames that carry their row's opcode, offsets that are DW addresses. -/

namespace Sys2Proof

/-- A round in units of 2^-16 ns. -/
def roundTicks : Nat := 125000 * 65536

/-- The opcodes of the defined SPI frames (R385). -/
def spiOpcodes : List Byte := [0x02, 0x03, 0x05, 0x06]

/-- A list names each channel, or each other unit, once. -/
def namesOnce {α β : Type} [DecidableEq α] (l : List (α × β)) : Bool := decide (l.map (·.1)).Nodup

/-- Raw codes of test and code-density events have 18 bits (R49). -/
def TestPair.wf (p : TestPair) : Bool := decide (p.raw < 2 ^ 18) && decide (p.raw47 < 2 ^ 18)

/-- A round's environment: tempos that a cell clock of at most 808 MHz holds (R283); each channel and output once. -/
def RoundEnv.wf (e : RoundEnv) : Bool :=
  decide (e.tempos ≤ 101000) && namesOnce e.cal && e.tests.all TestPair.wf && e.codes.all (fun c => decide (c.2.1 < 2 ^ 18))
    && namesOnce e.verify && namesOnce e.warm && decide e.parity.Nodup

/-- Eight sensors (R373) and ten rails (R369). -/
def BudgetEnv.wf (e : BudgetEnv) : Bool := e.diodes.length == 8 && e.rails.length == 10

def NtpReq.wf (q : NtpReq) : Bool :=
  q.src.length == (if q.ipv6 then 16 else 4) && decide (q.version < 8) && decide (q.mode < 8)
    && decide (q.transmit < 2 ^ 64) && decide (q.at_ < roundTicks)

def PtpEvent.wf (m : PtpEvent) : Bool := decide (m.seq < 2 ^ 16) && decide (m.at_ < roundTicks)

def Announce.wf (a : Announce) : Bool :=
  decide (a.priority1 < 256) && decide (a.priority2 < 256) && decide (a.clockClass < 256) && decide (a.accuracy < 256)
    && decide (a.variance < 65536) && decide (a.identity < 2 ^ 64) && decide (a.stepsRemoved < 65536)

def Signal.wf (q : Signal) : Bool :=
  q.addr.length == 16 && decide (-128 ≤ q.log) && decide (q.log ≤ 127) && decide (q.duration < 2 ^ 32)

/-- A memory request lies inside BAR0 of 16 MiB and carries at least one DW (R382). -/
def PcieReq.wf (q : PcieReq) : Bool :=
  let n := match q.writes with | some l => l.length | none => q.count
  decide (0 < n) && decide (q.offset + 4 * n ≤ 2 ^ 24) && q.offset % 4 == 0

def CfgReq.wf : CfgReq → Bool
  | .read dw => decide (dw < 1024)
  | .msiEnable _ => true

def TapReq.wf : TapReq → Bool
  | .instruction _ => true
  | .read addr => addr % 4 == 0
  | .write addr _ => addr % 4 == 0

/-- The command is one that can be sent. -/
def Instr.wf : Instr → Bool
  | .roundBoundary env => env.wf
  | .harvestBoundary => true
  | .sclkLock coarse => decide (coarse < 2 ^ 64)
  | .oscSclkUnlock => true
  | .stampEvent _ coarse raw _ => decide (coarse < 2 ^ 64) && decide (raw < 2 ^ 18)
  | .stampEnable _ _ => true
  | .stampDisable _ _ => true
  | .predivSync _ _ => true
  | .stampTest _ _ => true
  | .stampRetry _ _ => true
  | .linRestart _ _ => true
  | .startingEnd _ => true
  | .stampTestEnd _ => true
  | .linTableComplete _ _ => true
  | .tbFollowing => true
  | .oscTbSrcLoss => true
  | .tbResume => true
  | .tbCrystal => true
  | .timStart _ _ => true
  | .timStop _ _ => true
  | .clearStab _ _ => true
  | .gateEnd _ => true
  | .tieSample _ => true
  | .resync _ => true
  | .archClear _ => true
  | .qualEnable _ _ => true
  | .qualDisable _ _ => true
  | .forceOut _ _ => true
  | .restore _ _ => true
  | .skipSoak _ _ => true
  | .clearMask _ _ => true
  | .soakExpiry _ => true
  | .guardExpiry _ => true
  | .fwGateEnd _ => true
  | .maskSample _ => true
  | .esmcTimeout _ => true
  | .receiverRelock _ => true
  | .linkChange _ _ => true
  | .forceSelect _ _ => true
  | .manualSelect _ _ => true
  | .clearSelect _ _ => true
  | .park _ _ => true
  | .unpark _ _ => true
  | .realignBo _ _ => true
  | .wtrExpiry _ => true
  | .parkTimeExpiry _ _ => true
  | .wtSample _ => true
  | .domEnable _ _ => true
  | .domDisable _ _ => true
  | .forceHoldover _ _ => true
  | .releaseHoldover _ _ => true
  | .sluiceRestart _ _ => true
  | .modelReset _ _ => true
  | .modelSave _ _ => true
  | .lockCriterion _ => true
  | .unlockCriterion _ => true
  | .holdoverLimit _ => true
  | .sluiceSegmentEnd _ => true
  | .modelSample _ => true
  | .domFbLoss _ => true
  | .domFbRange _ => true
  | .synCalDone _ _ => true
  | .synVcoRange _ => true
  | .synLock _ => true
  | .synUnlock _ => true
  | .synRelockTimeout _ => true
  | .synFollowRange _ => true
  | .divSync _ _ => true
  | .divSyncEpoch _ => true
  | .synRetry _ _ => true
  | .outputStart _ => true
  | .moveSwitch _ => true
  | .outVerify _ _ => true
  | .verifyEnd _ => true
  | .outRestart _ _ => true
  | .outRetry _ _ => true
  | .outDriver _ => true
  | .outBankSupply _ => true
  | .outDivMismatch _ => true
  | .stepTime _ => true
  | .timeRearm _ => true
  | .autoStep _ => true
  | .uartMessage _ _ _ _ => true
  | .ppsPulse _ => true
  | .leap _ => true
  | .trgFired _ => true
  | .timedSwapDue => true
  | .tick _ => true
  | .loadHost _ => true
  | .loadFlash _ => true
  | .bookData _ _ => true
  | .flashLoadDone _ _ => true
  | .schedVerify _ => true
  | .verifyDone => true
  | .activateWarm _ => true
  | .activateCold _ => true
  | .activationComplete => true
  | .schedClear _ => true
  | .resume _ => true
  | .spareIn _ => true
  | .cellTest _ => true
  | .cellTestDone _ _ => true
  | .storeScrub _ => true
  | .bind _ => true
  | .unbind _ => true
  | .castle _ => true
  | .recordArrival _ => true
  | .orderedSet _ coarse => decide (coarse < 2 ^ 64)
  | .blockLock => true
  | .syncStep => true
  | .partnerLost => true
  | .castleFail => true
  | .takenEnd => true
  | .aligned => true
  | .alignLoss => true
  | .pairPclkLoss => true
  | .pairAlignRange => true
  | .frameReceived _ frame => decide (frame.bytes.length ≤ 1522)
  | .ntpRequest _ q => q.wf
  | .ntsRequest _ q _ => q.wf
  | .sync _ msg => msg.wf
  | .followUp _ seq _ _ => decide (seq < 2 ^ 16)
  | .delayReq _ _ msg => msg.wf
  | .delayResp _ seq _ _ => decide (seq < 2 ^ 16)
  | .announce _ a => a.wf
  | .signaling _ q => q.wf
  | .arpRequest _ ipv6 target => target.length == (if ipv6 then 16 else 4)
  | .esmcPdu _ ssm enhanced => decide (ssm < 16) && (enhanced.getD 0).ble 255
  | .launch => true
  | .syncTx _ _ at_ => decide (at_ < roundTicks)
  | .announceTx _ _ => true
  | .delayReqTx _ at_ => decide (at_ < roundTicks)
  | .clientSample _ => true
  | .announceTimeout _ => true
  | .grantExpiry _ => true
  | .bucketDecay => true
  | .esmcInfoPdu _ => true
  | .txHeldReturn _ => true
  | .gratuitousArp => true
  | .hqRxData _ => true
  | .hqRxPop _ _ => true
  | .hqTxCtrl _ _ => true
  | .hqTxData _ _ => true
  | .keyInstall _ => true
  | .keyCurrent _ => true
  | .keyErase _ => true
  | .fwUpdate _ => true
  | .fwVerifyDone _ _ => true
  | .rlClear _ => true
  | .portRestart _ => true
  | .tsvcCtrlWdog => true
  | .ctrlRestartDone => true
  | .budgetLatch env => env.wf
  | .budgetHoldExpiry => true
  | .sag _ => true
  | .supplyFault _ _ => true
  | .brownOut => true
  | .thermTrip _ => true
  | .dormant _ => true
  | .wake _ => true
  | .spiWrite bytes => bytes.head? == some 0x02
  | .spiRead bytes => bytes.head? == some 0x03
  | .spiStatus bytes => bytes.head? == some 0x05
  | .gwrite bytes => bytes.head? == some 0x06
  | .spiUnknownOpcode bytes => match bytes.head? with | some b => !spiOpcodes.contains b | none => false
  | .pcieRequest q => q.wf
  | .pcieLinkChange _ => true
  | .perstN _ => true
  | .guardedWrite _ _ off _ => off.val % 4 == 0
  | .guard_ _ _ _ => true
  | .guardFail _ => true
  | .aliasWrite _ addr _ => decide (0x01000000 ≤ addr) && decide (addr < 0x01200000) && addr % 4 == 0
  | .pageForce _ _ _ => true
  | .snapshotRead _ _ off => off.val % 4 == 0
  | .registerWrite _ _ off _ => off.val % 4 == 0
  | .cmdUnknown _ _ _ => true
  | .bridgeTimeout _ addr _ => addr % 4 == 0
  | .swapSets _ => true
  | .swapSetsTimed _ => true
  | .swapCancel _ => true
  | .copySets _ => true
  | .resetFull _ => true
  | .resetIslands _ => true
  | .resetService _ => true
  | .claim _ => true
  | .complete _ _ => true
  | .swSet _ _ => true
  | .tgtCtrl _ _ => true
  | .fallback _ => true
  | .faultEvent _ _ _ _ => true
  | .checkWindowEnd _ => true
  | .uAck _ _ => true
  | .recRelease _ _ => true
  | .fAck _ => true
  | .bist _ => true
  | .bistEnd _ => true
  | .sweepRestart _ => true
  | .sweepStep => true
  | .sweepRetry => true
  | .faultSweepLate => true
  | .win _ _ _ => true
  | .countInit _ => true
  | .countInc _ => true
  | .countRead _ => true
  | .bpSet _ => true
  | .logClear _ => true
  | .logAppend => true
  | .runHours => true
  | .nvScrub w _ => decide (w < 131072)
  | .nvHoldupLow _ => true
  | .lcSet _ => true
  | .dbgSet _ => true
  | .keyWrite _ => true
  | .keyRevoke _ => true
  | .minverSet _ => true
  | .proposalCancel _ _ => true
  | .lapse _ => true
  | .secCryptoKat _ => true
  | .pstoreScrub _ => true
  | .tapInstruction q => q.wf
  | .resetN _ _ => true
  | .resetRelease _ => true
  | .imageEntry => true
  | .pairWait => true
  | .sclkRecalibrate _ => true
  | .castlingLinkDown => true
  | .pcieConfigRequest q => q.wf

end Sys2Proof
end

