-- ==== Sys2Proof/Tests/Slice0.lean ====
section
/-! SUPPORT. Tests. For each statement of the obligations file one theorem or a few show, for each of its clauses, a
small state and operands that meet the clause's hypotheses together, and what one step does there. A clause that rests
on a free function of Config (a signature, a curve point, a sealed message, a bucket's hash) is shown under the premise
that the function answers so. Expected values are worked out by hand from the rules.

Which theorem serves which statement: StampCommandsTakeEffect: stampCommands, stampTest. StampArrayEventsTakeEffect:
stampEdges, stampQueueFull, startingEnd, stampTestEnd, linTable. ContextCommandsTakeEffect: timCommands, gates.
HarvestCommandsTakeEffect: harvest, periods. ClockEventsTakeEffect: clock. Qualification: qualCommands, qualEvents, qualPorts.
Selection: selCommands, selEvents. Domains: domCommands, domEvents. Synthesisers: synCommands, synEvents. Outputs:
outCommands, outEvents. TimeCommandsTakeEffect: timeCommands, timeEvents. UartMessagesLabelPulses: uart. TicksSendFrames:
ticks. LoaderCommandsTakeEffect: schedCommands, loaderEvents, verifyBook. CellCommandsTakeEffect: cellCommands,
cellEvents. Pair: pairCommands, records, pairEvents. PtpMessagesAreExchanged: ptpClient, announce, ptpMaster, signaling,
signalingFull. NtpRequestsAreAnswered: ntp, rate, cookie. PortFramesAreHandled: ports. HostQueuesCarryFrames: hostQueues.
ServiceCommandsTakeEffect: serviceCommands, serviceEvents, firmware. Budget: budget, rails, dormant. SpiFramesAct: spi.
LinksAndTestPortAct: links. RegisterWritesAct: registerWrites. GuardedWritesAct: guarded, guardForms, ageAdj. OtherAccessesAct:
otherAccesses, aliases. SetCommandsTakeEffect: sets. ResetCommandsTakeEffect: resets. InterruptCommandsTakeEffect and
ClaimTakesHighest: irq. FaultEventsTakeEffect and AcknowledgementsEndChecks: faults. FirstErrorIsCaptured: captures.
CheckWindowsOpen: windows. FReactionHoldsOutputs: fReaction. SweepAndBistTakeEffect: faultCommands, sweep.
NvCommandsTakeEffect, NvWindowEndsAtItsPage and NvCountersCount: nvCounters, nvCommands. Security: security, keyWrite,
secEvents. StartupEventsTakeEffect: startup. ImageEntriesAreApplied: image, imageCommands. BoundariesCountRounds: roundCount.
ChipIdReads and SourcesHavePriorities: identity. RefusalsChangeNothing: refusal. StepRunsTheFrontCommand: step.
WaitingCommandsFrame, UnitsKeepApart and StepsKeepRequests hold of the commands that the other theorems run. -/

set_option Elab.async false

namespace Sys2Proof.Tests

open Sys2Proof Sys2Proof.Machine Sys2Proof.Stated

/-- The state after a command. -/
def after (c : Instr) (s : State) : State := match exec c s with | .next t => t | _ => s

/-- A started device whose stamp clock is locked and whose board runs, in its sixth round. -/
def live : State := ((State.reset.setOsc fun o => { o with running := true, sclkLock := true, count := 5 }).setBoot
  fun b => { b with started := true }).setBoard fun b => { b with state := .running }

/-- Register writes of the control host reach a page on which no command waits. -/
def Open (s : State) (p : Nat) : Prop := Ready s p .control ∧ Idle s p

/-- A command of the control host waits for its boundary. -/
def Takes (c : Instr) (s : State) (p code : Nat) (arg : Word) (data : List Word := []) : Prop :=
  (after c s).cmdStatus p 0 = accepted s p code false ∧
    ((after c s).page p).pend = some (waiting s p .control code arg data)

/-- A command of the control host has taken effect. -/
def Done (c : Instr) (s : State) (p code : Nat) : Prop := (after c s).cmdStatus p 0 = accepted s p code true

/-- A configuration word of page `p` at offset 0x100 + `x`. -/
def put (s : State) (p x : Nat) (v : Word) : State :=
  { s with active := tput cfgReset s.active (p * 0x1000 + 0x100 + x) v }

/-- CMD_ARG of the control host. -/
def arg (s : State) (p : Nat) (v : Word) : State := s.setArg p 0 v

/-- What `Ready` and the other forms say, taken apart. -/
theorem open_iff (s : State) (p : Nat) : Open s p ↔ ((s.boot.released = true ∧ s.mayAccess 0 true = true ∧
    s.reaches p = true ∧ s.stagedOf 0 = none) ∧ (s.page p).pend = none) := Iff.rfl

/-- Channel 3 in a state. -/
def ch3 (st : ChState) : State := live.setChan 3 fun c => { c with state := st }

theorem test_stampCommands :
    (Open (ch3 .off) 0x13 ∧ ((ch3 .off).chan 3).test = none ∧ ((ch3 .off).chan 3).state = .off ∧
      Takes (.stampEnable 3 .control) (ch3 .off) 0x13 1 0 ∧
      (((after (.stampEnable 3 .control) (ch3 .off)).stampApply 3).chan 3).state = .starting) ∧
    ((ch3 .run).chanInUse 3 = false ∧ Takes (.stampDisable 3 .control) (ch3 .run) 0x13 2 0 ∧
      (((after (.stampDisable 3 .control) (ch3 .run)).stampApply 3).chan 3).state = .off) ∧
    (Takes (.predivSync 3 .control) (ch3 .degraded) 0x13 3 0 ∧
      (((after (.predivSync 3 .control) (ch3 .degraded)).stampApply 3).chan 3).prediv = 0) ∧
    (Takes (.stampRetry 3 .control) (ch3 .fenced) 0x13 5 0 ∧
      (((after (.stampRetry 3 .control) (ch3 .fenced)).stampApply 3).chan 3).state = .starting) ∧
    (Takes (.linRestart 3 .control) (ch3 .run) 0x13 6 0 ∧
      (((after (.linRestart 3 .control) (ch3 .run)).stampApply 3).chan 3).a.histRounds = 0) := by
  unfold Open Ready Idle Takes; decide +kernel

/-- The least argument of TEST. -/
theorem test_stampTest : let s := arg (ch3 .run) 0x13 64
    64 ≤ bits (s.arg 0x13 0) 15 0 ∧ Takes (.stampTest 3 .control) s 0x13 4 64 ∧
      (((after (.stampTest 3 .control) s).stampApply 3).chan 3).test.map (·.left) = some 2 := by
  unfold Takes; decide +kernel

/-- Channel 3 stamping, its pre-divider at `n`, the last stop at 100, `k` entries queued. -/
def stamping (n k : Nat) : State := put (live.setChan 3 fun c => { c with
  state := .run, stamping := true, prediv := n, lastStop := some 100, seq := 255, missed := 2, lost := true
  queue := List.replicate k { coarse := 1, raw := 0, falling := false, miss := false, ovf := false, interpB := false
                              seq := 0, missCnt := 0, degraded := false, edge := 0 } }) 0x13 4 9

theorem test_stampEdges : let e (c : Nat) (s : State) : Chan := (after (.stampEvent 3 c 0x40001 false) s).chan 3
    (stamping 1 0).edgeSelected 3 false = true ∧ (e 105 (stamping 1 0)).prediv = 0 ∧
    (e 105 (stamping 0 0)).missed = 3 ∧ (e 105 (stamping 0 0)).prediv = 9 ∧ (e 105 (stamping 0 0)).queue = [] ∧
    (e 106 (stamping 0 0)).seq = 0 ∧ (e 106 (stamping 0 0)).missed = 0 ∧ (e 106 (stamping 0 0)).prediv = 9 ∧
    (e 106 (stamping 0 0)).queue.map (fun x => (x.coarse, x.raw, x.seq, x.miss)) = [(106, 1, 255, true)] ∧
    (e 106 (stamping 0 0)).queue.map (fun x => (x.missCnt, x.ovf)) = [(2, true)] := by decide +kernel

theorem test_stampQueueFull : let t := (after (.stampEvent 3 106 1 false) (stamping 0 1024)).chan 3
    t.queue.length = 1024 ∧ t.lost = true ∧ t.prediv = 9 := by decide +kernel

/-- Channel 3 at the end of STARTING, the interpolators accepted as given. -/
def ending (a b : Bool) : State := live.setChan 3 fun c => { c with
  state := .starting, a := { c.a with accepted := a }, b := { c.b with accepted := b } }

theorem test_startingEnd : let e (a b : Bool) : ChState := ((after (.startingEnd 3) (ending a b)).chan 3).state
    e true true = .run ∧ e true false = .degraded ∧ e false true = .degraded ∧ e false false = .fenced := by decide +kernel

/-- Channel 3 at the end of a TEST. -/
def tested (st : ChState) (a b : Bool) : State := live.setChan 3 fun c => { c with
  state := st, test := some { left := 0, failA := a, failB := b } }

theorem test_stampTestEnd : let e (st : ChState) (a b : Bool) : Chan := (after (.stampTestEnd 3) (tested st a b)).chan 3
    (e .run false false).testResult = 1 ∧ (e .run false false).state = .run ∧ (e .run false true).testResult = 2 ∧
    (e .run false true).state = .degraded ∧ (e .off true true).state = .fenced ∧ (e .off true true).test = none := by
  decide +kernel

/-- A complete histogram of interpolator A, even or with every count in its last bin. -/
def histogram (even : Bool) : State := live.setChan 3 fun c => { c with
  state := .run, a := { c.a with hist := if even then List.replicate 64 1 else List.replicate 63 0 ++ [1] } }

theorem test_linTable :
    (((after (.linTableComplete 3 false) (histogram true)).chan 3).a.linNew = some (List.replicate 63 0)) ∧
    ((after (.linTableComplete 3 false) (histogram false)).chan 3).a.excluded = true ∧
    ((after (.linTableComplete 3 false) (histogram false)).chan 3).state = .degraded := by decide +kernel

/-- Context 1 of TIM page 0xC0 on channel 3 in FREQUENCY, aligned or not, in a state. -/
def tim1 (mode : Word) (st : TimState) : State :=
  arg (put (put ((ch3 .run).setTim 1 fun t => { t with state := st, gates := [Gate.new 0] }) 0xC0 16 (0x30300 + mode))
    0xC0 24 1) 0xC0 1

theorem test_timCommands : let a (c : Instr) (s : State) : Tim := ((after c s).timApply 0).tim 1
    Open (tim1 0 .idle) 0xC0 ∧ bits ((tim1 0 .idle).arg 0xC0 0) 5 0 = 1 ∧ ((tim1 0 .idle).timCfg 1).bad = false ∧
    (tim1 0 .idle).timSourceLost ((tim1 0 .idle).timCfg 1) = false ∧
    Takes (.timStart 0 .control) (tim1 0 .idle) 0xC0 1 1 ∧ (a (.timStart 0 .control) (tim1 0 .idle)).state = .running ∧
    (a (.timStart 0 .control) (tim1 0 .halted)).gates = [Gate.new 0] ∧
    (a (.timStart 0 .control) (tim1 4 .idle)).state = .waiting ∧
    Takes (.timStop 0 .control) (tim1 0 .running) 0xC0 2 1 ∧ (a (.timStop 0 .control) (tim1 0 .running)).state = .idle ∧
    2 ≤ ((tim1 2 .running).timCfg 1).mode ∧ Takes (.clearStab 0 .control) (tim1 2 .running) 0xC0 3 1 ∧
    (a (.clearStab 0 .control) ((tim1 2 .running).setTim 1 fun t => { t with ring := [none] })).ring = [] := by
  unfold Open Ready Idle Takes; decide +kernel

theorem test_gates : let g : Gate := { Gate.new 0 with a := [5] }
    let s (m : Word) (g : Gate) : State := (tim1 m .running).setTim 1 fun t => { t with gates := [g], nextSeq := 1 }
    let e (m : Word) (g : Gate) : Tim := (after (.gateEnd 1) (s m g)).tim 1
    (e 1 g).done = true ∧ (e 1 g).gates = [Gate.new 1] ∧ (e 1 g).nextSeq = 2 ∧
    (e 0 (Gate.new 0)).gates = [Gate.new 1] ∧ (e 0 g).gates = [{ g with ended := true }, Gate.new 1] ∧
    (e 0 g).done = false ∧
    (let h : Gate := { g with ended := true }
     ((after (.gateEnd 1) ((s 0 g).setTim 1 fun t => { t with gates := [h, Gate.new 1], nextSeq := 2 })).tim 1).gates =
       [h, { Gate.new 1 with ended := true }, Gate.new 2]) ∧
    ((after (.tieSample 1) (tim1 2 .running)).tim 1).ring = [none] := by decide +kernel

theorem test_harvest :
    (Open live 0x08 ∧ Takes (.resync .control) live 0x08 1 0 ∧
      (after (.resync .control) live).harvestApply.harvest.bday.seq = 1 ∧
      (after (.resync .control) live).harvestApply.harvest.b900.flags.testBit 1 = true) ∧
    (let s := live.setHarvest fun h => { h with archSlot := 4 }
     Takes (.archClear .control) s 0x08 2 0 ∧ (after (.archClear .control) s).harvestApply.harvest.archSlot = 0) ∧
    (let s (n : Nat) : State := live.setHarvest fun h => { h with p60 := { h.p60 with secs := n } }
     (s 58).secondDue = false ∧ (after .harvestBoundary (s 58)).harvest.p60.secs = 59 ∧ (after .harvestBoundary (s 59)).harvest.p60.secs = 0 ∧
     (after .harvestBoundary (s 59)).harvest.b60.seq = 1 ∧
     (after .harvestBoundary (live.bump 0x13 0xA00)).harvest.b1.ctr = [(0x13A00, 1)]) := by
  unfold Open Ready Idle Takes; decide +kernel

theorem test_periods : let t (s : State) : Harvest := (after .harvestBoundary s).harvest
    -- free-running, at second 900 of the count: 900 s ends, the day goes on with the second's values
    (let s := (live.bump 0x13 0xA00).setOsc fun o => { o with count := 7200001 }
     s.secondDue = true ∧ (t s).b900.seq = 1 ∧ (t s).b60.ctr = [(0x13A00, 1)] ∧ (t s).bday.seq = 0 ∧
     (t s).pday.secs = 1 ∧ (t s).pday.ctr = [(0x13A00, 1)]) ∧
    -- aligned, where DOM[0] shows second 60, 120 less than 180 labels of UTC_OFS
    (let s (n : Int) : State := (live.setHarvest fun h => { h with alignAct := true }).setTdom 0 fun x => { x with
       t := n * secUnits }
     (s 60).dayLabel % 60 = 0 ∧ (t (s 60)).b60.seq = 1 ∧ (t (s 61)).b60.seq = 0 ∧ (t (s 61)).p60.secs = 1 ∧
     (t (s 86400)).bday.seq = 1 ∧ (t (s 900)).bday.seq = 0) := by decide +kernel

theorem test_clock : let s (st : TbState) (n : Nat) : State := live.setOsc fun o => { o with tb := st, tbSrc := n }
    (after .tbFollowing (s .slewing 1)).osc.tb = .following ∧ (after .oscTbSrcLoss (s .following 2)).osc.tb = .frozen ∧
    (after .oscTbSrcLoss (s .slewing 1)).osc.tb = .frozen ∧ (after .tbResume (s .frozen 1)).osc.tb = .slewing ∧
    (after .tbCrystal (s .slewing 0)).osc.tb = .crystal ∧
    (let s := State.reset.setBoot fun b => { b with started := true }
     let t := after (.sclkRecalibrate (some 77)) s
     t.osc.running = true ∧ t.osc.bnd = 77 ∧ (t.chan 47).state = .run ∧
     (after (.sclkLock 77) s).osc = t.osc) ∧
    (let s := live.setOsc fun o => { o with sclkLock := false }
     (after (.sclkLock 77) s).osc = live.osc) ∧
    (let t := after .oscSclkUnlock (live.setDom 2 fun x => { x with state := .freeRun })
     t.osc.sclkLock = false ∧ t.irq.fatalG = true ∧ (t.dom 2).safePend.isSome = true ∧ (t.dom 1).safePend = none) := by
  decide +kernel
/-- Candidate 3 in a state, its channel running, with a nominal period of `num`/1 stamp-clock periods. -/
def qual3 (st : QState) (f : Qual → Qual := id) : State :=
  put (put ((ch3 .run).setQual 3 fun q => f { q with state := st }) 0x43 8 125) 0x43 12 1

theorem test_qualCommands : let b (c : Instr) (s : State) : Qual := ((after c s).qualApply 3).qual 3
    Open (qual3 .disabled) 0x43 ∧ (qual3 .disabled).nomOk 3 = true ∧ (qual3 .disabled).candFrozen 3 = false ∧
    Takes (.qualEnable 3 .control) (qual3 .disabled) 0x43 1 0 ∧
    (b (.qualEnable 3 .control) (qual3 .disabled)).state = .monitor ∧
    (qual3 .monitor).candInUse 3 = false ∧ Takes (.qualDisable 3 .control) (qual3 .monitor) 0x43 2 0 ∧
    (b (.qualDisable 3 .control) (qual3 .monitor)).state = .disabled ∧
    Takes (.forceOut 3 .control) (qual3 .qualified) 0x43 3 0 ∧
    (b (.forceOut 3 .control) (qual3 .qualified)).state = .forcedOut ∧
    Takes (.restore 3 .control) (qual3 .forcedOut) 0x43 4 0 ∧
    (b (.restore 3 .control) (qual3 .forcedOut)).state = .soaking ∧
    (b (.restore 3 .control) (qual3 .forcedOut fun q => { q with fenced := true })).reason = 10 ∧
    (b (.restore 3 .control) (qual3 .forcedOut fun q => { q with failSet := 0x400 })).reason = 10 ∧
    (b (.restore 3 .control) (qual3 .forcedOut fun q => { q with failSet := 0x600 })).reason = 9 ∧
    (b (.restore 3 .control) (qual3 .forcedOut fun q => { q with failSet := 1 })).state = .disqualified ∧
    Takes (.skipSoak 3 .control) (qual3 .soaking) 0x43 5 0 ∧
    (b (.skipSoak 3 .control) (qual3 .soaking fun q => { q with soak := 9 })).soak = 0 ∧
    Takes (.clearMask 3 .control) (qual3 .monitor) 0x43 6 0 ∧
    (b (.clearMask 3 .control) (qual3 .monitor fun q => { q with maskK := 9 })).maskK = 0 := by
  unfold Open Ready Idle Takes; decide +kernel

/-- A frequency-window gate of two nominal periods, each `k` fine units short of 125 × 2^18, and FW_FAIL set. -/
def gate3 (k : Int) (lim : Word) : State :=
  put (qual3 .qualified fun q => { q with fwGate := [0, 32768000 - k, 2 * (32768000 - k)], fwFail := true }) 0x43 24 lim

theorem test_qualEvents :
    ((after (.soakExpiry 3) (qual3 .soaking)).qual 3).state = .qualified ∧
    (let s := qual3 .qualified fun q => { q with suspect := true, failSet := 0x400 }
     ((after (.guardExpiry 3) s).qual 3).state = .disqualified ∧ ((after (.guardExpiry 3) s).qual 3).reason = 10) ∧
    (fitRatio ((gate3 0 1).nomStep 3) ((gate3 0 1).qual 3).fwGate).isSome = true ∧
    (let fails (k : Int) (lim : Word) : Bool := ((after (.fwGateEnd 3) (gate3 k lim)).qual 3).fwFail
     fails 0 1 = false ∧ fails (-1) 7812 = true ∧ fails (-1) 0 = false ∧ fails (-1) 8928 = true ∧
     fails (-1) 8929 = false) ∧
    ((after (.fwGateEnd 3) (gate3 0 1)).qual 3).fwPosted = true ∧
    (fitRatio ((qual3 .qualified).nomStep 3) ((qual3 .qualified).qual 3).fwGate = none ∧
     ((after (.fwGateEnd 3) (qual3 .qualified fun q => { q with fwFail := true })).qual 3).fwFail = true) ∧
    ((after (.maskSample 3) (qual3 .qualified)).qual 3).maskK = 1 := by decide +kernel

/-- Port 1 enabled, its link up, the service island in use. -/
def port1 : State := (put (live.setPort 1 fun x => { x with linkUp := true }) 0x0C 0x80 1).setSvc fun x => { x with ctrl := .run }

theorem test_qualPorts :
    port1.portUp 1 = true ∧ ((after (.receiverRelock 1) port1).qual 33).relock = true ∧
    (let s := port1.setPort 1 fun x => { x with linkUp := false }
     bit (s.cfg 0x0C 0x80) 0 = true ∧ s.serviceOn = true ∧ ((after (.linkChange 1 true) s).port 1).linkUp = true ∧
     ((after (.linkChange 1 true) s).qual 33).relock = true) ∧
    ((after (.linkChange 1 false) port1).port 1).linkUp = false ∧
    (let s := put live 0x61 0 2
     s.qlSrc 33 = 1 ∧ (after (.esmcTimeout 1) s).rankOf 33 = 15) := by decide +kernel

/-- Domain 2 in a state and mode, slot 1 with candidate 3, slot number 1 as argument. -/
def dom2 (st : DState) (mode : Word) (f : Sel → Sel := id) : State :=
  arg (put (put ((qual3 .qualified).setDom 2 fun x => { x with state := st, sel := f x.sel }) 0x72 0x148 0x103)
    0x72 0x100 mode) 0x72 1

/-- Slot 1 measured and admitted, parked or not. -/
def slot1 (parked : Bool) (l : Sel) : Sel :=
  l.setSlot 1 fun v => { v with p := some 7, parked, eligible := !parked, calm := 4, sigSince := 9, w := 1 }

theorem test_selCommands : let b (c : Instr) (s : State) : Sel := (((after c s).domApply 2).dom 2).sel
    let s := dom2 .locked 0x10
    Open s 0x72 ∧ s.slotCand 2 1 = some 3 ∧ s.domRuns 2 = true ∧
    Takes (.forceSelect 2 .control) s 0x72 0x10 1 ∧ (b (.forceSelect 2 .control) s).forced = some 1 ∧
    Takes (.manualSelect 2 .control) s 0x72 0x11 1 ∧ (b (.manualSelect 2 .control) s).manual = some 1 ∧
    Takes (.clearSelect 2 .control) s 0x72 0x12 1 ∧
    (b (.clearSelect 2 .control) (dom2 .init 0 fun l => { l with forced := some 1 })).forced = none ∧
    (let s := dom2 .freeRun 2 (slot1 false)
     s.selMode 2 = 2 ∧ Takes (.park 2 .control) s 0x72 0x13 1 ∧ ((b (.park 2 .control) s).slotAt 1).parked = true ∧
     ((b (.park 2 .control) s).slotAt 1).eligible = false) ∧
    (let s := dom2 .freeRun 2 (slot1 true)
     Takes (.unpark 2 .control) s 0x72 0x14 1 ∧ ((b (.unpark 2 .control) s).slotAt 1).parked = false ∧
     ((b (.unpark 2 .control) s).slotAt 1).calm = 0) ∧
    (let s := dom2 .acquire 0x10 fun l => { l with valid := true }
     s.pboMode 2 ≠ 0 ∧ Takes (.realignBo 2 .control) s 0x72 0x15 1 ∧ (b (.realignBo 2 .control) s).realign = true) := by
  unfold Open Ready Idle Takes; decide +kernel

theorem test_selEvents :
    (let s := dom2 .locked 0x10 fun l => slot1 false { l with
       valid := true, slot := 6, wtrSlot := some 1, wtrRun := true, xref := 77 }
     let r := ((after (.wtrExpiry 2) s).dom 2).sel
     s.selectable 2 none 1 = true ∧ r.slot = 1 ∧ r.wtrRun = false ∧ r.xref = 77 ∧ r.lastSwitch = 0x00040116) ∧
    (let s := dom2 .locked 0 fun l => slot1 false { l with valid := true, slot := 6, wtrSlot := some 1, wtrRun := true }
     ((after (.wtrExpiry 2) s).dom 2).sel.bo = s.slotOfs 2 1) ∧
    (let s := dom2 .locked 2 (slot1 true)
     let v := (after (.parkTimeExpiry 2 1) s).dslot 2 1
     s.ensReady 2 1 = true ∧ v.parked = false ∧ v.eligible = true ∧ v.w = 0 ∧ v.sigSince = 0) ∧
    (let s := put (dom2 .locked 2 fun l => slot1 false { l with ens := true, xref := 4 }) 0x72 0x10C 1
     s.members 2 = [1] ∧ s.sigPaused 2 = false ∧ ((after (.wtSample 2) s).dslot 2 1).sigSince = 0 ∧
     ((after (.wtSample 2) s).dslot 2 1).sig.sum = 7 - 4 ∧ s.slotOfs 2 1 = 0) ∧
    (let s := put (dom2 .locked 2 fun l => slot1 false { l with ens := true }) 0x72 0x110 0xFFFFF
     let u := s.setBoard fun b => { b with varNow := 1 }
     u.sigPaused 2 = true ∧ after (.wtSample 2) u = u) := by decide +kernel

/-- Domain 2 fed back by synthesiser 5, in a state. -/
def loop2 (st : DState) (f : Dom → Dom := id) : State :=
  put ((live.setDom 2 fun x => f { x with state := st }).setSyn 5 fun y => { y with mode := 2, dom := 2 }) 0x72 0 0x500

theorem test_domCommands : let b (c : Instr) (s : State) : Dom := ((after c s).domApply 2).dom 2
    (let s := loop2 .init
     Open s 0x72 ∧ s.member 2 (s.cfgFb 2) = true ∧ (s.dom 2).safe = false ∧ Takes (.domEnable 2 .control) s 0x72 1 0 ∧
     (b (.domEnable 2 .control) s).state = .freeRun) ∧
    (let s := loop2 .init fun x => { x with safe := true }
     s.fault.cause 2 = none ∧ Takes (.domEnable 2 .control) s 0x72 1 0 ∧ (b (.domEnable 2 .control) s).state = .freeRun) ∧
    (let s := loop2 .locked
     s.domServes 2 = false ∧ Takes (.domDisable 2 .control) s 0x72 2 0 ∧ (b (.domDisable 2 .control) s).state = .init ∧
     (b (.domDisable 2 .control) s).qlOut = 15 ∧ Takes (.forceHoldover 2 .control) s 0x72 3 0 ∧
     (b (.forceHoldover 2 .control) s).forcedHo = true ∧ Takes (.sluiceRestart 2 .control) s 0x72 5 0 ∧
     (b (.sluiceRestart 2 .control) (loop2 .locked fun x => { x with seg := 3 })).seg = 0) ∧
    (let s := loop2 .holdover fun x => { x with forcedHo := true }
     Takes (.releaseHoldover 2 .control) s 0x72 4 0 ∧ (b (.releaseHoldover 2 .control) s).forcedHo = false) ∧
    (let s := loop2 .acquire fun x => { x with model := { x.model with valid := true } }
     Takes (.modelReset 2 .control) s 0x72 6 0 ∧ (b (.modelReset 2 .control) s).model.valid = false ∧
     Takes (.modelSave 2 .control) s 0x72 7 0 ∧ s.modelNvOk 2 = true ∧ s.nvWritable = true ∧ s.modelSeq 2 0 = none ∧
     nvWord ((after (.modelSave 2 .control) s).domApply 2).nv.mem 4 = 1 ∧
     (let u := { ((after (.modelSave 2 .control) s).domApply 2) with pages := [] }
      u.modelSeq 2 0 = some 1 ∧ u.modelSeq 2 1 = none ∧
      nvWord ((after (.modelSave 2 .control) u).domApply 2).nv.mem 68 = 2)) ∧
    (let s := put (loop2 .freeRun fun x => { x with model := { x.model with valid := true } }) 0x72 0x2C 0x7FFFF
     s.modelNvOk 2 = false ∧ ((after (.modelSave 2 .control) s).domApply 2).nv.mem = []) := by
  unfold Open Ready Idle Takes; decide +kernel

theorem test_domEvents : let d (c : Instr) (s : State) : Dom := (after c s).dom 2
    (let s (k : Int) : State := put (loop2 .acquire fun x => { x with err := k }) 0x72 0x10 1
     (s 838860).domLive 2 = true ∧ 10 * ((s 838860).dom 2).err.natAbs ≤ bits ((s 838860).dcfg 2 0x10) 15 0 * 8388608 ∧
     (d (.lockCriterion 2) (s 838860)).state = .locked ∧ (d (.lockCriterion 2) (s 838861)).state = .acquire) ∧
    (let s (k : Int) : State := put (loop2 .locked fun x => { x with err := k }) 0x72 0x10 1
     (d (.unlockCriterion 2) (s 3355444)).state = .acquire ∧ (d (.unlockCriterion 2) (s 3355443)).state = .locked) ∧
    (let s := put (loop2 .holdover fun x => { x with ye := 9 }) 0x72 0x28 0xB00
     (d (.holdoverLimit 2) s).state = .holdoverLimited ∧ (d (.holdoverLimit 2) s).ye = 9 ∧
     (d (.holdoverLimit 2) s).qlOut = 11) ∧
    (let s (k : Nat) : State := put (put (put (loop2 .locked fun x => { x with seg := k }) 0x72 (0x84 + 8 * 14) 3) 0x72
       (0x84 + 8 * 15) 4) 0x72 (0x84 + 8 * 13) 1
     (d (.sluiceSegmentEnd 2) (s 14)).seg = 15 ∧ (d (.sluiceSegmentEnd 2) (s 14)).left = 4 ∧
     (d (.sluiceSegmentEnd 2) (s 15)).seg = 15 ∧ (d (.sluiceSegmentEnd 2) (s 15)).left = 0) ∧
    (let s (bad : Bool) : State := loop2 .locked fun x => { x with model := { x.model with cnt := 8, sumY := 80, bad } }
     (d (.modelSample 2) (s false)).model.samples.length = 1 ∧ (d (.modelSample 2) (s false)).model.learned = 8 ∧
     (d (.modelSample 2) (s true)).model.samples = [] ∧ (d (.modelSample 2) (s true)).model.cnt = 0) ∧
    (d (.domFbLoss 2) (loop2 .locked)).open_ = true ∧ (d (.domFbRange 2) (loop2 .locked)).open_ = true := by
  decide +kernel
/-- Synthesiser 5 in a state, and output 9 that it drives in a state. -/
def synth (st : SynState) (o : OState := .run) (f : Syn → Syn := id) (g : Out → Out := id) : State :=
  put ((live.setSyn 5 fun y => f { y with state := st, mode := 1 }).setOut 9 fun x => g { x with
    state := o, held := false, cfg := { x.cfg with syn := 5 } }) 0x99 0 0x10000

theorem test_synCommands :
    (let s := arg (synth .locked) 0x85 1; let t := after (.divSync 5 .control) s
     Open s 0x85 ∧ (s.syn 5).sync = none ∧ bits (s.arg 0x85 0) 7 0 ≠ 0 ∧ Takes (.divSync 5 .control) s 0x85 1 1 ∧
     ((t.synApply 5).syn 5).sync = some 1 ∧ ((t.synApply 5).out 9).held = true ∧
     ((t.synApply 5).out 9).starting = true ∧
     (let v := after (.divSyncEpoch 5) (t.synApply 5); (v.syn 5).sync = none ∧ (v.out 9).held = false)) ∧
    (let s := synth .failed
     Open s 0x85 ∧ (s.syn 5).planErr = false ∧ Takes (.synRetry 5 .control) s 0x85 2 0 ∧
     (((after (.synRetry 5 .control) s).synApply 5).syn 5).state = .cal) := by
  unfold Open Ready Idle Takes; decide +kernel

theorem test_synEvents : let f (c : Instr) (s : State) : Syn := (after c s).syn 5
    let o (c : Instr) (s : State) : Out := (after c s).out 9
    (let s := put (synth .cal) 0x85 0x24 1000
     (f (.synCalDone 5 9) s).state = .settling ∧ (f (.synCalDone 5 9) s).band = 9 ∧
     (f (.synCalDone 5 9) s).word = (s.syn 5).word ∧
     wordOf (250 * 2 ^ 48) 72057594 0 = 250 * 2 ^ 48 + (250 * 2 ^ 48 * 72057594 + 2 ^ 55) / 2 ^ 56) ∧
    (f (.synVcoRange 5) (synth .cal)).state = .failed ∧
    (f (.synLock 5) (synth .settling .squelched)).state = .locked ∧
    (o (.synLock 5) (synth .unlocked .squelched)).state = .wait ∧
    (f (.synUnlock 5) (synth .locked)).state = .unlocked ∧ (o (.synUnlock 5) (synth .locked)).state = .squelched ∧
    ((after (.synUnlock 5) (put (synth .locked) 0x0C 0 0x50)).port 0).txHeld = true ∧
    (f (.synRelockTimeout 5) (synth .unlocked)).state = .cal ∧
    (let s := synth .locked .run fun y => { y with mode := 2, followAligned := true, dom := 2 }
     (s.dom 2).fbSyn ≠ 5 ∧ (f (.synFollowRange 5) s).followHold = true ∧
     (o (.synFollowRange 5) s).state = .squelched) := by decide +kernel

theorem test_outCommands : let b (c : Instr) (s : State) : Out := ((after c s).outApply 9).out 9
    (let s := arg (synth .locked .run id fun x => { x with epochAligned := true }) 0x99 64
     Open s 0x99 ∧ s.testBusy 41 = false ∧ Takes (.outVerify 9 .control) s 0x99 1 64 ∧
     (b (.outVerify 9 .control) s).verifyLeft = 2 ∧ Takes (.outRestart 9 .control) s 0x99 2 64 ∧
     (b (.outRestart 9 .control) s).starting = true ∧ (b (.outRestart 9 .control) s).held = true) ∧
    (let s := synth .locked .fenced
     Open s 0x99 ∧ Takes (.outRetry 9 .control) s 0x99 3 0 ∧ (b (.outRetry 9 .control) s).state = .wait) := by
  unfold Open Ready Idle Takes; decide +kernel

theorem test_outEvents : let o (c : Instr) (s : State) : Out := (after c s).out 9
    (let s := synth .locked .wait id fun x => { x with starting := true, held := true }
     s.mayStart 9 = true ∧ (o (.outputStart 9) s).state = .run ∧ (o (.outputStart 9) s).held = false) ∧
    (let s := synth .locked .run id fun x => { x with starting := true, held := true }
     s.sourceLocked 9 = true ∧ (o (.outputStart 9) s).held = false ∧ (o (.outputStart 9) s).starting = false) ∧
    (let c := { OutCfg.zero with syn := 6 }
     (o (.moveSwitch 9) (synth .locked .run id fun x => { x with move := some c })).cfg = c) ∧
    (let s (n : Nat) : State := synth .locked .run id fun x => { x with verifyBusy := true, verifyMax := n }
     (o (.verifyEnd 9) (s 6400)).verifyResult = 1 ∧ (o (.verifyEnd 9) (s 6401)).verifyResult = 2 ∧
     (o (.verifyEnd 9) (s 6401)).verifyErr = 6401) ∧
    (o (.outDriver 9) (synth .locked)).held = true ∧ (o (.outDriver 9) (synth .locked)).driverOk = false ∧
    (o (.outDivMismatch 9) (synth .locked)).starting = true ∧ (o (.outDivMismatch 9) (synth .locked)).state = .run ∧
    (o (.outBankSupply 1) (synth .locked)).held = true ∧ ((after (.outBankSupply 1) live).out 15).held = true := by
  decide +kernel

/-- Time domain 2 locked, its source the host's value, PPS candidate in slot 1. -/
def tod2 (f : TimeDom → TimeDom := id) : State :=
  arg (put ((dom2 .locked 0).setTdom 2 f) 0x09 0x20 6) 0x09 0x12

theorem test_timeCommands : let b (s : State) : State := s.timeApply
    (let s := tod2; let v := b (after (.stepTime .control) s)
     Open s 0x09 ∧ Takes (.stepTime .control) s 0x09 1 0x12 ∧ (v.tdom 2).stepped = true ∧ (v.tdom 2).epoch = 1 ∧
     (v.tdom 2).valid = true ∧ (v.tdom 2).t = (s.tdom 2).t + s.stepAmount 2 true) ∧
    (let s := arg (tod2 fun x => { x with stepped := true, valid := true }) 0x09 0x50002
     let p := s.setPage 0x09 fun g => { g with
       prop := some { master := 1, code := 2, arg := 0x50002, data := [], age := 3 } }
     Open s 0x09 ∧ MayPropose s 0x09 .control 2 0x50002 ∧ Done (.timeRearm .control) s 0x09 2 ∧
     ((after (.timeRearm .control) s).page 0x09).prop =
       some { master := 0, code := 2, arg := 0x50002, data := [], age := 0 } ∧
     Takes (.timeRearm .control) p 0x09 2 0x50002 ∧ s.noParty 0 = false ∧ s.partyBarred 0x09 2 = false ∧
     ((b (after (.timeRearm .control) p)).tdom 2).stepped = false ∧
     ((b (after (.timeRearm .control) p)).tdom 2).valid = false ∧
     ((b (after (.timeRearm .control) p)).tdom 2).anchor = true) := by
  unfold Open Ready Idle Takes Done MayPropose; decide +kernel

theorem test_timeEvents : let x (c : Instr) (s : State) : TimeDom := (after c s).tdom 2
    (let s := put (tod2 fun x => { x with srcOk := true }) 0x09 0x20 0x1006
     s.autoStepDue 2 = true ∧ (x (.autoStep 2) s).autoStep = true) ∧
    (let s (n : Int) : State := tod2 fun x => { x with t := 5, ppsFrom := n }
     (x (.ppsPulse 2) (s secUnits)).pps = 1 ∧ (x (.ppsPulse 2) (s (secUnits + 1))).pps = 0 ∧
     (x (.ppsPulse 2) (s 0)).ppsEnd =
       secUnits + (clamp (bits ((s 0).cfg 0x09 0x28) 23 0) 1 9000000 : Nat) * (100 * nsUnits)) ∧
    (let s (del ofs : Word) : State := ((tod2 fun x => { x with valid := true, armed := true }).setDir 0x09 0x9C8
       (0x01000005 + del)).setDir 0x09 0x9B8 (0x10000 + ofs)
     (after (.leap 2) (s 0 37)).utcOfs 2 = 38 ∧ (after (.leap 2) (s 0x02000000 37)).utcOfs 2 = 36 ∧
     (after (.leap 2) (s 0 0x7FFE)).utcOfs 2 = 32767 ∧ (x (.leap 2) (s 0 37)).inLeap = true ∧
     bit ((after (.leap 2) (s 0 37)).dir 0x09 0x9C8) 24 = false ∧ (x (.leap 2) (s 0 37)).armed = false) ∧
    (let s := (tod2 fun x => { x with valid := true }).setDir 0x09 0x99C 9
     let s := { s with time := { s.time with trgs := tput (fun _ => TrgRead.zero) s.time.trgs 7 { TrgRead.zero with cfg := 9 } } }
     bits (s.trgRead 7).cfg 3 2 = 2 ∧ (after (.trgFired 7) s).time.fire = [(7, false)]) ∧
    (let s := live.setSys fun y => { y with timed := some { dom := 0, utc := false, sec := 0, ns := 0 } }
     (after .timedSwapDue s).sys.swapPend = true) := by decide +kernel

/-- UART 0 in a format, taken by time domain 2. -/
def uart (fmt : Word) : State :=
  put (put ((tod2 fun x => { x with pulses := [{ t := 3, label := none }] }).setDir 0x09 0x9B8 0x10025) 0x09 0x20 4)
    0x09 0x40 fmt

/-- A ZDA message for 2016-12-31 23:59:59, and a Lanyn frame for the TAI second 1,483,228,836 with UTC offset 36. -/
def zda : List Byte :=
  [36, 71, 80, 90, 68, 65, 44, 50, 51, 53, 57, 53, 57, 44, 51, 49, 44, 49, 50, 44, 50, 48, 49, 54, 44, 48, 48, 44, 48,
   48, 42, 52, 68, 13, 10]
def lanyn : List Byte := [165, 76, 1, 3, 0, 0, 88, 104, 70, 164, 0, 36, 0, 0, 33, 43]

theorem test_uart :
    (uart 0).uartDoms 0 = [2] ∧ zdaSeconds (zda.map BitVec.toNat) = some 1483228799 ∧
    binaryFrame (lanyn.map BitVec.toNat) = some (3, 1483228836, 36) ∧
    ((after (.uartMessage 0 zda 10001 10001) (uart 0)).tdom 2).nextLabel = some 1483228836 ∧
    ((after (.uartMessage 0 lanyn 10001 10001) (uart 0x10)).tdom 2).nextLabel = some 1483228836 ∧
    ((after (.uartMessage 0 lanyn 10001 10001) (uart 0x30)).tdom 2).pulses = [{ t := 3, label := some 1483228836 }] ∧
    ((after (.uartMessage 0 zda 10001 10001) (uart 0x20)).tdom 2).pulses = [{ t := 3, label := some 1483228836 }] ∧
    (after (.uartMessage 0 lanyn 10001 10001) (uart 0x10)).uartRx 0 = 0x01030024 ∧
    (let n : List Byte := [165, 76, 1, 2, 0, 0, 88, 104, 70, 164, 0, 36, 0, 0, 249, 98]
     let t := after (.uartMessage 0 n 10001 10001) (uart 0x10)
     binaryFrame (n.map BitVec.toNat) = some (2, 1483228836, 36) ∧ t.uartRx 0 = 0x01020024 ∧
     (t.tdom 2).nextLabel = none) ∧
    ((after (.uartMessage 0 zda 10000 10001) (uart 0)).tdom 2).nextLabel = none ∧
    ((after (.uartMessage 0 lanyn 20000 10000) (uart 0x10)).tdom 2).nextLabel = none ∧
    ((after (.uartMessage 0 lanyn 20000 20000) (uart 0)).tdom 2).nextLabel = none ∧
    bit ((after (.uartMessage 0 zda 20000 20000) live).uartRx 0) 24 = false := by decide +kernel

/-- Link 1 of time domain 2 in a state, the boundary at T. -/
def link1 (st : LState) (f : Link → Link := id) : State :=
  put (((tod2 fun x => { x with t := 1000000 }).setLink 1 fun l => f { l with
    state := st, idled := true, dom := 2 }).setOut 33 fun o => { o with state := .run }) 0x0A 4 5

theorem test_ticks : let l (s : State) : Link := (after (.tick 1) s).link 1
    ((link1 .idle).due 1).n = 1 ∧ ((link1 .idle).due 1).old = false ∧ bit ((link1 .idle).cfg 0x0A 4) 0 = true ∧
    (l (link1 .idle)).state = .sending ∧ (l (link1 .idle)).tick = 1 ∧ (l (link1 .idle)).frame.length = 38 ∧
    (l (link1 .sending)).frame = (l (link1 .idle)).frame ∧
    (l (link1 .sending fun x => { x with withhold := true })).frame = [] ∧
    (l (link1 .sending fun x => { x with withhold := true })).tick = 1 ∧
    (let d (n : Nat) : State := link1 .dnu fun x => { x with dnuLeft := n, content := { x.content with dstate := 7 } }
     (l (d 2)).state = .dnu ∧ (l (d 2)).dnuLeft = 1 ∧ (l (d 1)).state = .safeIdle ∧ (l (d 1)).frame.length = 38) := by
  decide +kernel
/-- The book store in a state, the board in a state, with 512 bytes expected. -/
def book (b : BookState) (st : BState := .running) (f : Board → Board := id) : State :=
  arg (live.setBoard fun x => f { x with bookState := b, state := st, expect := 512 }) 0x01 512

theorem test_schedCommands : let a (c : Instr) (s : State) : Board := (after c s).schedApply.board
    Open (book .empty) 0x01 ∧ Done (.loadHost .control) (book .empty) 0x01 1 ∧
    (after (.loadHost .control) (book .refused)).board.bookState = .loading ∧
    (let s := arg ((book .installed).setSys fun x => { x with flashSize := 13 }) 0x01 4096
     s.flashBytes = 8192 ∧ Done (.loadFlash .control) s 0x01 2 ∧ (after (.loadFlash .control) s).board.fromFlash = true) ∧
    Done (.schedVerify .control) (book .loaded) 0x01 3 ∧
    (after (.schedVerify .control) (book .loaded)).board.bookState = .verifying ∧
    (let s := book .verified .running fun b => { b with warmOk := true }
     s.activateRole = false ∧ Takes (.activateWarm .control) s 0x01 4 512 ∧
     (a (.activateWarm .control) s).state = .activating ∧ (a (.activateWarm .control) s).actLeft = 16 ∧
     (a (.activateWarm .control) s).actWarm = true) ∧
    (let s := book .verified .noBook
     Takes (.activateCold .control) s 0x01 4 513 ∧ (a (.activateCold .control) s).state = .activating ∧
     (a (.activateCold .control) s).actWarm = false) ∧
    (book .verified .running).allInit = true ∧ Takes (.activateCold .control) (book .verified) 0x01 4 513 ∧
    Done (.schedClear .control) (book .loading) 0x01 5 ∧
    (after (.schedClear .control) (book .loading)).board.bookState = .empty ∧
    (let s := book .loaded .running fun b => { b with v3Forced := true }
     Done (.resume .control) s 0x01 6 ∧ (after (.resume .control) s).board.v3Forced = false) := by
  unfold Open Ready Idle Takes Done; decide +kernel

theorem test_loaderEvents :
    (let s (n : Nat) : State := book .loading .running fun b => { b with loadLen := n }
     let t (n : Nat) : Board := (after (.bookData .control 77) (s n)).board
     (t 504).bookState = .loading ∧ (t 504).loadLen = 508 ∧ (t 508).bookState = .loaded ∧
     tget (fun _ => 0) (t 508).store 127 = 77) ∧
    (let s := book .loading .running fun b => { b with fromFlash := true }
     let t (l : List Word) (ok : Bool) : Board := (after (.flashLoadDone l ok) s).board
     s.boot.bookTry = 0 ∧ (t [] false).verifyCode = 15 ∧ (t [0, 0, 1572865] true).verifyCode = 2 ∧
     (t [0, 0, 1572865] true).verifyOfs = 8 ∧ (t [0, 0, 12] true).bookState = .loaded ∧
     (t [0, 0, 12] true).loadLen = 12 ∧ (t [0, 0, 16] true).verifyCode = 15) ∧
    (let s (n : Nat) (b : BookState) : State :=
       (book b .noBook fun x => { x with fromFlash := true }).setBoot fun x => { x with bookTry := n }
     (after (.flashLoadDone [0, 0, 12] true) (s 1 .loading)).board.bookState = .verifying ∧
     (after (.flashLoadDone [] false) (s 1 .loading)).boot.bookTry = 2 ∧
     (after (.flashLoadDone [] false) (s 2 .loading)).boot.book = 3 ∧
     (after .verifyDone (s 2 .verifying)).boot.bookVerify = 1 ∧
     (after .verifyDone (s 1 .verifying)).board.bookState = .loading) ∧
    ((book .verifying).verifyBook [] 0 = some (1, 0) ∧
     (after .verifyDone (book .verifying)).board.bookState = .refused ∧
     (after .verifyDone (book .verifying)).board.verifyCode = 1) ∧
    (let s := book .activating .activating fun b => { b with actLeft := 1 }
     (after .activationComplete s).board.state = .running ∧
     (after .activationComplete s).board.bookState = .installed) := by decide +kernel

/-- A book without pairs, with variants V0 and V3, a spare table and a layout table, by word index. -/
def smallBook : Table Nat :=
  [(0, 0x4F504E42), (1, 0x01000001), (2, 560), (3, 0x3240B1B1), (9, 0x10009), (11, 2), (12, 0x100), (53, 15), (64, 4),
   (65, 0x120), (66, 120), (68, 5), (69, 0x1A0), (70, 8), (108, 0x53494742)]

/-- The loader's checks pass it where the signature check, a free function of the configuration, passes. -/
theorem test_verifyBook (h : ∀ a b c, Config.signatureOk a b c = true) : live.verifyBook smallBook 560 = none := by
  have c : live.checkSignature smallBook 432 = 0 := by
    unfold State.checkSignature
    simp only [h]
    decide +kernel
  have e : live.checkSigned smallBook = none := by
    unfold State.checkSigned
    simp only [show imgWord smallBook 8 - 128 = 432 from by decide, c]
    decide +kernel
  unfold State.verifyBook
  rw [e]
  decide +kernel

/-- Cell 2 in a state as logical cell 4; cell 30 is a spare that the pair of cell 4 permits. -/
def cells (st : CState) : State :=
  arg (((live.setBoard fun b => { b with run := { b.run with spare := List.replicate 15 (2 ^ 30, 0, 0) } }).setCell 2
    fun c => { c with state := st, logical := 4, imem := [(0, 1)] }).setCell 30 fun c => { c with state := .spare }) 0xC8 2

theorem test_cellCommands :
    Open (cells .scheduled) 0xC8 ∧ (cells .scheduled).spareFor 4 = some 30 ∧ (cells .scheduled).board.repl = [] ∧
    Takes (.spareIn .control) (cells .scheduled) 0xC8 1 2 ∧
    (after (.spareIn .control) (cells .scheduled)).cellApply.board.repl =
      [{ spare := 30, logical := 4, copying := false, leaving := some (2, 0) }] ∧
    Takes (.cellTest .control) (cells .fenced) 0xC8 2 2 ∧
    ((after (.cellTest .control) (cells .fenced)).cellApply.cell 2).state = .testing ∧
    ((after (.cellTest .control) (cells .spare)).cellApply.cell 2).testLeft = 64 ∧
    Takes (.cellTest .control) (cells .scheduled) 0xC8 2 2 ∧
    (after (.cellTest .control) (cells .scheduled)).cellApply.board.repl =
      [{ spare := 30, logical := 4, copying := false, leaving := some (2, 1) }] := by
  unfold Open Ready Idle Takes; decide +kernel

theorem test_cellEvents :
    ((after (.cellTestDone 2 true) (cells .testing)).cell 2).state = .spare ∧
    ((after (.cellTestDone 2 true) (cells .testing)).cell 2).imem = [] ∧
    ((after (.cellTestDone 2 false) (cells .testing)).cell 2).state = .fenced ∧
    (after (.storeScrub .uncorrectable) (book .installed)).board.bookState = .empty ∧
    (after (.storeScrub .uncorrectable) (book .verified)).board.bookState = .refused ∧
    (after (.storeScrub .uncorrectable) (book .loading)).board.verifyCode = 15 ∧
    (after (.storeScrub .corrected) (book .installed .running fun b => { b with scrub := 5 })).board.scrub = 0 := by
  decide +kernel

/-- The pair unit. -/
def pair (f : PairUnit → PairUnit) : State := live.setPair f
def uid1 : List Word := [5, 6]

theorem test_pairCommands : let a (c : Instr) (s : State) : PairUnit := (after c s).pairApply.pair
    (let s := arg ((live.setDir 0x07 0x914 5).setDir 0x07 0x918 6) 0x07 0x90001
     let p := s.setPage 0x07 fun g => { g with
       prop := some { master := 1, code := 1, arg := 0x90001, data := uid1, age := 0 } }
     s.bindRegs = uid1 ∧ uidOf uid1 ≠ 0 ∧ uidOf uid1 ≠ s.sec.ownUid ∧ Open s 0x07 ∧
     MayPropose s 0x07 .control 1 0x90001 ∧ Done (.bind .control) s 0x07 1 ∧
     (((after (.bind .control) s).page 0x07).prop.map fun q => q.data) = some uid1 ∧
     Takes (.bind .control) p 0x07 1 0x90001 uid1 ∧ (a (.bind .control) p).bound = true ∧
     (a (.bind .control) p).boundUid = uidOf uid1 ∧ (a (.bind .control) p).pref = true) ∧
    (let s := arg (pair fun p => { p with bound := true }) 0x07 0x90000
     let p := s.setPage 0x07 fun g => { g with
       prop := some { master := 1, code := 2, arg := 0x90000, data := [], age := 0 } }
     MayPropose s 0x07 .control 2 0x90000 ∧ Done (.unbind .control) s 0x07 2 ∧
     Takes (.unbind .control) p 0x07 2 0x90000 ∧ (a (.unbind .control) p).bound = false) ∧
    (let s := pair fun p => { p with
       role := .standby, partnerRole := 1, aligned := true, cfgMatch := true, verOk := true, bound := true }
     Takes (.castle .control) s 0x07 3 0 ∧ (a (.castle .control) s).role = .active ∧
     (a (.castle .control) s).takenLeft = 64) ∧
    (let s := pair fun p => { p with
       role := .active, partnerRole := 2, partnerFlags := 64, cfgMatch := true, verOk := true, bound := true }
     Takes (.castle .control) s 0x07 3 0 ∧ (a (.castle .control) s).castleReq = true ∧
     (a (.castle .control) s).reqLeft = 64) := by
  unfold Open Ready Idle Takes Done MayPropose; decide +kernel

/-- A record from partner 5 + 6 × 2^32, without items, with its CRC-32; `k` damages it. -/
def record (k : Nat) (ws : List Nat := [0x524D0000, 7, 0, 0, 0, 44, 0, 0, 5, 6]) : List Byte :=
  let b := ws.flatMap (leBytes 4)
  (b ++ leBytes 4 (crc32 b + k)).map fun x => BitVec.ofNat 8 x

theorem test_records : let s := pair fun p => { p with bound := true, boundUid := 5 + 6 * 2 ^ 32, silent := 9 }
    s.relnanMajor = 0 ∧ s.relnanMinor = 0 ∧ (parseRecord (recWords (((record 0).map BitVec.toNat).take 40))).isSome = true ∧
    ((after (.recordArrival (record 0)) s).pair.inbox.map fun r => (r.rseq, r.uid)) = some (7, 5 + 6 * 2 ^ 32) ∧
    (after (.recordArrival (record 0)) s).pair.silent = 0 ∧ (after (.recordArrival (record 1)) s).pair.inbox = none ∧
    (let f := s.setPair fun p => { p with fenced := true }
     after (.recordArrival (record 0)) f = f) ∧
    (after (.recordArrival (record 0)) (s.setPair fun p => { p with boundUid := 5 })).pair.silent = 9 ∧
    (let v := after (.recordArrival (record 0 [0x524D0100, 7, 0, 0, 0, 44, 0, 0, 5, 6])) s
     v.pair.verOk = false ∧ v.pair.silent = 0 ∧ v.pair.inbox = none) ∧
    (let b := record 0 [0x524D0000, 7, 0, 0, 0, 48, 0, 0, 5, 6, 0xFFFFFFFF]
     parseRecord (recWords ((b.map BitVec.toNat).take 44)) = none ∧ (after (.recordArrival b) s).pair.silent = 0) ∧
    (let s (k : Nat) (b : Bool) : State := pair fun p => { p with
       bound := true, role := .syncing, syncStep := k, linkUp := true, aligned := b }
     (s 1 false).syncReady false = true ∧ (after .syncStep (s 1 false)).pair.syncStep = 2 ∧
     (s 6 true).syncReady false = true ∧ (after .syncStep (s 6 true)).pair.role = .standby) := by decide +kernel

theorem test_pairEvents :
    (after (.orderedSet 0x1000005 9) live).pair.partnerCount = 5 ∧ (after .blockLock live).pair.linkUp = true ∧
    (after .castlingLinkDown (pair fun p => { p with linkUp := true })).pair.linkUp = false ∧
    (after .takenEnd (pair fun p => { p with takenLeft := 3 })).pair.takenLeft = 0 ∧
    (let s (n : Nat) (b : Bool) : State := put (pair fun p => { p with
       bound := true, lost := false, role := if n = 0 then .syncing else if n = 1 then .standby else .active }) 0x07 0
         (if b then 0x40000 else 0)
     (after .partnerLost (s 0 false)).pair.role = .solo ∧ (after .partnerLost (s 1 true)).pair.role = .active ∧
     (after .partnerLost (s 1 true)).pair.lastCause = 4 ∧ (after .partnerLost (s 1 false)).pair.role = .standby ∧
     (after .partnerLost (s 1 false)).pair.lost = true ∧ (after .partnerLost (s 2 true)).pair.role = .active) ∧
    (after .castleFail (pair fun p => { p with castleReq := true })).pair.castleReq = false ∧
    (let s := pair fun p => { p with role := .standby }
     s.alignedDoms.any (s.errAbove 5) = false ∧ (after .aligned s).pair.aligned = true) ∧
    (let r : Record :=
       { major := 0, minor := 0, rseq := 0, coarse := 0, flags := 0, digest := 0, uid := 0, doms := [(1, { words := [0x30] })]
         qual := none, pclk := none, svc := none, grants := [] }
     let s (e : Int) : State := (pair fun p => { p with role := .standby, aligned := true, applied := some r }).setDom 1
       fun x => { x with state := .locked, err := e }
     (s 4194305).alignedDoms = [1] ∧ (s 4194305).alignedDoms.any ((s 4194305).errAbove 50) = true ∧
     (after .alignLoss (s 4194305)).pair.aligned = false ∧ (after .alignLoss (s 4194304)).pair.aligned = true) ∧
    (let s := put (pair fun p => { p with
       role := .active, verOk := true, castleReq := true, castleBusy := true, waiting := 2 }) 0x07 0 0x70000
     s.autoEn 2 = true ∧
     (after .castleFail s).pair.castleReq = false ∧
     (after .castleFail (s.setDom 3 fun x => { x with safe := true })).pair.castleReq = true) ∧
    (let s := pair fun p => { p with role := .active, linkUp := true, aligned := true }
     (after .pairPclkLoss s).pair.pclkSilent = 2 ∧ (after .pairPclkLoss s).pair.aligned = false) ∧
    ((after .pairAlignRange (pair fun p => { p with role := .standby, wasAligned := true })).pair.rangeBad = 64) ∧
    (let s := (pair fun p => { p with bound := true }).setBoot fun b => { b with pairWait := some 1, flags := 0x10000 }
     s.defers = true ∧ (after .pairWait s).boot.pairWait = some 0) := by decide +kernel
/-- Client 1 of port 1 enabled with profile G.8275.1 for domain 24, its controller running, in a state. -/
def client1 (st : PtpState) (f : Client → Client := id) : State :=
  (put port1 0x0B 0x70 0x1843).setClient 1 fun c => f { c with state := st }

def event9 : PtpEvent := { seq := 9, origin := none, correction := 4, at_ := 65536 }

theorem test_ptpClient : let c (i : Instr) (s : State) : Client := (after i s).client 1
    (client1 .slave).clientReceives 1 = true ∧ (client1 .slave).serviceOn = true ∧ (client1 .slave).clientActive 1 = true ∧
    (c (.sync 1 event9) (client1 .slave)).syncSeq = 9 ∧ (c (.sync 1 event9) (client1 .slave)).t1 = none ∧
    (let s := client1 .uncalibrated fun x => { x with syncSeq := 9, cfSync := 1 }
     (c (.followUp 1 9 70 2) s).t1 = some 70 ∧ (c (.followUp 1 9 70 2) s).cfSync = 3) ∧
    (let t := after (.delayReqTx 1 65536) (client1 .slave fun x => { x with reqSeq := 65535 })
     (t.client 1).reqSeq = 0 ∧ (t.port 1).lastTx = .delayReq 65535) ∧
    (let s := client1 .slave fun x => { x with req := some (9, some 100, 150, 10, 200) }
     (c (.delayResp 1 9 260 4) s).done = [(-8 - s.clientAsym 1, 96)] ∧ (c (.delayResp 1 9 260 4) s).req = none) ∧
    (let s := client1 .uncalibrated fun x => { x with done := [(5, 9), (7, 3)] }
     (c (.clientSample 1) s).state = .slave ∧ (c (.clientSample 1) s).done = [] ∧
     ((after (.clientSample 1) s).qual 37).samples.length = 1) := by decide +kernel

def master5 : Announce :=
  { entry := 1, priority1 := 1, priority2 := 1, clockClass := 6, accuracy := 0x21, variance := 9, identity := 7
    stepsRemoved := 0, utcOfs := 37, utcValid := true, leap61 := false, leap59 := false, timeTraceable := true
    freqTraceable := true, ptpTimescale := true }

theorem test_announce :
    (client1 .listening).portUp ((client1 .listening).clientPort 1) = true ∧ (client1 .listening).ctrlRuns = true ∧
    ((after (.announce 1 master5) (client1 .listening)).client 1).parent = some master5 ∧
    ((after (.announce 1 master5) (client1 .listening)).client 1).state = .uncalibrated ∧
    (let t := after (.announceTimeout 1) (client1 .slave fun c => { c with parent := some master5 })
     (t.client 1).parent = none ∧ (t.client 1).state = .listening ∧ (t.qual 37).actFail = true) := by decide +kernel

/-- Master 1 of a profile, for time domain 2, and a granted context 0. -/
def master1 (prof : Word) (g : Option Grant := none) : State :=
  (((put port1 0x0B 0x54 (0x1821 + 2 * prof + 0x1400 * (if prof = 0 then 0 else 1))).setDom 2 fun x => { x with
    state := .locked }).setTdom 2 fun x => { x with valid := true }).setGrant 0 g

def grant0 : Grant :=
  { port := 1, ipv6 := false, addr := List.replicate 16 0, sync := 0, announce := 0, dresp := 0, mask := 7, secs := 60
    seqSync := 65535, seqAnn := 5, changed := none }

theorem test_ptpMaster : let p (c : Instr) (s : State) : Port := (after c s).port 1
    (master1 0).masterTimes 1 = true ∧ (master1 0).granted 1 0 none = true ∧
    (match (p (.syncTx 1 none 9) (master1 0)).lastTx with | .sync n _ => n == 0 | _ => false) = true ∧
    (match (p (.announceTx 1 none) (master1 0)).lastTx with | .announce n _ => n == 0 | _ => false) = true ∧
    (match (p (.delayReq 1 none event9) (master1 0)).lastTx with | .delayResp n _ c => n == 9 && c == 4 | _ => false) = true ∧
    (let s := master1 1 (some grant0)
     s.granted 1 0 (some 0) = true ∧ s.masterTimes 1 = true ∧
     (match (p (.syncTx 1 (some 0) 9) s).lastTx with | .sync n _ => n == 65535 | _ => false) = true ∧
     ((after (.syncTx 1 (some 0) 9) s).grant 0).map (·.seqSync) = some 0) ∧
    ((after (.grantExpiry 0) (master1 1 (some grant0))).grant 0).map (·.secs) = some 0 := by decide +kernel

def ask (cancel : Bool) (log : Int) : Signal :=
  { ipv6 := false, addr := List.replicate 16 0, cancel, kind := 0, log, duration := 2000 }

theorem test_signaling :
    (master1 1).masterActive 1 = true ∧ bits ((master1 1).mcfg 1) 2 1 = 1 ∧
    ((after (.signaling 1 (ask true 0)) (master1 1 (some grant0))).grant 0).map (·.mask) = some 6 ∧
    (master1 1).ctxOf 1 (ask false 0) = none ∧
    ((after (.signaling 1 (ask false (-7))) (master1 1)).grant 0).map (fun g => (g.sync, g.mask)) = some (-7, 1) ∧
    ((after (.signaling 1 (ask false (-7))) (master1 1)).port 1).lastTx = .grant 0 (-7) (master1 1).grantMax ∧
    ((after (.signaling 1 (ask false (-8))) (master1 1)).port 1).lastTx = .grant 0 (-8) 0 ∧
    ((after (.signaling 1 (ask false (-8))) (master1 1)).grant 0).isNone = true ∧
    ((after (.signaling 1 (ask false 0)) (master1 1 (some grant0))).grant 0).map (·.mask) = some 7 := by decide +kernel

/-- Contexts 0 to 2,047 in use on port 0. -/
def full : State := (master1 1).setSvc fun v => { v with
  grants := (List.range' 0 2048).map fun n => (n, some { grant0 with port := 0 }) }

theorem full_grant {α : Type} (d : Nat → α) (v : α) (n : Nat) : ∀ m k, m ≤ k → k < m + n →
    tget d ((List.range' m n).map fun i => (i, v)) k = v := by
  induction n with
  | zero => intro m k _ _; omega
  | succ n ih =>
    intro m k h1 h2
    simp only [List.range'_succ, List.map_cons, tget]
    split
    · rfl
    · exact ih (m + 1) k (by omega) (by omega)

theorem test_signalingFull : full.freeCtx = none ∧ full.ctxOf 1 (ask false 0) = none := by
  refine ⟨?_, ?_⟩
  · refine List.find?_eq_none.2 fun c hc => ?_
    have e : full.grant c = some { grant0 with port := 0 } :=
      full_grant _ _ 2048 0 c (by omega) (by simpa using List.mem_range.1 hc)
    simp [e]
  · have e : (full.svc.grants.find? fun e => match e.2 with
        | some g => g.port == 1 && g.ipv6 == (ask false 0).ipv6 && g.addr == (ask false 0).addr.map BitVec.toNat
        | none => false) = none := by
      refine List.find?_eq_none.2 fun x hx => ?_
      obtain ⟨n, -, rfl⟩ := List.mem_map.1 hx
      simp
    exact congrArg (Option.map _) e

/-- Port 1 answers NTP and NTS, with room for `cap` units, rates limited or not. -/
def ntp (cap : Nat) (on : Word) (rate : Word) : State :=
  (put (put port1 0x0B 0 (0x200 + on)) 0x0B 0x10 rate).setSvc fun x => { x with cap }

def request : NtpReq :=
  { ipv6 := false, src := [1, 2, 3, 4], len := 48, version := 4, mode := 3, poll := 6, transmit := 77, extOk := true
    onTime := true, at_ := 0 }
def fields : NtsFields :=
  { uid := [9], cookie := List.replicate 104 0, placeholders := 7, covered := [], nonce := [], sealed := [] }

theorem test_ntp :
    (ntp 1 1 0).ntpReaches 1 = true ∧ (ntp 1 1 0).standby = false ∧ (ntp 1 1 0).ntpMalformed request = false ∧
    bit ((ntp 1 1 0).scfg 0x10) 0 = false ∧ (ntp 1 1 0).capNow = 1 ∧
    (after (.ntpRequest 1 request) (ntp 1 1 0)).svc.launch.map (fun r => (r.port, r.nts)) = [(1, false)] ∧
    (after (.ntpRequest 1 request) (ntp 1 1 0)).svc.used = 1 ∧
    (after (.ntpRequest 1 request) (ntp 0 1 0)).svc.launch = [] ∧
    (after (.ntpRequest 1 request) (ntp 0 1 0)).svc.capHit = true ∧
    (after (.ntpRequest 1 { request with onTime := false }) (ntp 1 1 0)).svc.launch = [] ∧
    (ntp 1 1 0).ntpMalformed { request with len := 7 } = true ∧ (after .launch (ntp 1 1 0)).svc = (ntp 1 1 0).svc ∧
    ((after (.ntsRequest 1 request fields) (ntp 3 3 0)).port 1).lastTx = .ntsNak [9] ∧
    ((after (.ntsRequest 1 request fields) (ntp 3 1 0)).port 1).lastTx = .ntsNak [9] ∧
    (let r : Response := { port := 1, launch := 8, frame := .ntsNak [9], nts := false }
     let s := (ntp 1 1 0).setSvc fun x => { x with launch := [{ r with launch := 9 }, r] }
     firstLaunch s.svc.launch = some r ∧ ((after .launch s).port 1).lastTx = .ntsNak [9] ∧
     (after .launch s).svc.launch = [{ r with launch := 9 }]) ∧
    (let s := (ntp 1 1 0).setSvc fun x => { x with buckets := [(4, 1), (7, 3)], decay := 9 }
     (after .bucketDecay s).svc.buckets = [(7, 2)] ∧ (after .bucketDecay s).svc.decay = 0) := by decide +kernel

/-- A source above its rate, whatever bucket the free hash gives it. -/
theorem test_rate (b : Nat) : ¬ ((ntp 1 1 3).setBucket b 255).bucket b < (ntp 1 1 3).rlBurst := by
  have e : ((ntp 1 1 3).setBucket b 255).bucket b = 255 := by
    simp only [State.setBucket, State.bucket, State.setSvc]; rw [tget_tput]; simp
  rw [e]; decide +kernel

/-- Port 1 with host delivery and an address that it answers. -/
def hostPort : State := put (put (put port1 0x0C 0x80 0x151) 0x0C 0x9C 0x101) 0x0C 0xA0 0x0A000001

theorem test_ports :
    (let f : RxFrame := { fcsOk := true, bytes := List.replicate 64 255 }
     let bs := f.bytes.map BitVec.toNat
     hostPort.untag 1 bs = some bs ∧ hostPort.macOk 1 bs = true ∧ hostPort.consumes 1 bs = false ∧
     bit (hostPort.pcfg 1 0) 8 = true ∧ (after (.frameReceived 1 f) hostPort).svc.rx = [(1, bs)] ∧
     (after (.frameReceived 1 { f with fcsOk := false }) hostPort).svc.rx = []) ∧
    (hostPort.answersFor 1 false [10, 0, 0, 1] = true ∧
     ((after (.arpRequest 1 false [10, 0, 0, 1]) hostPort).port 1).lastTx = .arp [10, 0, 0, 1] ∧
     hostPort.serving = true ∧ ((after .gratuitousArp hostPort).port 1).lastTx = .gratuitous [10, 0, 0, 1]) ∧
    (((after (.esmcPdu 1 4 none) port1).qual 33).qlRx = 4 ∧ ((after (.esmcPdu 1 4 (some 0x20)) port1).qual 33).qlRx = 32 ∧
     ((after (.esmcPdu 1 4 (some 0x20)) port1).qual 33).qlEnh = true) ∧
    (let s := put port1 0x0C 0x98 5
     s.esmcOn 1 = true ∧
     (match ((after (.esmcInfoPdu 1) s).port 1).lastTx with | .esmc n false _ => n == s.ssmOf 1 | _ => false) = true) ∧
    (let s := (hostPort.setPort 1 fun x => { x with txHeld := true }).setSyn 5 fun y => { y with state := .locked }
     s.txPlanBad 1 = false ∧ ((after (.txHeldReturn 1) s).port 1).txHeld = false) := by decide +kernel

theorem test_hostQueues :
    (after (.hqRxData .control) live).sys.reply = [0] ∧
    (let s := live.setSvc fun x => { x with rx := [(1, [1, 2, 3, 4, 5])], rxWord := 1 }
     (after (.hqRxData .control) s).sys.reply = [0x05000000] ∧ (after (.hqRxData .control) s).svc.rxWord = 2 ∧
     (after (.hqRxPop .control 1) s).svc.rx = []) ∧
    (after (.hqTxCtrl .control 0x103C) live).svc.tx = some (60, 1, [], false) ∧
    (after (.hqTxCtrl .control 59) live).svc.tx = none ∧ (after (.hqTxCtrl .control 1518) live).svc.tx.isSome = true ∧
    (after (.hqTxCtrl .control 1519) live).svc.tx = none ∧ (after (.hqTxData .control 9) live).svc.tx = none ∧
    (let s (k : Nat) (lost : Bool) : State := live.setSvc fun x => { x with tx := some (60, 1, List.replicate k 0, lost) }
     ((after (.hqTxData .control 0x01020304) (s 52 false)).svc.tx.map fun x => x.2.2.1.drop 52) = some [1, 2, 3, 4] ∧
     (after (.hqTxData .control 9) (s 56 false)).svc.tx = none ∧
     (after (.hqTxData .control 9) (s 56 false)).svc.txQueue.length = 1 ∧
     (after (.hqTxData .control 9) (s 56 true)).svc.txQueue = []) := by decide +kernel

theorem test_serviceCommands : let a (c : Instr) (s : State) : Service := (after c s).tsvcApply.svc
    (let s := arg (port1.setDir 0x0B 0x914 7) 0x0B 2
     Open s 0x0B ∧ s.svc.keyCur ≠ 2 ∧ Takes (.keyInstall .control) s 0x0B 1 2 ∧
     (((after (.keyInstall .control) s).tsvcApply).keySlot 2).valid = true) ∧
    (let s := arg (port1.setSvc fun x => { x with keys := [(2, { valid := true, id := 7, key := [] })] }) 0x0B 2
     (s.keySlot 2).valid = true ∧ Takes (.keyCurrent .control) s 0x0B 2 2 ∧ (a (.keyCurrent .control) s).keyCur = 2 ∧
     Takes (.keyErase .control) s 0x0B 3 2 ∧ (a (.keyErase .control) s).keys = []) ∧
    (let s := arg port1 0x0B 4096
     Takes (.fwUpdate .control) s 0x0B 4 4096 ∧ (a (.fwUpdate .control) s).fwBusy = true ∧
     (a (.fwUpdate .control) s).fwAddr = 4096) ∧
    (let s := port1.setSvc fun x => { x with buckets := [(4, 1)] }
     Takes (.rlClear .control) s 0x0B 5 0 ∧ (a (.rlClear .control) s).buckets = []) ∧
    (let s := arg (port1.setPort 1 fun x => { x with svcStop := true }) 0x0C 1
     Open s 0x0C ∧ s.candInUse 33 = false ∧ Takes (.portRestart .control) s 0x0C 1 1 ∧
     (((after (.portRestart .control) s).portApply).port 1).linkUp = false ∧
     (((after (.portRestart .control) s).portApply).port 1).svcStop = false) := by
  unfold Open Ready Idle Takes; decide +kernel

theorem test_serviceEvents :
    (let s := port1.setSvc fun x => { x with fwBusy := true }
     s.serviceOn = true ∧ s.fwDefect (tableFrom 0 []) 0 = 1 ∧ (after (.fwVerifyDone [] true) s).svc.fwResult = 2 ∧
     (after (.fwVerifyDone [] true) s).svc.ctrl = .run ∧ (after (.fwVerifyDone [] false) s).svc.fwBusy = false) ∧
    (let s (n : Nat) : State := port1.setBoot fun b => { b with fwTry := n }
     (after (.fwVerifyDone [] true) (s 1)).boot.fwTry = 2 ∧ (after (.fwVerifyDone [] false) (s 2)).boot.fw = 3 ∧
     (after (.fwVerifyDone [] true) (s 2)).svc.ctrl = .failed ∧ (after (.fwVerifyDone [] true) (s 0)).svc = port1.svc) ∧
    (let s (l : List Nat) : State := port1.setSvc fun x => { x with restarts := l }
     (after .tsvcCtrlWdog (s [1, 2])).svc.ctrl = .restart ∧ (after .tsvcCtrlWdog (s [1, 2, 3])).svc.ctrl = .failed) ∧
    (let s := port1.setSvc fun x => { x with ctrl := .restart, restartLeft := 9 }
     (after .ctrlRestartDone s).svc.ctrl = .run ∧ (after .ctrlRestartDone s).svc.restartLeft = 0) := by decide +kernel

/-- A firmware image of 64 bytes of code, by word index. -/
def firmware : Table Nat := [(0, 0x46544657), (1, 0x00400001), (2, 256), (3, 0x3240B1B1), (6, 64), (32, 0x53494742)]

/-- Its checks pass where the signature check, a free function of the configuration, passes. -/
theorem test_firmware (h : ∀ a b c, Config.signatureOk a b c = true) : live.fwDefect firmware 256 = 0 := by
  have c : live.checkSignature firmware 128 = 0 := by
    unfold State.checkSignature
    simp only [h]
    decide +kernel
  unfold State.fwDefect
  simp only [show imgWord firmware 8 - 128 = 128 from by decide, c]
  decide +kernel

/-- A cookie opens where AES-SIV, a free function of the configuration, opens it to a well-formed plaintext. -/
theorem test_cookie (h : ∀ k a b, Config.sivOpen k a b = some ([0, 15, 1] ++ List.replicate 65 0)) :
    (port1.setSvc fun x => { x with keys := [(2, { valid := true, id := 7, key := [] })] }).openCookie
      ([0, 0, 0, 7] ++ List.replicate 100 0) = some (List.replicate 32 0, List.replicate 32 0) := by
  unfold State.openCookie
  simp only [h]
  decide +kernel
/-- The state of chapter 13 with the supply at `mv`. -/
def supply (mv : Nat) (f : Budget → Budget := id) : State := (live.setVdd mv).setBudget f

def latch : BudgetEnv := { diodes := List.replicate 8 (2500, 2500), rails := List.replicate 10 750, pEst := 9000 }

theorem test_budget :
    live.roundsRun = true ∧ (after (.budgetLatch latch) live).budget.pEst = 9000 ∧
    (after (.budgetLatch latch) live).budget.pAvg = floorDiv 9000 (2 ^ live.energyShift : Nat) ∧
    (let s := (supply 750 fun b => { b with lt := 2, cool := 1, ls := 3, calm := 1, le := 1 })
     let t := after .budgetHoldExpiry s
     s.sagHi ≤ s.railNow 0 ∧ t.budget.lt = 1 ∧ t.budget.ls = 0 ∧ t.budget.next = 1) ∧
    (after .budgetHoldExpiry (live.setBoard fun b => { b with v3Forced := true })).budget.next = 3 ∧
    (after (.sag 739) live).budget.throttle = decide (live.cellClock 739 < mhz 800) ∧
    (after (.sag live.sagHi) live).budget.throttle = false ∧ (after (.sag (live.sagHi - 1)) live).budget.throttle = true ∧
    ((after (.thermTrip 7) live).temp 7).hot = 9 := by decide +kernel

theorem test_rails : let f (r : Fin 10) (mv : Nat) : BitVec 32 := ((after (.supplyFault r mv) live).page 0x02).fault
    live.fault.compat = false ∧ (690 ≤ live.sagLo - 1 ∧ live.sagLo ≤ 740) ∧
    f 0 689 = 2 ∧ f 0 690 = 1 ∧ (after (.supplyFault 0 690) live).budget.ls = 3 ∧ f 0 live.sagLo = 0 ∧
    f 1 739 = 4 ∧ f 1 740 = 0 ∧ f 3 1709 = 8 ∧ f 3 1710 = 0 ∧ f 4 1619 = 16 ∧ f 4 1620 = 0 ∧ f 2 849 = 32 ∧ f 2 850 = 0 ∧
    (after (.sag 599) live).boot.released = false ∧ (after (.sag 600) live).boot.released = true ∧
    (after (.supplyFault 3 1499) live).boot.cause = 2 ∧
    ((after (.supplyFault 2 849) live).port 3).svcStop = true ∧ live.bankMv 4 = 1800 ∧
    ((after (.supplyFault 9 1619) (live.setOut 39 fun o => { o with held := false })).out 39).held = true ∧
    ((after (.supplyFault 9 1620) (live.setOut 39 fun o => { o with held := false })).out 39).held = false := by
  decide +kernel

theorem test_dormant : let t := after (.dormant .control) live; let v := t.budgetApply
    Open live 0x02 ∧ live.pair.role = .solo ∧ live.budget.pstate = .run ∧ live.allInit = true ∧
    Takes (.dormant .control) live 0x02 1 0 ∧ v.budget.pstate = .dormant ∧ v.osc.running = false ∧ (v.chan 47).state = .off ∧
    Open v 0x02 ∧ Done (.wake .control) v 0x02 2 ∧ (after (.wake .control) v).boot.wake = true ∧
    (after (.wake .control) v).budget.pstate = .run := by
  unfold Open Ready Idle Takes Done; decide +kernel

/-- The guarded frame of R385's example: PAGE_LOCK of page 0x10, and a frame with its CRC-8. -/
def lockFrame : List Byte := [0x06, 0x00, 0x08, 0x10, 0x1C, 0x5C, 0x3E, 0x00, 0x03, 0x11]
def spi (l : List Nat) : List Byte := (l ++ [crc8 l]).map fun x => BitVec.ofNat 8 x

theorem test_spi :
    crcOk (lockFrame.map BitVec.toNat) = true ∧
    (let l := [2, 0, 1, 0x09, 0x0C, 0x01, 0, 0, 0, 5, 0, 0, 0, 6]
     let t := after (.spiWrite (spi l)) live
     crcOk ((spi l).map BitVec.toNat) = true ∧ (spi l).length = 15 ∧ t.arg 0x10 1 = 5 ∧ t.sys.spiApplied = true ∧
     t.sys.spiCount = 1) ∧
    (let t := after (.spiWrite (spi [2, 0, 1, 0x09, 0x0C, 0, 0, 0, 0, 5, 0])) live
     t.sys.spiApplied = false ∧ t.sys.spiLen = true ∧ t.sys.spiCrc = false) ∧
    (let t := after (.spiWrite [2, 0, 1, 0x09, 0x0C, 0, 0, 0, 0, 5, 0, 0]) live
     t.sys.spiApplied = false ∧ t.sys.spiCrc = true) ∧
    (let t := after (.spiRead (spi [3, 0, 0, 0, 0x40, 0])) live
     t.sys.reply = [0x3240B100] ∧ t.sys.miso.take 5 = [0x5A, 0x32, 0x40, 0xB1, 0x00] ∧ t.sys.miso.length = 7) ∧
    (after (.spiRead [3, 0, 0, 0, 0x40, 0, 1]) live).sys.miso.head? = some 0xC3 ∧
    (after (.spiStatus (spi [5])) live).sys.miso.length = 2 ∧ (after (.spiStatus [5]) live).sys.miso.length = 2 ∧
    (guardAddr (frameAddr (lockFrame.map BitVec.toNat))).isSome = true ∧
    (after (.gwrite (lockFrame.set 9 0)) live).sys.spiCrc = true ∧
    (after (.spiUnknownOpcode [9, 9]) live).sys.miso = [0, 0] ∧
    (after (.spiUnknownOpcode [9, 9]) live).counter 0x00 0xA08 = 1 := by decide +kernel

def readId : PcieReq := { offset := 0x40, writes := none, count := 1 }

theorem test_links :
    (let q := readId
     live.sys.perst = false ∧ (after (.pcieRequest q) live).sys.reply = [0x3240B100] ∧
     (after (.pcieRequest { q with offset := 0x10090C, writes := some [(7, 15)] }) live).arg 0x10 0 = 0) ∧
    (let q := { readId with offset := 0x1090C, writes := some [(7, 15)] }
     (after (.pcieRequest q) live).arg 0x10 0 = 7) ∧
    live.sys.pcieUp = false ∧ (after (.pcieLinkChange true) live).sys.pcieSpeed = 3 ∧
    (let s := live.setSys fun x => { x with cfgReady := false }
     (after (.pcieConfigRequest (.read 0)) s).sys.cfgReply = 0) ∧
    (let s := live.setSys fun x => { x with cfgReady := true }
     (after (.pcieConfigRequest (.read 0)) s).sys.reply = [0x32401F3D] ∧
     (after (.pcieConfigRequest (.msiEnable true)) s).sys.msiEnable = true) ∧
    (after (.perstN true) live).sys.perst = true ∧ live.tapAllowed .idcode = true ∧
    (after (.tapInstruction (.instruction .idcode)) live).sys.reply = [0x132409CB] ∧
    (let s := live.setSec fun x => { x with dbgSet := 2 }
     s.tapAllowed .extest = true ∧ s.scanFree = true ∧ (after (.tapInstruction (.instruction .extest)) s).sec.tap = .extest ∧
     (after (.tapInstruction (.read 0x40)) s).sys.reply = [0x3240B100]) ∧
    (let s := live.setSec fun x => { x with dbgSet := 1 }
     s.tapAllowed .scan = false ∧ (after (.tapInstruction (.instruction .scan)) s).sec.tap = .bypass) := by decide +kernel

/-- The configuration of page `p` locked. -/
def locked (p : Nat) : State := live.setPage p fun g => { g with lockCfg := true }

theorem test_registerWrites : let w (s : State) (p : Fin 256) (o : Fin 4096) (v : Word) : State := after (.registerWrite .control p o v) s
    let s := live.setPage 0x10 fun g => { g with event := 0xF, fault := 0x3 }
    pageKind 0x0E = .none ∧ pageKind 0x10 = .stamp ∧ ((w s 0x10 0x00C 5).page 0x10).event = 0xA ∧
    ((w s 0x10 0x014 1).page 0x10).fault = 2 ∧ ((w s 0x10 0x008 1).page 0x10).evtIrqEn = true ∧
    ((w s 0x10 0x010 7).page 0x10).eventEn = 7 ∧ (w s 0x10 0x100 7).active = [] ∧
    (cfgAt 0x10104).mask ≠ 0 ∧ (cfgAt 0x10104).lck = 0 ∧ (w s 0x10 0x504 7).shadowCfg 0x10 4 = 7 ∧
    (cfgAt 0x80100).lck ≠ 0 ∧ (w (locked 0x80) 0x80 0x500 7).shadow = [] ∧ (w live 0x80 0x500 1).shadow ≠ [] ∧
    (w (locked 0x10) 0x10 0x504 7).shadowCfg 0x10 4 = 7 ∧
    (w s 0x10 0x90C 7).arg 0x10 0 = 7 ∧ pageKind 0x40 = .qual ∧ (dirReg .qual 0x914).lck = 0 ∧
    (w s 0x40 0x914 7).dir 0x40 0x914 = 7 ∧ ((w s 0x0E 0x010 7).page 0x0E).eventEn = 0 := by decide +kernel

/-- PAGE_LOCK of page 0x10 staged by the control host. -/
def staged (o : Nat) (v : Word) : State := live.setStaged 0 (some { page := 0x10, off := o, value := v })

theorem test_guarded :
    isGuarded .stamp 0x01C 3 = true ∧
    (after (.guardedWrite .control 0x10 0x01C 0x50003) live).stagedOf 0 =
      some { page := 0x10, off := 0x01C, value := 0x50003 } ∧
    (after (.guardFail .control) (staged 0x1C 0x50003)).stagedOf 0 = none ∧
    (after (.guard_ .control 0x10 5) (staged 0x1C 0x50003)).stagedOf 0 = none ∧
    ((after (.guard_ .control 0x10 (~~~0x50003)) (staged 0x1C 0x50003)).page 0x10).lockProp =
      some { master := 0, code := 0, arg := 0x50003, data := [], age := 0 } ∧
    (let s := (staged 0x1C 0x50003).setPage 0x10 fun g => { g with
       lockProp := some { master := 1, code := 0, arg := 0x50003, data := [], age := 7 } }
     let t := after (.guard_ .control 0x10 (~~~0x50003)) s
     (t.page 0x10).lockCfg = true ∧ (t.page 0x10).lockCmd = true ∧ (t.page 0x10).lockProp = none) ∧
    (let s := live.setStaged 0 (some { page := 0x03, off := 0x934, value := 1 })
     (after (.guard_ .control 0x03 (~~~1)) s).fault.forceEn = true) := by decide +kernel

/-- AGE_ADJ at the ends of its range. -/
theorem test_ageAdj : let s (v : Word) : State := live.setStaged 0 (some { page := 0x0D, off := 0x914, value := v })
    let t (v : Word) : Word := (after (.guard_ .control 0x0D (~~~v)) (s v)).dir 0x0D 0x914
    t 5000001 = 5000000 ∧ t 0xFFFFFF = 0xFFFFFF ∧ t 0x800000 = 0xB3B4C0 ∧ t 7 = 7 := by decide +kernel

/-- PAGE_LOCK writes that are refused, and guarded commands. -/
theorem test_guardForms :
    let t (v : Word) (f : Page → Page := id) : Page :=
      (after (.guard_ .control 0x10 (~~~v)) ((staged 0x1C v).setPage 0x10 f)).page 0x10
    let by_ (m : Nat) (v : Word) : Proposal := { master := m, code := 0, arg := v, data := [], age := 7 }
    (t 3).lockResult = 2 ∧ (t 0x50003 fun g => { g with lockProp := some (by_ 0 0x50003) }).lockResult = 6 ∧
    (t 0x50003 fun g => { g with lockProp := some (by_ 1 0x50001) }).lockResult = 2 ∧
    (t 0x50003 fun g => { g with prop := some (by_ 1 0x50001) }).lockResult = 2 ∧
    (t 0x50003 fun g => { g with prop := some (by_ 0 0x50001) }).lockResult = 6 ∧
    (let s := (staged 0x1C 0x50003).setSec fun x => { x with fuseBad := true }
     ((after (.guard_ .control 0x10 (~~~0x50003)) s).page 0x10).lockResult = 1) ∧
    (let s := live.setStaged 0 (some { page := 0x03, off := 0x908, value := 2 })
     ((after (.guard_ .control 0x03 (~~~2)) s).page 0x03).pend.isSome = true) ∧
    (let s := (locked 0x03).setStaged 0 (some { page := 0x03, off := 0x934, value := 1 })
     (after (.guard_ .control 0x03 (~~~1)) s).fault.forceEn = live.fault.forceEn) := by decide +kernel

theorem test_aliases : let s := live.setPage 0x10 fun g => { g with event := 0xF, fault := 0x3 }
    let w (s : State) (o b : Nat) (v : Word) : Page := (after (.aliasWrite .control (aliasAddr 0x10 o b) v) s).page 0x10
    let e (s : State) : State := s.setSec fun x => { x with lc := .deployed }
    (w s 0x008 0 1).evtIrqEn = true ∧ (w s 0x008 1 1).evtIrqEn = false ∧ (w s 0x00C 2 1).event = 0xB ∧
    (w s 0x00C 2 0).event = 0xF ∧ (w s 0x014 0 1).fault = 2 ∧ (w s 0x01C 0 1).lockCfg = false ∧
    live.forceOpen = true ∧ hasSource 0x10 4 = true ∧ (w live 0x018 4 1).fault = 0x10 ∧ (w live 0x018 4 0).fault = 0 ∧
    (e live).forceOpen = false ∧ (w (e live) 0x018 4 1).fault = 0 := by decide +kernel

theorem test_otherAccesses :
    ((after (.aliasWrite .control (aliasAddr 0x10 0x010 31) 1) live).page 0x10).eventEn = 0x80000000 ∧
    (let s := live.setPage 0x10 fun g => { g with eventEn := 9 }
     ((after (.aliasWrite .control (aliasAddr 0x10 0x010 0) 0) s).page 0x10).eventEn = 8) ∧
    (after (.cmdUnknown .control 0x10 7) live).cmdStatus 0x10 0 = { result := 2, code := 7, seq := 1, done := false } ∧
    live.heldWord 0x00 0 0x50 = none ∧ (0x54 ∈ snapGroup .sys 0x50) ∧
    (let t := after (.snapshotRead .control 0x00 0x48) live
     t.sys.reply = [4] ∧ t.heldWord 0x00 0 0x4C = some 0 ∧
     (after (.snapshotRead .control 0x00 0x4C) (t.setOsc fun o => { o with count := 2 ^ 40 })).sys.reply = [0]) ∧
    (let t := after (.bridgeTimeout .control 0x40 none) live
     t.sys.reply = [0] ∧ (t.page 0x00).fault = 0x20) ∧
    ((after (.bridgeTimeout .control 0x40 (some 3)) live).page 0x00).fault = 0x20 := by decide +kernel
theorem test_sets : let a (c : Instr) (s : State) : State × Bool × Bool := (after c s).sysApply
    live.swapWaits = false ∧ live.sys.copyPend = false ∧ live.dormant = false ∧ Open live 0x00 ∧
    (let s := arg live 0x00 6
     Takes (.swapSets .control) s 0x00 1 6 s.swapAt ∧ (a (.swapSets .control) s).2 = (true, false)) ∧
    (let s := arg (live.setDir 0x00 0x91C 999999999) 0x00 6; let t := a (.swapSetsTimed .control) s
     Takes (.swapSetsTimed .control) s 0x00 1 7 s.swapAt ∧ t.2 = (false, false) ∧
     t.1.sys.timed = some { dom := 3, utc := false, sec := 0, ns := 999999999 }) ∧
    Takes (.copySets .control) live 0x00 3 0 live.swapAt ∧ (a (.copySets .control) live).2 = (false, true) ∧
    (let s := live.setSys fun x => { x with timed := some { dom := 0, utc := false, sec := 0, ns := 0 }, swapPend := true }
     Done (.swapCancel .control) s 0x00 2 ∧ (after (.swapCancel .control) s).sys.timed = none ∧
     (after (.swapCancel .control) s).sys.swapPend = false) ∧
    (let s := put ((locked 0x80).setShadow 0x10104 7) 0x80 0 3
     (s.swapNow 9).cfg 0x10 4 = 7 ∧ (s.swapNow 9).shadowCfg 0x10 4 = 0 ∧ (s.swapNow 9).cfg 0x80 0 = 3 ∧
     (s.copyNow).shadowCfg 0x10 4 = 0 ∧ (s.copyNow).shadowCfg 0x80 0 ≠ 3) := by
  unfold Open Ready Idle Takes Done; decide +kernel

theorem test_resets : let s := put (put live 0x10 4 7) 0x0B 0x10 1
    Open s 0x00 ∧ (s.page 0x00).lockCmd = false ∧
    (let t := after (.resetFull .control) s
     t.boot.released = false ∧ t.active = [] ∧ t.boot.cause = 3 ∧ t.budget.pstate = .inReset) ∧
    (let t := after (.resetIslands .control) s
     t.boot.released = true ∧ t.boot.cause = 4 ∧ t.osc.running = false ∧ t.cfg 0x10 4 = 0) ∧
    s.packetInUse = false ∧
    (let t := after (.resetService .control) s
     t.boot.cause = 8 ∧ t.svc.ctrl = .boot ∧ t.osc.running = true ∧ t.cfg 0x10 4 = 7 ∧ t.cfg 0x0B 0x10 = live.cfg 0x0B 0x10) := by
  unfold Open Ready Idle; decide +kernel

/-- Sources 248 and 249 latched with PRIO 2 and 5 for the control host, 250 with PRIO 3 for the guardian. -/
def irqs (f : Irq → Irq := id) : State :=
  (put (put (put live 0x04 992 2) 0x04 996 5) 0x04 1000 0x13).setIrq fun q => f { q with latched := [248, 249, 250] }

theorem test_irq :
    irqs.eligible false = [248, 249] ∧ irqs.nextIrq false = 249 ∧ irqs.nextIrq true = 250 ∧
    (after (.claim .control) irqs).sys.reply = [0x5F9] ∧ (after (.claim .control) irqs).irq.insvcC = [249] ∧
    (after (.claim .guardian) irqs).sys.reply = [0x3FA] ∧ (after (.claim .guardian) irqs).irq.insvcG = [250] ∧
    (after (.claim .device) irqs).sys.reply = [0] ∧ (after (.claim .control) live).sys.reply = [0] ∧
    (let s := irqs fun q => { q with insvcC := [249, 248], insvcG := [250] }
     (after (.complete .control 249) s).irq.insvcC = [248] ∧ (after (.complete .guardian 250) s).irq.insvcG = [] ∧
     (after (.complete .control 250) s).irq = (s.settle false).irq ∧
     (after (.complete .device 250) s).irq.insvcG = [250]) ∧
    (after (.swSet .control 0x81) live).irq.latched = [248, 255] ∧
    (after (.tgtCtrl .control 0x103) live).dir 0x04 0x924 = 0x103 ∧
    (let s := irqs.setDir 0x04 0x924 0x11
     s.mayMove 249 = true ∧ (after (.fallback 249) s).irq.moved.contains 249 = true) := by decide +kernel

theorem test_faults :
    hasSource 0x10 1 = true ∧ (after (.faultEvent 0x10 1 0 0) live).page 0x10 ≠ live.page 0x10 ∧
    ((after (.faultEvent 0x10 1 0 0) live).page 0x10).fault = 2 ∧
    faultClass (pageKind 0x0D) 0x0D 0 = some 2 ∧ (after (.faultEvent 0x0D 0 0 0) live).irq.fatalG = true ∧
    (let s := live.setFault fun f => { f with forceEn := true }
     s.forceOpen = true ∧ ((after (.pageForce .control 0x10 2) s).page 0x10).fault = 2) ∧
    (live.sharedUncorr 7).2 = none ∧ ((after (.faultEvent 0x01 4 0 7) live).page 0x01).fault = 16 ∧
    (let s := live.setBoard fun b => { b with run := { b.run with owners := [(5, 9, 0x72)] } }
     (s.sharedUncorr 7).2 = some (0x72, 2) ∧ ((after (.faultEvent 0x01 4 0 7) s).page 0x72).fault = 4 ∧
     ((after (.faultEvent 0x01 4 0 7) s).page 0x01).fault = 0) ∧
    (let s := live.setFault fun f => { f with forceEn := true }
     hasSource 0x10 7 = false ∧ ((after (.pageForce .control 0x10 0x80) s).page 0x10).fault = 0 ∧
     ((after (.pageForce .control 0x01 16) s).page 0x01).fault = 16) ∧
    (let s := live.setSec fun x => { x with lc := .deployed }
     s.forceOpen = false ∧ ((after (.pageForce .control 0x10 2) s).page 0x10).fault = 0) ∧
    (let x : Slot := { page := 0x10, bit := 3, unit := 0, detail := 0, pairs := [], repeats := 0, left := 5 }
     let s := live.setFault fun f => { f with slots := [(15, some x)] }
     s.fault.slotOf 0x310 = some 15 ∧ (after (.uAck .control 0x310) s).fault.slot 15 = none ∧
     (after (.uAck .control 0x80002310) s).fault.slot 15 = none ∧
     (after (.uAck .control 0x410) s).fault.slot 15 = some x ∧
     ((after (.uAck .control 0x410) s).page 0x03).event.getLsbD 2 = true ∧
     (after (.checkWindowEnd 15) s).irq.fatalC = true ∧ (after (.checkWindowEnd 15) s).fault.slot 15 = none) := by
  decide +kernel

def rec_ (page seq : Nat) : FaultRec :=
  { page, bit := 1, cls := 0, forced := false, unit := 0, master := 3, access := 7, escalated := false, addr := 0, time := 0
    rseq := seq, detail := 0 }

theorem test_captures :
    let s := live.storeRec (rec_ 0x10 0); let t := s.storeRec (rec_ 0x10 1); let u := t.storeRec (rec_ 0x11 2)
    s.fault.capture 0x10 = some (rec_ 0x10 0) ∧ t.fault.capture 0x10 = some (rec_ 0x10 0) ∧
    t.fault.queue = [rec_ 0x10 1] ∧ u.fault.capture 0x11 = some (rec_ 0x11 2) ∧ u.fault.queue.length = 1 ∧
    (let q := t.setFault fun f => { f with queue := List.replicate 15 (rec_ 0x10 1) }
     (q.storeRec (rec_ 0x10 9)).fault.queue.length = 16 ∧
     ((q.storeRec (rec_ 0x10 9)).storeRec (rec_ 0x10 9)).fault.queue.length = 16) ∧
    (let v := t.setDir 0x03 0x918 0x100
     v.shownRec = some (rec_ 0x10 1) ∧ (after (.recRelease .control 1) v).fault.queue = []) ∧
    (let v := t.setDir 0x03 0x918 0x10
     v.shownRec = some (rec_ 0x10 0) ∧ (after (.recRelease .control 1) v).fault.capture 0x10 = none) := by decide +kernel

theorem test_windows : faultClass (pageKind 0x01) 0x01 1 = some 1 ∧ noEscalation 0x01 1 = false ∧
    (let e : Event := { page := 0x01, bit := 1 }
     let t := live.report e
     live.fault.slotOf (identity 0x01 1 0) = none ∧ live.fault.slot 0 = none ∧
     (t.fault.slot 0).map (fun x => (x.left, x.repeats)) = some (live.windowRounds false, 0) ∧
     t.fault.slotOf (identity 0x01 1 0) = some 0 ∧ ((t.report e).fault.slot 0).map (·.repeats) = some 1 ∧
     ((live.setFault fun f => { f with compat := true }).report e).fault.slots = []) := by decide +kernel

/-- Domain 2 in a state drives output 9 through synthesiser 5. -/
def steered (st : DState) : State := (synth .locked .run fun y => { y with dom := 2 }).setSyn 5 (fun y => { y with mode := 2 })
  |>.setDom 2 fun x => { x with state := st }

theorem test_fReaction :
    (steered .init).fReaction 7 2 = steered .init ∧ 9 ∈ (steered .locked).domOuts 2 ∧
    (((steered .locked).fReaction 7 2).dom 2).safePend = some 7 ∧
    ((((steered .locked).fReaction 7 2).fReaction 8 2).dom 2).safePend = some 7 ∧
    (((steered .locked).fReaction 7 2).out 9).held = true ∧
    (((steered .locked).fReaction 7 2).out 10) = (steered .locked).out 10 := by decide +kernel

theorem test_faultCommands : let a (c : Instr) (s : State) : State := (after c s).faultApply
    (let s := arg (live.setFault fun f => { f with safeCause := [(2, some 0x110)] }) 0x03 0x2000110
     Open s 0x03 ∧ s.fault.cause 2 = some 0x110 ∧ s.faultHolds 0x110 = false ∧
     Takes (.fAck .control) s 0x03 1 0x2000110 ∧ (a (.fAck .control) s).fault.cause 2 = none) ∧
    (live.allInit = true ∧ Takes (.bist .control) live 0x03 2 0 ∧ (a (.bist .control) live).fault.bist = true ∧
     ((a (.bist .control) live).out 39).held = true ∧ (a (.bist .control) live).roundsRun = false ∧
     (let u := a (.bist .control) live
      (after (.bistEnd none) u).fault.bistResult = 1 ∧ (after (.bistEnd (some 3)) u).fault.bistResult = 2 ∧
      (after (.bistEnd (some 3)) u).fault.bistType = 3 ∧ (after (.bistEnd none) u).boot.cause = 5)) ∧
    (let s := put live 0x03 4 1
     s.sweepEn = true ∧ Takes (.sweepRestart .control) s 0x03 3 0 ∧
     (a (.sweepRestart .control) s).fault.sweepRestart = true) := by
  unfold Open Ready Idle Takes; decide +kernel

theorem test_sweep : let s := put (ch3 .run) 0x03 4 1; let f (c : Instr) (s : State) : FaultUnit := (after c s).fault
    let at_ (k : Nat) : State := s.setFault fun f => { f with sweepLen := 9, sweepStep := k }
    s.sweepEn = true ∧ s.roundsRun = true ∧ s.sweepBlocked = false ∧ (f .sweepStep s).sweepStep = 0 ∧
    (f .sweepStep (at_ 126)).sweepStep = 0 ∧ (f .sweepStep (at_ 6)).sweepStep = 7 ∧
    (at_ 2).sweepEligible 3 = true ∧ ((at_ 3).sweepChecks 3 ((at_ 3).sweepOrder 3).2.1 (word ((at_ 3).sweepOrder 3).2.2)).result = 0 ∧
    (f .sweepRetry (at_ 3)).sweepBusy = true ∧
    (let u := (at_ 3).setPage 0x13 fun g => { g with pend := some { master := 0, code := 1, arg := 0, seq := 0, data := [] } }
     (f .sweepRetry u).sweepBusy = false ∧ (f .sweepRetry u).sweepRetry = 8000) ∧
    (at_ 118).sweepEligible 119 = true ∧ (f .sweepStep (at_ 118)).sweepDone = true ∧
    (f .sweepRetry (at_ 119)).sweepDone = true ∧ (f .sweepStep (at_ 2)).sweepBusy = true ∧
    (let u := (at_ 2).setBoard fun b => { b with state := .activating }
     u.sweepBlocked = true ∧ (f .sweepRetry u).sweepWait = true ∧ (f .sweepStep u).sweepWait = true) ∧
    (f .sweepRetry s).sweepBusy = false ∧
    (f .faultSweepLate s).sweepLate = true := by decide +kernel
/-- The NV store with a valid counter copy A at 64 of value 2^32 − 1, the selected window page 0. -/
def nvCtr (f : NvUnit → NvUnit := id) : State :=
  (live.setDir 0x05 0x918 64).setNv fun n => f { n with mem := setNvWords [] 64 (nvCopyWords 0xFFFFFFFF) }

theorem test_nvCounters : let r (c : Instr) (s : State) : NvUnit := (after c s).nv
    Open nvCtr 0x05 ∧ nvCtr.ctrAddr = 64 ∧ nvCtr.nvWritable = true ∧ nvCtr.nvProtected 64 = false ∧
    nvCtr.nv.ctrCopy 64 = 1 ∧ Done (.countInc .control) nvCtr 0x05 2 ∧
    (r (.countInc .control) nvCtr).ctrValue 64 = 2 ^ 32 ∧ (r (.countInc .control) nvCtr).ctrCopy 64 = 2 ∧
    (let t := after (.countInc .control) nvCtr
     (r (.countInc .control) t).ctrValue 64 = 2 ^ 32 + 1 ∧ (r (.countInc .control) t).ctrCopy 64 = 1) ∧
    Done (.countRead .control) nvCtr 0x05 3 ∧ (r (.countRead .control) nvCtr).ctrVal = 0xFFFFFFFF ∧
    (let s := live.setDir 0x05 0x918 32
     s.nv.ctrCopy 32 = 3 ∧ Done (.countInit .control) s 0x05 1 ∧ (r (.countInit .control) s).ctrCopy 32 ≠ 3 ∧
     (r (.countInit .control) s).ctrValue 32 = 0) ∧
    (nvCtr.nvIncrement 64).nv.ctrValue 64 = 2 ^ 32 ∧ twf (fun _ => (0 : BitVec 8)) nvCtr.nv.mem = true := by
  unfold Open Ready Idle Done; decide +kernel

theorem test_nvCommands :
    (let s := live.setDir 0x05 0x914 0xFFF
     s.winAddr 31 = 0x7FFFC ∧ s.nvProtected 0x7FFFC = false ∧
     nvWord (after (.win .control 31 0x12345678) s).nv.mem 0x7FFFC = 0x12345678 ∧
     (after (.win .control 31 1) (s.setNv fun n => { n with bp := 2 ^ 63 })).nv.mem = [] ∧
     (after (.registerWrite .control 0x05 0xA00 1) s).nv = s.nv) ∧
    (let s := arg ((live.setDir 0x05 0x91C 5).setDir 0x05 0x920 6) 0x05 0x70000
     let p := s.setPage 0x05 fun g => { g with
       prop := some { master := 1, code := 4, arg := 0x70000, data := [5, 6], age := 0 } }
     MayPropose s 0x05 .control 4 0x70000 ∧ Done (.bpSet .control) s 0x05 4 ∧
     (((after (.bpSet .control) s).page 0x05).prop.map fun q => q.data) = some [5, 6] ∧
     Done (.bpSet .control) p 0x05 4 ∧ (after (.bpSet .control) p).nv.bp = 5 + 6 * 2 ^ 32) ∧
    (let s := (put (put (put live 0x05 0 1) 0x05 4 0x1000) 0x05 8 4).setNv fun n => { n with
       logSlot := 3, logSeq := 9, logWait := [rec_ 0x10 7], logResumed := true }
     s.logEn = true ∧ Done (.logClear .control) s 0x05 5 ∧ (after (.logClear .control) s).nv.logSlot = 0 ∧
     s.logOk = true ∧ (after .logAppend s).nv.logWait = [] ∧ (after .logAppend s).nv.logSeq = 10 ∧
     nvWord (after .logAppend s).nv.mem (s.logBase + 32 * (3 % s.logSlots) + 20) = 9 ∧
     nvWord (after .logAppend s).nv.mem (s.logBase + 32 * (3 % s.logSlots) + 28) = 0xFFFFFFFF - 9) ∧
    (let s := (put (put live 0x05 0 4) 0x05 0xC 32).setNv fun n => { n with mem := setNvWords [] 64 (nvCopyWords 8) }
     s.budget.pstate.runs = true ∧ (after .runHours s).nv.ctrValue 64 = 9 ∧ (after .runHours live).nv = live.nv ∧
     (after .runHours s).nv.ctrCopy 64 = 2 ∧ (after .runHours (after .runHours s)).nv.ctrValue 64 = 10) ∧
    ((after (.nvScrub 131071 .corrected) live).page 0x05).fault = 1 ∧
    (after (.nvScrub 131071 .uncorrectable) live).nv.lastUncorr = 524284 ∧
    (after (.nvHoldupLow false) live).nv.holdupOk = true ∧
    (let s := live.setNv fun n => { n with holdupOk := true }
     (after (.nvHoldupLow true) s).nv.holdupOk = false ∧ ((after (.nvHoldupLow true) s).page 0x05).fault = 16) := by
  unfold Done MayPropose; decide +kernel

/-- A SEC command of the control host before any book runs, proposed and met by the guardian's proposal. -/
def secArg (v : Word) : State := arg (live.setBoard fun b => { b with state := .noBook }) 0x06 (0x50000 + v)
def met (code : Nat) (v : Word) (data : List Word := []) (f : SecUnit → SecUnit := id) : State :=
  ((secArg v).setSec f).setPage 0x06 fun g => { g with
    prop := some { master := 1, code, arg := 0x50000 + v, data, age := 0 } }

theorem test_security :
    (let s := secArg 1
     Ready s 0x06 .control ∧ MayPropose s 0x06 .control 2 0x50001 ∧ (s.secChecks 2 0x50001 []).result = 0 ∧
     Done (.dbgSet .control) s 0x06 2 ∧ ((after (.dbgSet .control) s).page 0x06).prop.isSome = true ∧
     Done (.dbgSet .control) (met 2 1) 0x06 2 ∧ (after (.dbgSet .control) (met 2 1)).sec.dbgSet = 1) ∧
    (let s := met 4 1 [] fun x => { x with keys := [(1, .enabled), (2, .enabled)] }
     Done (.keyRevoke .control) s 0x06 4 ∧ (after (.keyRevoke .control) s).keyState 1 = .revoked) ∧
    (let s := met 5 0x305
     (s.secChecks 5 0x50305 []).result = 0 ∧ (after (.minverSet .control) s).sec.bookMin = 5 ∧
     (after (.minverSet .control) s).sec.fwMin = 3) ∧
    (let s := met 1 1 [] fun x => { x with keys := [(1, .enabled)] }
     lifecycleOf 1 = some .provisioned ∧ (s.secChecks 1 0x50001 []).result = 0 ∧
     (after (.lcSet .control) s).sec.lc = .provisioned) ∧
    (let s := met 1 2 [] fun x => { x with lc := .provisioned, dbgSet := 2 }
     (s.secChecks 1 0x50002 []).result = 0 ∧ (after (.lcSet .control) s).sec.lc = .deployed ∧
     (after (.lcSet .control) s).sec.dbgSet = min 2 (debugCap .deployed)) ∧
    (let s := met 1 4 [] fun x => { x with lc := .service }
     lifecycleOf 4 = some .retired ∧ s.lcLegal .retired = true ∧ (after (.lcSet .control) s).sec.lc = .retired) ∧
    (let s := live.setPage 0x06 fun g => { g with
       prop := some { master := 0, code := 1, arg := 0, data := [], age := 0 } }
     (after (.proposalCancel .control 0x10) s).cmdStatus 0x10 0 = { result := 2, code := 6, seq := 1, done := false } ∧
     (let u := (secArg 4).setSec fun x => { x with lc := .service }
      MayPropose u 0x06 .control 1 0x50004 ∧ u.lcLegal .retired = true ∧
      ((after (.lcSet .control) u).page 0x06).prop.isSome = true) ∧
     Done (.proposalCancel .control 0x06) s 0x06 6 ∧ ((after (.proposalCancel .control 0x06) s).page 0x06).prop = none ∧
     ((after (.lapse 0x06) s).page 0x06).prop = none) := by
  unfold Ready Done MayPropose; decide +kernel

/-- A key is written where its bytes are a point of the curve, a free function of the configuration. -/
theorem test_keyWrite (h : ∀ k, Config.validPoint k = true) :
    ((met 3 1).secChecks 3 0x50001 (List.replicate 24 0)).result = 0 := by
  simp only [State.secChecks, h]
  decide +kernel

theorem test_secEvents :
    (after (.secCryptoKat true) live).sec.katBad = false ∧ (after (.secCryptoKat false) live).sec.katBad = true ∧
    (let s := live.setSec fun x => { x with copyA := true, copyB := true, binding := some (5, true) }
     let s1 := s.setSec fun x => { x with copyA := false }
     (after (.pstoreScrub .uncorrectable) s).sec.binding = some (5, true) ∧
     (after (.pstoreScrub .uncorrectable) s).nv.bp = s.nv.bp ∧
     (after (.pstoreScrub .uncorrectable) s1).sec.binding = none ∧
     (after (.pstoreScrub .uncorrectable) s1).sec.copyB = false ∧
     (after (.pstoreScrub .uncorrectable) s1).nv.bp = 2 ^ 64 - 1) ∧
    ((after (.pstoreScrub .corrected) live).page 0x06).fault ≠ 0 := by decide +kernel

theorem test_startup :
    (after .brownOut live).boot.cause = 2 ∧ (after .brownOut live).boot.released = false ∧
    (after (.resetN true 1000) live).boot.cause = 1 ∧ (after (.resetN true 1000) live).boot.resetPin = false ∧
    (after (.resetN true 199) live).boot.cause = live.boot.cause ∧ (after (.resetN true 199) live).boot.resetPin = false ∧
    (let t := after (.resetRelease 25) State.reset
     State.reset.boot.resetPin = true ∧ State.reset.boot.started = false ∧ t.boot.started = true ∧
     t.budget.pstate = .run ∧ t.sys.cfgReady = true) := by decide +kernel

/-- An image of one entry, a write to address `w` with its flags, on a device without a book, bound or not, its role settled
or not. -/
def image (w : Nat) (bound : Bool) (wait : Option Nat) (role : Role) : State :=
  (((live.setBoard fun b => { b with state := .noBook }).setNv fun n => { n with mem := setNvWords [] 64 [0, 0, 1, w, 7] }).setBoot fun b => { b with
    imgAddr := 64, imgCount := 1, flags := 0x10000, pairWait := wait }).setPair fun p => { p with bound, role }

theorem test_image : let d := 0x13504 + 2 ^ 30
    (image 0x13504 false none .solo).imgEntry 0 = (0x13504, false, false, 7) ∧
    (image 0x13504 false none .solo).imgHeld 0 = false ∧ cmdPage 0x13504 = none ∧
    (after .imageEntry (image 0x13504 false none .solo)).boot.applied = 1 ∧
    (after .imageEntry (image 0x13504 false none .solo)).shadowCfg 0x13 4 = 7 ∧
    (image 0x13908 false none .solo).imgHeld 0 = true ∧
    (after .imageEntry (image 0x13908 false none .solo)).boot.imgNext = 0 ∧
    (image d true none .solo).defers = true ∧ (after .imageEntry (image d true none .solo)).boot.deferred = [0] ∧
    (image d true (some 0) .standby).roleSettled = true ∧
    (after .imageEntry (image d true (some 0) .standby)).boot.dropped = 1 ∧
    (after .imageEntry (image d true (some 0) .active)).boot.applied = 1 := by decide +kernel

/-- A command of the image is waited for, accepted or refused, and its answer counted; a held entry waits its turn. -/
theorem test_imageCommands :
    (let s := (image 0x13908 false none .solo).setBoard fun b => { b with state := .running }
     let t := after .imageEntry s
     cmdPage 0x13908 = some 0x13 ∧ s.imgHeld 0 = false ∧ t.boot.refused = 1 ∧ t.boot.firstRefused = some 0 ∧
     t.boot.imgNext = 1 ∧ (t.cmdStatus 0x13 3).result = 2) ∧
    (let s := (image 0x00908 false none .solo).setNv fun n => { n with mem := setNvWords [] 64 [0, 0, 1, 0x908, 3] }
     let t := after .imageEntry s
     let u := t.setPage 0 fun g => g.setStatus 3 { result := 0, code := 3, seq := 1, done := true }
     cmdPage 0x908 = some 0 ∧ s.imgHeld 0 = false ∧ t.boot.imgCmd = some (0, 1, 0) ∧ (after .imageEntry t).boot = t.boot ∧
     (after .imageEntry u).boot.imgCmd = none ∧ (after .imageEntry u).boot.applied = 1) ∧
    (let s := (image 0x13504 true (some 0) .active).setBoot fun b => { b with imgNext := 1, deferred := [0] }
     s.roleSettled = true ∧ s.imgHeld 0 = false ∧ (after .imageEntry s).boot.applied = 1 ∧
     (after .imageEntry s).boot.deferred = [] ∧ (after .imageEntry (s.setBoot fun b => { b with wake := true })).boot.applied = 0 ∧
     (after .imageEntry (s.setBoot fun b => { b with pairWait := some 1 })).boot.deferred = [0]) := by decide +kernel

theorem test_roundCount :
    live.roundsRun = true ∧ (after (.roundBoundary {}) live).osc.count = 6 ∧
    (after (.roundBoundary {}) live).osc.bnd = roundLen ∧
    (after (.roundBoundary {}) (live.setOsc fun o => { o with count := 0 })).osc.bnd = 0 ∧
    (after (.roundBoundary {}) (live.setOsc fun o => { o with count := 0 })).osc.count = 1 ∧
    (after (.roundBoundary {}) State.reset).osc = State.reset.osc := by decide +kernel

/-- Identification, the page lock of the register map's example, refusals and the requests at reset. -/
theorem test_identity : Answers live 0x00 .control ∧ Answers live 0x04 .control ∧ live.heldWord 0x00 0 0x40 = none ∧
    (after (.snapshotRead .control 0x00 0x40) live).sys.reply = [0x3240B100] ∧
    (after (.snapshotRead .control 0x04 0x104) live).sys.reply = [0xF] ∧ live.prio 1 = 15 ∧
    (after (.registerWrite .control 0x04 0x508 15) live).shadowCfg 0x04 8 = 14 ∧
    (after (.registerWrite .control 0x04 0x504 3) live).shadow = live.shadow := by
  unfold Answers; decide +kernel

theorem test_refusal : let t := after (.stampEnable 3 .control) (ch3 .run)
    t.cmdStatus 0x13 0 = { result := 1, code := 1, seq := 1, done := false } ∧ (t.page 0x13).pend = none ∧
    t.counter 0x13 0xA38 = 1 ∧ ({ arg := true, busy := true } : Checks).result = 2 ∧
    ({ busy := true, lock := true } : Checks).result = 5 ∧ ({ lock := true, role := true } : Checks).result = 3 ∧
    ({ role := true, party := true } : Checks).result = 4 ∧ ({ party := true, state := true } : Checks).result = 6 ∧
    ({ state := true } : Checks).result = 1 := by decide +kernel

theorem reset_follows : Safety.RequestsFollow State.reset := by
  refine ⟨rfl, rfl, rfl, rfl, fun n h => ?_⟩
  cases h

theorem test_step : step { live with pending := [.takenEnd] } = exec .takenEnd live ∧ step live = .next live := by
  exact ⟨rfl, rfl⟩

/-! ### Terms that are not commands -/

theorem test_wf : let q := request
    (Instr.sclkLock (2 ^ 64)).wf = false ∧ (Instr.stampEvent 3 0 (2 ^ 18) false).wf = false ∧
    (Instr.roundBoundary { tempos := 101001 }).wf = false ∧ (Instr.roundBoundary { parity := [1, 1] }).wf = false ∧
    (Instr.roundBoundary { warm := [(1, 0), (1, 4)] }).wf = false ∧
    (Instr.roundBoundary { cal := [(1, 0, 0), (1, 0, 0)] }).wf = false ∧
    (Instr.budgetLatch { latch with diodes := [] }).wf = false ∧ (Instr.ntpRequest 1 { q with src := [] }).wf = false ∧
    (Instr.ntpRequest 1 q).wf = true ∧ (Instr.sync 1 { event9 with seq := 65536 }).wf = false ∧
    (Instr.announce 1 { master5 with clockClass := 256 }).wf = false ∧
    (Instr.signaling 1 { ask false 0 with addr := [] }).wf = false ∧ (Instr.followUp 1 65536 0 0).wf = false ∧
    (Instr.arpRequest 1 true [1]).wf = false ∧ (Instr.esmcPdu 1 16 none).wf = false ∧
    (Instr.frameReceived 1 { fcsOk := true, bytes := List.replicate 1523 0 }).wf = false ∧
    (Instr.syncTx 1 none (2 ^ 33)).wf = false ∧ (Instr.spiWrite [3]).wf = false ∧ (Instr.spiUnknownOpcode [3]).wf = false ∧
    (Instr.pcieRequest { readId with offset := 2 }).wf = false ∧ (Instr.pcieConfigRequest (.read 1024)).wf = false ∧
    (Instr.tapInstruction (.read 2)).wf = false ∧ (Instr.guardedWrite .control 0 2 0).wf = false ∧
    (Instr.aliasWrite .control 0x40 0).wf = false ∧ (Instr.nvScrub 131072 .clean).wf = false ∧
    (Instr.orderedSet 0 (2 ^ 64)).wf = false := by decide +kernel

/-! ### The cells and the line code -/

/-- Pair 0 with a program of seven operations in both cells, LD, KAT, ALU, STS, STC, KAT, BAR: twice the word 7 of the cell
memory goes to word 3 of the shared memory. The second twin's word is `second`, the first one's is 5. -/
def programmed (second : Nat) : State :=
  let w (opc dst a b imm : Nat) : Nat := opc * 2 ^ 58 + dst * 2 ^ 46 + a * 2 ^ 40 + b * 2 ^ 34 + imm
  let im : Table Nat := tableFrom 0
    [w 1 0 0 0 7, w 0x18 0 0 0 0, w 0xD 1 0 0 0, w 4 0 1 0 3, w 0x15 0 0 0 0, w 0x18 0 0 0 0, w 0x17 0 0 0 0]
  ((live.setCell 0 fun c => { c with imem := im, dmem := [(7, 5)] }).setCell 1
    fun c => { c with imem := im, dmem := [(7, second)] }).setBoard fun b => { b with
    tempos := 100000, run := { b.run with pairMask := 1, lens := [145, 145, 145, 145], entries := [] } }

/-- R276, R278, R280, R281, R288: the group's store reaches the shared memory, the barrier stands in tempo LEN_V - 8. -/
theorem test_cellsRound : let s := (programmed 5).cellsRound
    s.board.shared = [(3, 10)] ∧ (s.cell 1).regs = [(0, 5), (1, 10)] ∧ s.board.late = false ∧
    s.fault.queue = live.fault.queue := by decide +kernel

/-- R281: twins that store different values store nothing. -/
theorem test_cellsDiffer : let s := (programmed 6).cellsRound
    s.board.shared = [] ∧ (s.cell 1).regs = [(0, 6), (1, 12)] := by decide +kernel

/-- R254: K28.5 after negative and after positive disparity, and D21.5. -/
theorem test_lineCode : encodeLine false [.k285, .k285, .data 0xB5] = ([0b0011111010, 0b1100000101, 0b1010101010], false) := by
  decide +kernel

theorem test_noWords : decodeTableWord 32 0 = none ∧ live.withFetchWord 32 0 = live := ⟨rfl, rfl⟩
end Sys2Proof.Tests
end

section
/-! PROOFS. Register accesses (chapter 14): the decoding of an address, the two outcomes of an access that the bus lets
through, and what a write to each class of register does (R14, R388, R394, R397). -/

namespace Sys2Proof.Machine

open Stated

variable (s : State) {m p o : Nat} {v : Word}

/-! ### Addresses -/

/-- A DW address of the register space names its register (R381). -/
theorem targetOf_regAddr (page : Fin 256) (ho : o < 0x1000) (h4 : o % 4 = 0) :
    targetOf (regAddr page o) = .reg page o := by
  have hp := page.isLt
  have hd : (page.val * 0x1000 + o) / 0x1000 = page := by omega
  have hm : (page.val * 0x1000 + o) % 0x1000 = o := by omega
  unfold targetOf regAddr
  rw [if_neg (by omega), if_pos (by omega), hd, hm]

/-- A write that the bus lets through acts on the register itself, unless it is a write to GUARD (R14, R391). -/
theorem State.writeAt_ready {s : State} {w : Master} {page : Fin 256} (h : Ready s page w) (ho : o < 0x1000)
    (h4 : o % 4 = 0) (hg : o ≠ 0x900 ∨ pageKind page = .none) :
    s.writeAt (masterCode w) (regAddr page o) v = s.regWrite (masterCode w) 1 page o v := by
  obtain ⟨hreleased, haccess, hreaches, hstaged⟩ := h
  have hguard : ¬ (o = 0x900 ∧ pageKind page ≠ .none) := fun h => hg.elim (· h.1) h.2
  simp [State.writeAt, hreleased, haccess, targetOf_regAddr page ho h4, State.answers, Target.page, hreaches,
    s.access_clean hstaged, hguard]

/-- A read that the bus lets through reads the register itself (R14, R391). -/
theorem State.readAt_answers {s : State} {w : Master} {page : Fin 256} (h : Answers s page w) (ho : o < 0x1000)
    (h4 : o % 4 = 0) : s.readAt (masterCode w) (regAddr page o) = s.regRead (masterCode w) page o := by
  obtain ⟨hreleased, haccess, hreaches, hstaged⟩ := h
  simp [State.readAt, hreleased, haccess, targetOf_regAddr page ho h4, State.answers, Target.page, hreaches,
    s.access_clean hstaged]

/-! ### LOCK_WRITE -/

/-- A write that a lock turns away is counted and reported, and touches no unit (R394, R395). -/
theorem kept_lockWrite (m access a : Nat) : Safety.Kept s (s.lockWrite m access a) :=
  (Safety.Kept.bump s 0x00 0xA10).trans (Safety.Kept.collectC _ _)

/-! ### Configuration and direct controls -/

section
variable {access : Nat}

/-- Outside the interrupt page a shadow register takes its implemented bits where no lock covers it (R397). -/
theorem State.writeShadow_open (hm : (cfgAt (p * 0x1000 + (o - 0x400))).mask ≠ 0) (hi : pageKind p ≠ .irq)
    (hl : ¬ (s.page p).lockCfg = true ∨ (cfgAt (p * 0x1000 + (o - 0x400))).lck = 0) :
    s.writeShadow m access p o v = s.setShadow (p * 0x1000 + (o - 0x400)) v := by
  unfold State.writeShadow
  rw [if_neg hm, if_neg fun h => hl.elim (· h.1) h.2, if_neg hi]

/-- A locked shadow register of a locked page turns the write away (R394, R397). -/
theorem State.writeShadow_locked (hm : (cfgAt (p * 0x1000 + (o - 0x400))).mask ≠ 0)
    (hp : (s.page p).lockCfg = true) (hl : (cfgAt (p * 0x1000 + (o - 0x400))).lck ≠ 0) :
    s.writeShadow m access p o v = s.lockWrite m access (p * 0x1000 + o) := by
  unfold State.writeShadow
  rw [if_neg hm, if_pos ⟨hp, hl⟩]

/-- The pages whose direct controls act by themselves, and OSC, whose only one is guarded. -/
def actingPages : List PageKind := [.time, .irq, .sched, .tsvc, .ports, .fault, .nv, .osc]

/-- A plain direct control takes its implemented bits where no lock covers it (R14, R404). -/
theorem State.writeDirect_open (hk : pageKind p ∉ actingPages)
    (hl : ¬ (s.page p).lockCfg = true ∨ (dirReg (pageKind p) o).lck = 0) :
    s.writeDirect m access p o v = s.setDir p o v := by
  unfold State.writeDirect
  rw [if_neg fun h => hl.elim (· h.2) h.1]
  revert hk
  cases pageKind p <;> simp [actingPages]

/-- A locked direct control of a locked page turns the write away (R394). -/
theorem State.writeDirect_locked (hp : (s.page p).lockCfg = true) (hl : (dirReg (pageKind p) o).lck ≠ 0) :
    s.writeDirect m access p o v = s.lockWrite m access (p * 0x1000 + o) := by
  unfold State.writeDirect
  rw [if_pos ⟨hl, hp⟩]

/-! ### The classes of registers of a page -/

/-- Of the offsets that are not CMD, only PAGE_LOCK, FORCE_EN and AGE_ADJ are guarded (R392). -/
theorem isGuarded_eq_false {k : PageKind} (hlock : o ≠ 0x01C) (hcmd : o ≠ 0x908)
    (hforce : k ≠ .fault ∨ o ≠ 0x934) (hage : k ≠ .osc ∨ o ≠ 0x914) : isGuarded k o v = false := by
  have hf : (k == .fault && o == 0x934) = false := by rcases hforce with h | h <;> simp [h]
  have ha : (k == .osc && o == 0x914) = false := by rcases hage with h | h <;> simp [h]
  simp [isGuarded, hlock, hcmd, hf, ha]

/-- A page that does not exist ignores writes (R391). -/
theorem State.regWrite_absent (hk : pageKind p = .none) : s.regWrite m access p o v = s := by
  simp [State.regWrite, hk]

section
variable (hk : pageKind p ≠ .none)
include hk

theorem State.regWrite_evtCtrl :
    s.regWrite m access p 0x008 v = s.setPage p fun g => { g with evtIrqEn := bit v 0 } := by
  simp [State.regWrite, hk, isGuarded]

/-- EVENT bits clear where 1 is written (R14, R404). -/
theorem State.regWrite_event :
    s.regWrite m access p 0x00C v = s.setPage p fun g => { g with event := g.event &&& ~~~v } := by
  simp [State.regWrite, hk, isGuarded]

theorem State.regWrite_eventEn :
    s.regWrite m access p 0x010 v = s.setPage p fun g => { g with eventEn := v } := by
  simp [State.regWrite, hk, isGuarded]

/-- PAGE_FAULT bits clear where 1 is written (R14, R404). -/
theorem State.regWrite_pageFault :
    s.regWrite m access p 0x014 v = s.setPage p fun g => { g with fault := g.fault &&& ~~~v } := by
  simp [State.regWrite, hk, isGuarded]

/-- CMD_ARG is stored for its master (R400); OSC has none. -/
theorem State.regWrite_cmdArg (ho : pageKind p ≠ .osc) : s.regWrite m access p 0x90C v = s.setArg p m v := by
  simp [State.regWrite, hk, isGuarded, ho]

variable (h4 : o % 4 = 0)
include h4

/-- Above the common registers a write that is not guarded goes by the area of its offset (R388). -/
theorem State.regWrite_area (ho : 0x020 ≤ o) (hg : isGuarded (pageKind p) o v = false) :
    s.regWrite m access p o v =
      if o < 0x100 then
        (if pageKind p = .tim ∧ 0x40 ≤ o ∧ bit v 4 then
          s.setTim (48 * (p - 0xC0) + (o - 0x40) / 4) fun t => { t with done := false }
         else s)
      else if o < 0x500 then s
      else if o < 0x900 then s.writeShadow m access p o v
      else if o = 0x908 then s.issue m p v.toNat
      else if o = 0x90C then (if pageKind p = .osc then s else s.setArg p m v)
      else if 0x914 ≤ o ∧ o < 0xA00 then s.writeDirect m access p o v
      else s := by
  unfold State.regWrite
  rw [if_neg (by simp [hk, h4]), if_neg (by simp [hg]), if_neg (by omega), if_neg (by omega), if_neg (by omega),
    if_neg (by omega), if_neg (by omega)]

/-- The read-only registers of a page ignore writes, but for the results of TIM (R14). -/
theorem State.regWrite_readOnly (hlo : 0x020 ≤ o) (hhi : o < 0x100) (ht : pageKind p ≠ .tim) :
    s.regWrite m access p o v = s := by
  rw [s.regWrite_area hk h4 hlo (isGuarded_eq_false (by omega) (by omega) (by omega) (by omega)), if_pos hhi,
    if_neg (fun h => ht h.1)]

/-- The active set ignores writes (R14, R397). -/
theorem State.regWrite_activeSet (hlo : 0x100 ≤ o) (hhi : o < 0x500) : s.regWrite m access p o v = s := by
  rw [s.regWrite_area hk h4 (by omega) (isGuarded_eq_false (by omega) (by omega) (by omega) (by omega)),
    if_neg (by omega), if_pos hhi]

theorem State.regWrite_shadowSet (hlo : 0x500 ≤ o) (hhi : o < 0x900) :
    s.regWrite m access p o v = s.writeShadow m access p o v := by
  rw [s.regWrite_area hk h4 (by omega) (isGuarded_eq_false (by omega) (by omega) (by omega) (by omega)),
    if_neg (by omega), if_neg (by omega), if_pos hhi]

theorem State.regWrite_direct (hlo : 0x914 ≤ o) (hhi : o < 0xA00) (hg : isGuarded (pageKind p) o v = false) :
    s.regWrite m access p o v = s.writeDirect m access p o v := by
  rw [s.regWrite_area hk h4 (by omega) hg, if_neg (by omega), if_neg (by omega), if_neg (by omega),
    if_neg (by omega), if_neg (by omega), if_pos ⟨hlo, hhi⟩]

end
end

end Sys2Proof.Machine
end

section
/-! PROOFS. How claims about REGISTER_WRITE and SNAPSHOT_READ follow from the register's own operation. -/

namespace Sys2Proof.Stated

open Machine

variable {s u : State} {m : Master} {page : Fin 256} {off : Fin 4096} {v : Word}

theorem exec_registerWrite :
    exec (.registerWrite m page off v) s = finish (s.writeAt (masterCode m) (regAddr page off) v) := rfl

theorem exec_snapshotRead :
    exec (.snapshotRead m page off) s =
      finish ((s.readAt (masterCode m) (regAddr page off)).2.setSys fun x =>
        { x with reply := [(s.readAt (masterCode m) (regAddr page off)).1] }) := rfl

section
variable (hr : Ready s page m) (h4 : off.val % 4 = 0) (hg : off.val ≠ 0x900 ∨ pageKind page = .none)
include hr h4 hg

/-- A register write that reaches its page ends in what the register does with it. -/
theorem exec_registerWrite_ready :
    exec (.registerWrite m page off v) s = finish (s.regWrite (masterCode m) 1 page off v) := by
  rw [exec_registerWrite, State.writeAt_ready hr off.isLt h4 hg]

theorem does_registerWrite (hw : s.regWrite (masterCode m) 1 page off v = u) :
    Does (.registerWrite m page off v) s u :=
  does_of (exec_registerWrite_ready hr h4 hg) (hw ▸ Safety.Same.refl _)

/-- A register write that a lock turns away leaves every unit alone (R394). -/
theorem does_registerWrite_locked {a : Nat}
    (hw : s.regWrite (masterCode m) 1 page off v = s.lockWrite (masterCode m) 1 a) :
    Does (.registerWrite m page off v) s s :=
  does_of (exec_registerWrite_ready hr h4 hg) (hw ▸ (kept_lockWrite s (masterCode m) 1 a).same)

/-- With no NV report due, a write that changes the common registers of its page alone leaves them so changed. -/
theorem completes_registerWrite_page {f : Page → Page} {P : Page → Prop} (hd : s.nv.ctrDue = false)
    (hw : s.regWrite (masterCode m) 1 page off v = s.setPage page f) (hp : P (f (s.page page))) :
    Completes (.registerWrite m page off v) s fun t => P (t.page page) := by
  refine ⟨_, ((exec_registerWrite_ready hr h4 hg).trans (congrArg finish hw)).trans (finish_clear _ hd), ?_⟩
  simpa [State.page, State.setPage] using hp

end

/-- A read of a register that is no snapshot origin, is held by no earlier read and has no effect of its own answers its
value (R403). -/
theorem completes_snapshotRead_plain {P : State → Prop} {w : Word} (ha : Answers s page m) (h4 : off.val % 4 = 0)
    (hw : s.regRead (masterCode m) page off = (w, s)) (hp : ∀ t : State, t.sys.reply = [w] → P t) :
    Completes (.snapshotRead m page off) s P := by
  have he : exec (.snapshotRead m page off) s = finish (s.setSys fun x => { x with reply := [w] }) := by
    rw [exec_snapshotRead, State.readAt_answers ha off.isLt h4, hw]
  refine completes_of he fun t hk => hp t ?_
  rw [hk.sys]; rfl

end Sys2Proof.Stated
end

section
/-! PROOFS. The obligations on the reset state, register writes and CHIP_ID. -/

namespace Sys2Proof.Settled

open Machine Stated

/-- After reset no interrupt source is eligible, none is claimed, and no request or line stands (R411, R414, R417). -/
theorem requestsFollow_reset : Safety.RequestsFollow State.reset := by
  have hmoved : State.reset.irq.moved = [] := rfl
  refine ⟨rfl, rfl, rfl, rfl, fun n hn => ?_⟩
  rw [hmoved] at hn
  exact absurd hn List.not_mem_nil

/-- Settles O4: every table of the reset state is empty, so that each unit reads as its default. -/
theorem powerOnLeavesReset : Obligations.PowerOnLeavesReset := by
  unfold Obligations.PowerOnLeavesReset
  refine ⟨rfl, fun _ => rfl, fun _ => rfl, fun _ => rfl, fun _ _ => rfl, fun _ _ => rfl, fun _ _ => rfl, fun _ => rfl,
    fun _ => rfl, fun _ => rfl, fun _ => rfl, fun _ => rfl, rfl, rfl, rfl, rfl, fun _ => rfl, rfl, rfl, rfl, rfl, rfl,
    rfl, requestsFollow_reset⟩

/-- Settles O34, by the class of the register at the offset. -/
theorem registerWritesAct : Obligations.RegisterWritesAct := by
  unfold Obligations.RegisterWritesAct
  intro m page off v s p k o a c locked hr h4
  refine ⟨fun hk => does_registerWrite hr h4 (.inr hk) (s.regWrite_absent hk), fun hk => ?_⟩
  have does {u : State} (hg : o ≠ 0x900) (hw : s.regWrite (masterCode m) 1 p o v = u) : Does c s u :=
    does_registerWrite hr h4 (.inl hg) hw
  have turnedAway {addr : Nat} (hg : o ≠ 0x900)
      (hw : s.regWrite (masterCode m) 1 p o v = s.lockWrite (masterCode m) 1 addr) : Does c s s :=
    does_registerWrite_locked hr h4 (.inl hg) hw
  refine ⟨fun hdue => ⟨fun ho => ?event, fun ho => ?pageFault⟩, fun ho => ?evtCtrl, fun ho => ?eventEn,
    fun hlo hhi => ?activeSet, fun hlo hhi ht => ?readOnly,
    fun hlo hhi hi hm => ⟨fun hl => ?shadow, fun hp hl => ?shadowLocked⟩,
    fun ho hosc => ?cmdArg, fun hlo hhi hks => ?directControl⟩
  case event =>
    exact completes_registerWrite_page (P := fun g => g.event = (s.page p).event &&& ~~~v) hr h4 (.inl (by omega)) hdue
      (ho ▸ s.regWrite_event hk) rfl
  case pageFault =>
    exact completes_registerWrite_page (P := fun g => g.fault = (s.page p).fault &&& ~~~v) hr h4 (.inl (by omega)) hdue
      (ho ▸ s.regWrite_pageFault hk) rfl
  case evtCtrl => exact does (by omega) (ho ▸ s.regWrite_evtCtrl hk)
  case eventEn => exact does (by omega) (ho ▸ s.regWrite_eventEn hk)
  case activeSet => exact does (by omega) (s.regWrite_activeSet hk h4 hlo hhi)
  case readOnly => exact does (by omega) (s.regWrite_readOnly hk h4 hlo hhi ht)
  case shadow => exact does (by omega) ((s.regWrite_shadowSet hk h4 hlo hhi).trans (s.writeShadow_open hm hi hl))
  case shadowLocked =>
    exact turnedAway (by omega) ((s.regWrite_shadowSet hk h4 hlo hhi).trans (s.writeShadow_locked hm hp hl))
  case cmdArg => exact does (by omega) (ho ▸ s.regWrite_cmdArg hk hosc)
  case directControl =>
    have hfault : k ≠ .fault := fun h => hks (by simp [h])
    have hosc : k ≠ .osc := fun h => hks (by simp [h])
    have hw := s.regWrite_direct (m := masterCode m) (access := 1) hk h4 hlo hhi
      (isGuarded_eq_false (v := v) (by omega) (by omega) (.inl hfault) (.inl hosc))
    exact ⟨fun hl => does (by omega) (hw.trans (s.writeDirect_open hks hl)),
      fun hp hl => turnedAway (by omega) (hw.trans (s.writeDirect_locked hp hl))⟩

/-- CHIP_ID is a constant, no snapshot origin, and reading it changes nothing (R6, R403). -/
theorem regRead_chipId {s : State} {k : Nat} (h : s.heldWord 0x00 k 0x40 = none) :
    s.regRead k 0x00 0x40 = (0x3240B100, s) := by
  have hkind : pageKind 0x00 = .sys := rfl
  have hgroup : snapGroup .sys 0x40 = [] := rfl
  simp [State.regRead, hkind, h, State.regValue, State.unitValue, State.sysValue, State.hold, hgroup, State.afterRead]

/-- Settles O50, by the value and the frame of that read. -/
theorem chipIdReads : Obligations.ChipIdReads := by
  unfold Obligations.ChipIdReads
  intro m s ha hheld
  exact completes_snapshotRead_plain ha rfl (regRead_chipId hheld) fun t ht =>
    ⟨_, ht, rfl, by decide, by decide, by decide⟩

end Sys2Proof.Settled
end

section
/-! PROOFS. ROUND_BOUNDARY and the two counts of the round timer: the round count and the coarse count of the boundary
(R21). -/

namespace Sys2Proof.Machine

/-! ### The mark of the round timer -/

namespace Osc

variable {before o : Osc}

/-- The mark leaves the round timer running or stopped as it is. -/
@[simp] theorem marked_running : (marked before o).running = o.running := by
  unfold marked
  split <;> rfl

/-- A running round timer shows the round after that of `before`. -/
theorem marked_count (h : o.running = true) : (marked before o).count = before.count + 1 := by
  simp [marked, h, next]

/-- A running round timer shows the next boundary one round on; that of count 0 is the first one itself. -/
theorem marked_bnd (h : o.running = true) :
    (marked before o).bnd = if before.count = 0 then before.bnd else before.bnd + roundLen := by
  simp [marked, h, next]

end Osc

/-! ### The boundary -/

variable {s : State} {env : RoundEnv}

/-- Whatever the ordered actions of a boundary do, the round timer ends marked from where it stood before them. -/
theorem State.roundBoundary_osc (h : s.roundsRun = true) :
    ∃ o, (s.roundBoundary env).osc = Osc.marked s.osc o := by
  unfold State.roundBoundary
  rw [if_neg (by simp [h])]
  exact ⟨_, State.setOsc_osc _ _⟩

/-- A state in which rounds do not run has no boundary. -/
theorem State.roundBoundary_idle (h : s.roundsRun = false) : s.roundBoundary env = s := by
  unfold State.roundBoundary
  rw [if_pos h]

end Sys2Proof.Machine
end

section
/-! PROOFS. The obligation on ROUND_BOUNDARY. -/

namespace Sys2Proof.Settled

open Machine Stated

theorem exec_roundBoundary {env : RoundEnv} {s : State} :
    exec (.roundBoundary env) s = finish (s.roundBoundary env) := rfl

/-- Settles O49: the mark is the boundary's last act on the round timer, and the end of the command leaves it alone. -/
theorem boundariesCountRounds : Obligations.BoundariesCountRounds := by
  unfold Obligations.BoundariesCountRounds
  intro env s
  refine ⟨fun hrun => completes_of exec_roundBoundary fun t hkept hgoes => ?runs, fun hrun => ?idle⟩
  case runs =>
    obtain ⟨o, hmark⟩ := s.roundBoundary_osc (env := env) hrun
    have hosc : t.osc = Osc.marked s.osc o := hkept.osc.trans hmark
    have hgoes : o.running = true := by simpa [hosc] using hgoes
    exact hosc ▸ ⟨Osc.marked_count hgoes, Osc.marked_bnd hgoes⟩
  case idle =>
    exact does_of (exec_roundBoundary.trans (congrArg finish (State.roundBoundary_idle hrun))) (Safety.Same.refl s)

end Sys2Proof.Settled
end

section
/-! PROOFS. Stamping channels (chapter 02): the end of a test, changes of state, and what STAMP commands do at their
boundary (R45, R60, R64 to R67). -/

namespace Sys2Proof.Safety.Kept

open Machine

variable {s t : State}

theorem chan (h : Kept s t) (k : Nat) : t.chan k = s.chan k := by simp [State.chan, h.chans]
theorem dom (h : Kept s t) (d : Nat) : t.dom d = s.dom d := by simp [State.dom, h.doms]

end Sys2Proof.Safety.Kept

namespace Sys2Proof.Machine

variable (s : State) {k : Nat} {st : ChState}

/-! ### Tests and changes of state -/

@[simp] theorem State.closeTest_chan (r : Nat) :
    (s.closeTest k r).chan k = { s.chan k with test := none, testResult := r } := by simp [State.closeTest]

@[simp] theorem State.closeTest_fault (r : Nat) : (s.closeTest k r).fault = s.fault := rfl

/-- Without a test in progress there is none to abort. -/
theorem State.abortTest_idle (h : (s.chan k).test = none) : s.abortTest k = s := by simp [State.abortTest, h]

theorem State.abortTest_interp (b : Bool) : ((s.abortTest k).chan k).interp b = (s.chan k).interp b := by
  unfold State.abortTest
  split
  · simp [Chan.interp]
  · rfl

/-- An aborted test touches of the stamp clock only the memory of the last test (R67). -/
theorem State.abortTest_osc : ∃ b, (s.abortTest k).osc = { s.osc with lastTestFail := b } := by
  unfold State.abortTest
  split
  · exact ⟨false, rfl⟩
  · exact ⟨s.osc.lastTestFail, rfl⟩

@[simp] theorem State.chTo_state : ((s.chTo k st).chan k).state = st := by
  unfold State.chTo
  split
  · assumption
  · simp

/-- A change of state leaves both interpolators alone. -/
@[simp] theorem State.chTo_interp (b : Bool) : ((s.chTo k st).chan k).interp b = (s.chan k).interp b := by
  unfold State.chTo
  split
  · rfl
  · simpa [Chan.interp] using s.abortTest_interp b

/-- A change of state of a channel without a test leaves its test fields alone. -/
theorem State.chTo_idle (h : (s.chan k).test = none) :
    ((s.chTo k st).chan k).test = none ∧ ((s.chTo k st).chan k).testResult = (s.chan k).testResult := by
  unfold State.chTo
  rw [s.abortTest_idle h]
  split <;> simp [h]

theorem State.abortTest_fault : (s.abortTest k).fault = s.fault := by
  unfold State.abortTest
  split <;> rfl

@[simp] theorem State.chTo_fault : (s.chTo k st).fault = s.fault := by
  unfold State.chTo
  split
  · rfl
  · exact s.abortTest_fault

/-- A change of state of a channel leaves the clock itself alone. -/
theorem State.chTo_osc : ∃ b, (s.chTo k st).osc = { s.osc with lastTestFail := b } := by
  unfold State.chTo
  split
  · exact ⟨s.osc.lastTestFail, rfl⟩
  · exact s.abortTest_osc

/-! ### The effects of commands -/

/-- A channel that starts is in STARTING. -/
@[simp] theorem State.startChan_state : ((s.startChan k).chan k).state = .starting := by simp [State.startChan]

end Sys2Proof.Machine

namespace Sys2Proof.Stated

open Machine

variable {s : State} {c : Instr} {m : Master} {ch : Fin 48}

/-- Of what a STAMP command may be refused for, only the argument, a busy page or test and the state occur (R65). -/
theorem stampChecks_result {code : Nat} {a : Word} (hidle : Idle s (stampPage ch)) (htest : (s.chan ch).test = none)
    (harg : (s.stampChecks ch code a).arg = false) (hstate : (s.stampChecks ch code a).state = false) :
    (s.stampChecks ch code a).result = 0 := by
  have hbusy : s.busy (stampPage ch) = false := congrArg Option.isSome hidle
  have hrest : (s.stampChecks ch code a).busy = false ∧ (s.stampChecks ch code a).lock = false ∧
      (s.stampChecks ch code a).role = false ∧ (s.stampChecks ch code a).party = false := by
    unfold State.stampChecks
    dsimp only
    split <;> simp [hbusy, htest]
  simp [Checks.result, harg, hrest, hstate]

/-- A pending STAMP command whose channel is in a state that allows it takes effect: at the boundary only the state is
checked again (R507). -/
theorem stampApply_pending {q : CmdPend} (hpend : (s.page (stampPage ch)).pend = some q)
    (hstate : (s.stampChecks ch q.code q.arg).state = false) :
    ∃ g, s.stampApply ch = State.stampEffect ch q { s with pages := g } := by
  have hagain : { s.stampChecks ch q.code q.arg with busy := false }.again = 0 := by
    have hrest : (s.stampChecks ch q.code q.arg).lock = false ∧ (s.stampChecks ch q.code q.arg).role = false := by
      unfold State.stampChecks
      dsimp only
      split <;> simp
    simp [Checks.again, hrest, hstate]
  obtain ⟨v, hv, g, rfl⟩ := settle_of (f := State.stampEffect ch) hpend hagain
  exact ⟨g, by simpa only [State.stampApply, hpend] using hv⟩

/-- A STAMP command with a good argument, in a state that allows it, waits, and takes effect at the boundary of a state
that allows it. -/
theorem waits_stamp {code : Nat} {legal : State → Prop} {effect : State → State → Prop}
    (hr : Ready s (stampPage ch) m) (hidle : Idle s (stampPage ch)) (htest : (s.chan ch).test = none)
    (he : exec c s = finish (s.stampCommand ch m code)) (hcode : code < 256)
    (harg : (s.stampChecks ch code (s.arg (stampPage ch) (masterCode m))).arg = false) (hs : legal s)
    (hstate : ∀ u a, legal u → (u.stampChecks ch code a).state = false)
    (hb : ∀ u v : State, v.chan ch = u.chan ch → effect u
      (State.stampEffect ch (waiting s (stampPage ch) m code (s.arg (stampPage ch) (masterCode m))) v)) :
    Waits c s (stampPage ch) m code (s.arg (stampPage ch) (masterCode m)) (State.stampApply · ch) legal effect := by
  refine waits_submit hr he rfl (stampChecks_result hidle htest harg (hstate s _ hs)) hcode fun u hpend hlegal => ?_
  obtain ⟨g, happly⟩ := stampApply_pending hpend (hstate u _ hlegal)
  exact happly ▸ hb u { u with pages := g } rfl

end Sys2Proof.Stated
end

section
/-! PROOFS. The obligation on STAMP commands. -/

namespace Sys2Proof.Settled

open Machine Stated

/-- Settles O6: for each command, its argument is good, its states allow it, and its effect on the channel follows. -/
theorem stampCommandsTakeEffect : Obligations.StampCommandsTakeEffect := by
  unfold Obligations.StampCommandsTakeEffect
  intro ch m s p a hr hidle htest
  refine ⟨fun h47 hst => ?enable, fun h47 hst huse => ?disable, fun h32 hst => ?predivSync, fun h47 hn hst => ?test,
    fun hst huse => ?retry, fun hst => ?linRestart⟩
  case enable =>
    refine waits_stamp hr hidle htest rfl (by decide) (by simpa [State.stampChecks] using h47) hst (fun u a hu => ?_)
      fun u v hv => ?_
    · simp [State.stampChecks, hu]
    · simp [State.stampEffect, waiting]
  case disable =>
    refine waits_stamp hr hidle htest rfl (by decide) (by simpa [State.stampChecks] using h47) ⟨hst, huse⟩
      (fun u a hu => ?_) fun u v hv => ?_
    · simp [State.stampChecks, hu]
    · simp [State.stampEffect, waiting]
  case predivSync =>
    refine waits_stamp hr hidle htest rfl (by decide) (by simpa [State.stampChecks] using h32) hst (fun u a hu => ?_)
      fun u v hv => ?_
    · rcases hu with hst | hst <;> simp [State.stampChecks, hst]
    · simp [State.stampEffect, waiting, hv]
  case test =>
    refine waits_stamp hr hidle htest rfl (by decide) (by simpa [State.stampChecks] using ⟨h47, hn⟩) hst
      (fun u a hu => ?_) fun u v hv => ?_
    · rcases hu with hst | hst <;> simp [State.stampChecks, hst]
    · simp [State.stampEffect, waiting, a, p]
  case retry =>
    refine waits_stamp hr hidle htest rfl (by decide) rfl ⟨hst, huse⟩ (fun u a hu => ?_) fun u v hv => ?_
    · obtain ⟨hst | hst, huse⟩ := hu <;> simp [State.stampChecks, hst, huse]
    · simp [State.stampEffect, waiting]
  case linRestart =>
    refine waits_stamp hr hidle htest rfl (by decide) rfl hst (fun u a hu => ?_) fun u v hv => ?_
    · simp [State.stampChecks, hu]
    · simp [State.stampEffect, waiting]

end Sys2Proof.Settled
end

section
/-! PROOFS. F events (R422, R423, R433): FATAL stands on both targets after one, and every domain that takes the F
reaction is due in SAFE. -/

namespace Sys2Proof.Machine

open Safety

variable (s : State)

/-! ### FATAL -/

/-- FATAL stands on both targets (R418). -/
def State.fatalStands (s : State) : Bool := s.irq.fatalC && s.irq.fatalG

theorem State.fatalStands_iff : s.fatalStands = true ↔ s.irq.fatalC = true ∧ s.irq.fatalG = true :=
  Bool.and_eq_true_iff

@[simp] theorem State.latchFatal_fatalStands : s.latchFatal.fatalStands = true := rfl

@[simp] theorem State.storeRec_fatalStands (r : FaultRec) : (s.storeRec r).fatalStands = s.fatalStands := by
  unfold State.storeRec
  dsimp only
  split
  · rfl
  · split <;> rfl

@[simp] theorem State.logRecord_fatalStands (r : FaultRec) : (s.logRecord r).fatalStands = s.fatalStands := by
  unfold State.logRecord
  dsimp only
  repeat' split
  all_goals rfl

@[simp] theorem State.collectC_fatalStands (e : Event) : (s.collectC e).fatalStands = s.fatalStands := by
  unfold State.collectC
  dsimp only
  split
  · rfl
  · exact State.storeRec_fatalStands _ _

@[simp] theorem State.protectWrite_fatalStands (m a x : Nat) : (s.protectWrite m a x).fatalStands = s.fatalStands :=
  State.collectC_fatalStands _ _

@[simp] theorem State.nvWrite_fatalStands (a : Nat) (ws : List Nat) : (s.nvWrite a ws).fatalStands = s.fatalStands := by
  unfold State.nvWrite
  split <;> rfl

@[simp] theorem State.nvIncrement_fatalStands (a : Nat) : (s.nvIncrement a).fatalStands = s.fatalStands := by
  unfold State.nvIncrement
  split
  · exact State.nvWrite_fatalStands _ _ _
  · exact State.nvWrite_fatalStands _ _ _
  · rfl

@[simp] theorem State.deviceCounter_fatalStands (k : Nat) : (s.deviceCounter k).fatalStands = s.fatalStands := by
  unfold State.deviceCounter
  dsimp only
  repeat' split
  all_goals simp

@[simp] theorem State.castleRequest_fatalStands (c : Nat) : (s.castleRequest c).fatalStands = s.fatalStands := by
  unfold State.castleRequest
  repeat' split
  all_goals rfl

/-! ### The F reaction -/

/-- Holding outputs touches the outputs alone. -/
theorem State.holdOuts_eq (f : Out → Out) (js : List Nat) :
    ∃ g, js.foldl (fun s j => s.setOut j f) s = { s with outs := g } :=
  List.foldlRecOn (motive := fun t : State => ∃ g, t = { s with outs := g }) js _ ⟨s.outs, rfl⟩
    fun _ ⟨_, h⟩ _ _ => h ▸ ⟨_, rfl⟩

@[simp] theorem State.castleRequest_doms (c : Nat) : (s.castleRequest c).doms = s.doms := by
  unfold State.castleRequest
  repeat' split
  all_goals rfl

/-- A domain in INIT takes no F reaction (R433). -/
theorem State.fReaction_init {id d : Nat} (h : s.isInit d = true) : s.fReaction id d = s := by
  simp [State.fReaction, h]

/-- The F reaction on a domain that is not in INIT: of the domains, it makes that one due in SAFE (R433). -/
theorem State.fReaction_dom {id d : Nat} (h : s.isInit d = false) (i : Nat) :
    (s.fReaction id d).dom i =
      if i = d then { s.dom d with safePend := some ((s.dom d).safePend.getD id) } else s.dom i := by
  obtain ⟨g, hg⟩ := s.holdOuts_eq holdForSafe (s.domOuts d)
  unfold State.fReaction
  rw [if_neg (by simp [h]), hg]
  exact (congrArg (fun t => tget (fun _ => Dom.zero) t i) (State.castleRequest_doms _ _)).trans
    (State.setDom_dom { s with outs := g } i d _)

@[simp] theorem State.fReaction_fatalStands (id d : Nat) : (s.fReaction id d).fatalStands = s.fatalStands := by
  obtain ⟨g, hg⟩ := s.holdOuts_eq holdForSafe (s.domOuts d)
  unfold State.fReaction
  rw [hg]
  split
  · rfl
  · exact State.castleRequest_fatalStands _ _

@[simp] theorem State.fReactions_fatalStands (id : Nat) (ds : List Nat) :
    (s.fReactions id ds).fatalStands = s.fatalStands :=
  List.foldlRecOn (motive := fun t : State => t.fatalStands = s.fatalStands) _ _ rfl fun t h d _ =>
    (t.fReaction_fatalStands id d).trans h

/-- An F reaction leaves the state of every domain alone. -/
theorem State.fReaction_isInit (id d i : Nat) : (s.fReaction id d).isInit i = s.isInit i := by
  unfold State.isInit
  rw [← (Reported.fReaction s id d).dom i]

/-- A domain that is due in SAFE stays so. -/
theorem State.fReaction_safePend {id d i : Nat} (h : (s.dom i).safePend.isSome = true) :
    ((s.fReaction id d).dom i).safePend.isSome = true := by
  cases hd : s.isInit d with
  | true => rwa [s.fReaction_init hd]
  | false =>
    rw [s.fReaction_dom hd]
    split
    · rfl
    · exact h

theorem State.fReactions_safePend {id i : Nat} (ds : List Nat) (h : (s.dom i).safePend.isSome = true) :
    ((s.fReactions id ds).dom i).safePend.isSome = true :=
  List.foldlRecOn (motive := fun t : State => (t.dom i).safePend.isSome = true) ds _ h fun t h _ _ =>
    t.fReaction_safePend h

/-- Every domain of an F reaction that is not in INIT is due in SAFE after it (R433). -/
theorem State.fReactions_due {id i : Nat} {ds : List Nat} (hi : i ∈ ds) (hinit : s.isInit i = false) :
    ((s.fReactions id ds).dom i).safePend.isSome = true := by
  induction ds generalizing s with
  | nil => cases hi
  | cons d ds ih =>
    rcases List.mem_cons.mp hi with rfl | hi
    · refine State.fReactions_safePend (s.fReaction id i) ds ?_
      simp [s.fReaction_dom hinit]
    · exact ih (s.fReaction id d) hi ((s.fReaction_isInit id d i).trans hinit)

/-! ### The F event -/

variable (e : Event) (escalated : Bool)

/-- An F record latches FATAL on both targets (R418, R422). -/
@[simp] theorem State.fatal_fatalStands : (s.fatal e escalated).fatalStands = true := by simp [State.fatal]

/-- An F event makes every domain due in SAFE that its source's table names and that is not in INIT. -/
theorem State.fatal_due {i : Nat} (hd : ∀ u : State, u.doms = s.doms → i ∈ u.reactDoms e.page e.bit e.pairs)
    (hinit : s.isInit i = false) : ((s.fatal e escalated).dom i).safePend.isSome = true := by
  have hkept := ((((Kept.storeRec s (s.mkRec e 2 escalated)).trans (Kept.nextFree _)).trans (Kept.latchFatal _)).trans
    (Kept.logRecord _ (s.mkRec e 2 escalated))).trans (Kept.deviceCounter _ 2)
  refine State.fReactions_due _ (hd _ hkept.doms) ?_
  rwa [State.isInit, hkept.dom]

/-! ### FATAL at the end of a command -/

theorem State.escalate_fatalStands : (s.escalate e).fatalStands = true := by
  have hfatal := ((s.bump 0x03 0xA18).event 0x03 3).fatal_fatalStands e true
  unfold State.escalate State.escalateExtra
  dsimp only
  split
  · exact hfatal
  · split
    · exact (State.castleRequest_fatalStands _ _).trans hfatal
    · exact hfatal
  · exact hfatal

/-- A check window clears no FATAL (R429, R432). -/
theorem State.check_fatalStands (h : s.fatalStands = true) : (s.check e).fatalStands = true := by
  unfold State.check
  dsimp only
  split
  · exact h
  · split
    · exact h
    · exact State.escalate_fatalStands _ _

/-- A U event of a source without a fencing clears no FATAL (R422, R429, R436). -/
theorem State.collectU_fatalStands (hfence : ∀ u : State, u.fence e.page e.bit e.ctx (e.pairs.headD 0) = u)
    (h : s.fatalStands = true) : (s.collectU e).fatalStands = true := by
  have hrecord (r : FaultRec) : (((s.faultBit e.page e.bit).storeRec r).nextFree.logRecord r).fatalStands = true :=
    (State.logRecord_fatalStands _ r).trans ((State.storeRec_fatalStands (s.faultBit e.page e.bit) r).trans h)
  unfold State.collectU
  dsimp only
  split
  · rw [hfence]
    exact hrecord _
  · split
    · exact hrecord _
    · exact State.check_fatalStands _ _ (hrecord _)

/-- A report of an invalid NV counter clears no FATAL (R457, R466). -/
theorem State.nvDue_fatalStands (h : s.fatalStands = true) : s.nvDue.fatalStands = true := by
  unfold State.nvDue
  split
  · exact State.collectU_fatalStands _ { page := 0x05, bit := 3 } (fun _ => rfl) h
  · exact h

theorem State.settle_fatalStands (b : Bool) : (s.settle b).fatalStands = s.fatalStands := by
  simp [State.fatalStands]

end Sys2Proof.Machine

namespace Sys2Proof.Stated

open Machine

/-- A meaning that ends in a state in which FATAL stands completes with what every state shows that is this one but for
records and requests and in which FATAL stands. -/
theorem completes_fatal {s w : State} {c : Instr} {P : State → Prop} (he : exec c s = finish w)
    (hf : w.fatalStands = true) (hp : ∀ t, Safety.Kept w t → t.fatalStands = true → P t) : Completes c s P :=
  ⟨_, he.trans (finish_next w), hp _ ((Safety.Kept.nvDue w).trans (Safety.Kept.settle _ _))
    ((State.settle_fatalStands _ _).trans (w.nvDue_fatalStands hf))⟩

end Sys2Proof.Stated
end

section
/-! PROOFS. The timebase loop and the stamp clock (R38 to R42): entry of a state, the first lock, the lost lock. -/

namespace Sys2Proof.Machine

open Safety

variable (s : State)

/-! ### The timebase loop (R40) -/

theorem State.tbFollow_slewing (h : s.osc.tb = .slewing) (hsrc : s.osc.tbSrc ≠ 0) : s.tbFollow = s.tbTo .following :=
  if_pos ⟨h, hsrc⟩

theorem State.tbFreeze_loss (h : s.osc.tb = .slewing ∨ s.osc.tb = .following) (hsrc : s.osc.tbSrc ≠ 0) :
    s.tbFreeze = (s.tbTo .frozen).raise oscPage 2 :=
  if_pos ⟨h, hsrc⟩

theorem State.tbThaw_frozen (h : s.osc.tb = .frozen) : s.tbThaw = s.tbTo .slewing := if_pos h

theorem State.tbHome_done (h : s.osc.tb = .slewing) (hsrc : s.osc.tbSrc = 0) (hterm : s.osc.tbTerm = 0) :
    s.tbHome = s.tbTo .crystal :=
  if_pos ⟨h, hsrc, hterm⟩

/-! ### Lock (R41) -/

@[simp] theorem State.openImage_osc : s.openImage.osc = s.osc := by
  unfold State.openImage
  repeat' split
  all_goals rfl

@[simp] theorem State.openImage_chan (k : Nat) : s.openImage.chan k = s.chan k := by
  unfold State.openImage
  repeat' split
  all_goals rfl

theorem State.sclkLocks_again {n : Nat} (hstart : s.boot.started = true) (hdormant : s.dormant = false)
    (hlock : s.osc.sclkLock = false) (hrun : s.osc.running = true) :
    s.sclkLocks n = s.setOsc fun o => { o with sclkLock := true } := by
  simp [State.sclkLocks, hstart, hdormant, hlock, hrun]

theorem State.sclkLocks_first {n : Nat} (hstart : s.boot.started = true) (hdormant : s.dormant = false)
    (hlock : s.osc.sclkLock = false) (hrun : s.osc.running = false) : s.sclkLocks n = s.firstLock n := by
  simp [State.sclkLocks, hstart, hdormant, hlock, hrun]

/-- The first lock starts the coarse count and the round timer (R41). -/
theorem State.firstLock_osc (n : Nat) : ∃ b, (s.firstLock n).osc =
    { s.osc with sclkLock := true, running := true, bnd := n, count := 0, lastTestFail := b } := by
  let u := s.setOsc fun o => { o with sclkLock := true, running := true, bnd := n, count := 0 }
  obtain ⟨b, hb⟩ := u.chTo_osc (k := 47) (st := .run)
  refine ⟨b, Eq.trans ?_ hb⟩
  unfold State.firstLock
  dsimp only
  split
  · rfl
  · exact State.openImage_osc _

/-- The first lock brings SC[47] to RUN, stamping (R71). -/
theorem State.firstLock_chan (n : Nat) :
    ((s.firstLock n).chan 47).state = .run ∧ ((s.firstLock n).chan 47).stamping = true := by
  unfold State.firstLock
  dsimp only
  split <;> simp

/-! ### Lost lock (R42) -/

/-- OSC_SCLK_UNLOCK clears SCLK_LOCK and is an F event (R42, R71). -/
theorem State.detect_sclkUnlock : s.detect { page := oscPage, bit := 0 } =
    (((s.setOsc fun o => { o with sclkLock := false }).faultBit oscPage 0).fatal { page := oscPage, bit := 0 } false) :=
  rfl

/-- The domains that OSC_SCLK_UNLOCK concerns are all that are not in INIT. -/
theorem State.mem_reactDoms_sclkUnlock {d : Nat} (hd : d < 12) (hinit : s.isInit d = false) :
    d ∈ s.reactDoms oscPage 0 [] :=
  List.mem_filter.mpr ⟨List.mem_range.mpr hd, by simp [hinit]⟩

end Sys2Proof.Machine
end

section
/-! PROOFS. The obligation on the timebase loop and the stamp clock. -/

namespace Sys2Proof.Settled

open Machine Stated

/-- The collector leaves the timebase loop as a loss of its source leaves it: OSC_TB_SRC_LOSS is of class C (R71). -/
theorem same_raise_tbLoss (s : State) : Safety.Same s (s.raise oscPage 2) :=
  (Safety.Kept.collectC s { page := oscPage, bit := 2 }).same

/-- Settles O9: each event of the loop enters one state, the first lock starts the clock, and the lost lock is an F
event whose reaction takes every domain that is not in INIT. -/
theorem clockEventsTakeEffect : Obligations.ClockEventsTakeEffect := by
  unfold Obligations.ClockEventsTakeEffect
  intro s n into
  refine ⟨fun h hsrc => ?following, fun h hsrc => ?frozen, fun h => ?resume, fun h hsrc hterm => ?crystal,
    fun hstart hdormant hlock c hc => ?lock, ?recalibrate, fun hlock => ?unlock⟩
  case following => exact does_of rfl (s.tbFollow_slewing h hsrc ▸ Safety.Same.refl _)
  case frozen => exact does_of rfl (s.tbFreeze_loss h hsrc ▸ same_raise_tbLoss _)
  case resume => exact does_of rfl (s.tbThaw_frozen h ▸ Safety.Same.refl _)
  case crystal => exact does_of rfl (s.tbHome_done h hsrc hterm ▸ Safety.Same.refl _)
  case lock =>
    have he : exec c s = finish (s.sclkLocks n) := by
      simp only [List.mem_cons, List.not_mem_nil, or_false] at hc
      rcases hc with rfl | rfl <;> rfl
    refine ⟨fun hrun => ?_, fun hrun => ?_⟩
    · exact does_of he (s.sclkLocks_again hstart hdormant hlock hrun ▸ Safety.Same.refl _)
    · refine completes_of (he.trans (congrArg finish (s.sclkLocks_first hstart hdormant hlock hrun))) fun t hkept => ?_
      obtain ⟨b, hosc⟩ := s.firstLock_osc n
      obtain ⟨hstate, hstamping⟩ := s.firstLock_chan n
      simp [hkept.osc, hosc, hkept.chan, hstate, hstamping]
  case recalibrate => exact does_of rfl (Safety.Same.refl s)
  case unlock =>
    let u := (s.setOsc fun o => { o with sclkLock := false }).faultBit oscPage 0
    have he : exec .oscSclkUnlock s = finish (u.fatal { page := oscPage, bit := 0 } false) :=
      congrArg finish ((if_pos hlock).trans s.detect_sclkUnlock)
    refine completes_fatal he (u.fatal_fatalStands _ _) fun t hkept hfatal => ?_
    obtain ⟨hfatalC, hfatalG⟩ := t.fatalStands_iff.mp hfatal
    have hosc := hkept.osc.trans (Safety.Reported.fatal u { page := oscPage, bit := 0 } false).osc
    refine ⟨hosc, hfatalC, hfatalG, fun d hd hinit => ?_⟩
    rw [hkept.dom]
    have hlive : u.isInit d = false := by simpa [State.isInit, u] using hinit
    refine u.fatal_due _ _ (fun v hv => v.mem_reactDoms_sclkUnlock hd ?_) hlive
    simpa [State.isInit, State.dom, hv] using hlive

end Sys2Proof.Settled
end

section
/-! PROOFS. Events of the stamping array (R43 to R50, R60, R64, R66, R230, R508): the four fates of a selected edge, the
end of STARTING and of a test, a complete histogram. -/

namespace Sys2Proof.Machine

open Safety

variable (s : State) {k coarse raw : Nat} {falling : Bool}

/-! ### Edges of feedback dividers (R230) -/

/-- Only rising edges of channels 36 to 43 are counted. -/
theorem State.countEdge_none (h : k < 36 ∨ 44 ≤ k ∨ falling = true) : s.countEdge k coarse falling = s := if_pos h

/-- The first reported edge of a feedback divider counts one. -/
theorem State.countEdge_first (hlo : 36 ≤ k) (hhi : k < 44) (hrise : falling = false)
    (h : (s.syn (k - 36)).edgeAt = none) :
    ((s.countEdge k coarse falling).syn (k - 36)).edges = ((s.syn (k - 36)).edges + 1) % 2 ^ 64 := by
  have hcounts : ¬ (k < 36 ∨ 44 ≤ k ∨ falling = true) := by simp [hrise]; omega
  simp [State.countEdge, if_neg hcounts, h]

@[simp] theorem State.countEdge_chan (j : Nat) : (s.countEdge k coarse falling).chan j = s.chan j := by
  unfold State.countEdge
  split <;> rfl

@[simp] theorem State.countEdge_osc : (s.countEdge k coarse falling).osc = s.osc := by
  unfold State.countEdge
  split <;> rfl

@[simp] theorem State.countEdge_cfg (p o : Nat) : (s.countEdge k coarse falling).cfg p o = s.cfg p o := by
  unfold State.countEdge
  split <;> rfl

@[simp] theorem State.countEdge_edgeSelected (falling' : Bool) :
    (s.countEdge k coarse falling).edgeSelected k falling' = s.edgeSelected k falling' := by
  simp [State.edgeSelected]

/-! ### Stamps (R43, R47 to R50) -/

/-- The dead time runs while the last stop edge lies at most 5 periods back (R47, log entry 16). -/
theorem Chan.dead_iff (c : Chan) : c.dead coarse = true ↔ ∃ l, c.lastStop = some l ∧ coarse ≤ l + 5 := by
  cases h : c.lastStop <;> simp [Chan.dead, h]

/-- An edge of a channel that does not stamp, before the count starts, or that EDGE_SEL does not pass, does nothing. -/
theorem State.stampEdge_ignored
    (h : (s.chan k).stamping = false ∨ s.osc.running = false ∨ s.edgeSelected k falling = false) :
    s.stampEdge k coarse raw falling = s := if_pos h

/-- A full queue loses the stamp (R50, R54). -/
theorem State.writeEntry_full (h : queueDepth ≤ (s.chan k).queue.length) :
    s.writeEntry k coarse raw falling =
      ((s.setChan k fun c => { c with lost := true, lastStop := some coarse }).bump (stampPage k) 0xA10).event
        (stampPage k) 1 :=
  if_pos h

/-- A queue with room takes an entry of the stamp with SEQ, the missed count and the lost mark (R49, R50). -/
theorem State.writeEntry_room (h : (s.chan k).queue.length < queueDepth) :
    ∃ e : Entry, e.coarse = coarse ∧ e.raw = raw % 2 ^ 18 ∧ e.falling = falling ∧ e.seq = (s.chan k).seq ∧
      e.missCnt = (s.chan k).missed ∧ e.miss = ((s.chan k).missed != 0) ∧ e.ovf = (s.chan k).lost ∧
      s.writeEntry k coarse raw falling =
        (s.setChan k fun c => { c with
          lastStop := some coarse, queue := c.queue ++ [e], last := some e, seq := (c.seq + 1) % 256, missed := 0
          lost := false, peak := max c.peak (c.queue.length + 1) }).bump (stampPage k) 0xA00 :=
  ⟨_, rfl, rfl, rfl, rfl, rfl, rfl, rfl, if_neg (Nat.not_le.mpr h)⟩

section
variable (hstamps : (s.chan k).stamping = true) (hrun : s.osc.running = true) (hsel : s.edgeSelected k falling = true)
include hstamps hrun hsel

/-- The pre-divider counts a selected edge (R43). -/
theorem State.stampEdge_counted (hpre : (s.chan k).prediv ≠ 0) :
    s.stampEdge k coarse raw falling = s.setChan k fun c => { c with prediv := c.prediv - 1 } := by
  simp [State.stampEdge, hstamps, hrun, hsel, hpre]

variable (hpre : (s.chan k).prediv = 0) {l : List Nat}
include hpre

/-- An edge in the dead time is missed (R48). -/
theorem State.stampEdge_missed (hdead : ∃ l, (s.chan k).lastStop = some l ∧ coarse ≤ l + 5) :
    Same (s.setChan k fun c => { c with
      prediv := bits (s.cfg (stampPage k) 4) 23 0, missed := min (c.missed + 1) 511 })
      (s.stampEdge k coarse raw falling) l := by
  have hmiss : s.stampEdge k coarse raw falling =
      (((s.setChan k fun c => { c with prediv := bits (s.cfg (stampPage k) 4) 23 0 }).setChan k
        fun c => { c with missed := min (c.missed + 1) 511 }).bump (stampPage k) 0xA08).event (stampPage k) 3 := by
    simp [State.stampEdge, hstamps, hrun, hsel, hpre, (s.chan k).dead_iff.mpr hdead]
  exact hmiss ▸ (Same.setChan_twice rfl).trans ((Kept.bump _ _ _).trans (Kept.event _ _ _)).same

variable (hlive : ∀ l, (s.chan k).lastStop = some l → l + 5 < coarse)
include hlive

/-- Any other edge restarts the pre-divider and goes to the queue (R43, R49). -/
theorem State.stampEdge_stamped : s.stampEdge k coarse raw falling =
    (s.setChan k fun c => { c with prediv := bits (s.cfg (stampPage k) 4) 23 0 }).writeEntry k coarse raw falling := by
  have hdead : (s.chan k).dead coarse = false := by
    rw [← Bool.not_eq_true, Chan.dead_iff]
    exact fun ⟨l, hl, hle⟩ => absurd (hlive l hl) (by omega)
  simp [State.stampEdge, hstamps, hrun, hsel, hpre, hdead]

/-- A full queue loses the stamp (R50, R54). -/
theorem State.stampEdge_lost (hfull : queueDepth ≤ (s.chan k).queue.length) :
    Same (s.setChan k fun c => { c with
      prediv := bits (s.cfg (stampPage k) 4) 23 0, lost := true, lastStop := some coarse })
      (s.stampEdge k coarse raw falling) l := by
  rw [s.stampEdge_stamped hstamps hrun hsel hpre hlive, State.writeEntry_full _ (by simpa using hfull)]
  exact (Same.setChan_twice rfl).trans ((Kept.bump _ _ _).trans (Kept.event _ _ _)).same

/-- A queue with room takes the stamp's entry (R49, R50). -/
theorem State.stampEdge_written (hroom : (s.chan k).queue.length < queueDepth) :
    ∃ e : Entry, e.coarse = coarse ∧ e.raw = raw % 2 ^ 18 ∧ e.falling = falling ∧ e.seq = (s.chan k).seq ∧
      e.missCnt = (s.chan k).missed ∧ e.miss = ((s.chan k).missed != 0) ∧ e.ovf = (s.chan k).lost ∧
      Same (s.setChan k fun c => { c with
        prediv := bits (s.cfg (stampPage k) 4) 23 0, lastStop := some coarse, queue := c.queue ++ [e], last := some e
        seq := (c.seq + 1) % 256, missed := 0, lost := false, peak := max c.peak (c.queue.length + 1) })
        (s.stampEdge k coarse raw falling) l := by
  let u := s.setChan k fun c => { c with prediv := bits (s.cfg (stampPage k) 4) 23 0 }
  have hu : u.chan k = { s.chan k with prediv := bits (s.cfg (stampPage k) 4) 23 0 } := s.setChan_chan_self _ _
  obtain ⟨e, he⟩ := u.writeEntry_room (k := k) (coarse := coarse) (raw := raw) (falling := falling)
    (by simpa [hu] using hroom)
  rw [hu] at he
  rw [s.stampEdge_stamped hstamps hrun hsel hpre hlive]
  obtain ⟨hcoarse, hraw, hfalling, hseq, hmissCnt, hmiss, hovf, hwrite⟩ := he
  exact ⟨e, hcoarse, hraw, hfalling, hseq, hmissCnt, hmiss, hovf,
    hwrite ▸ (Same.setChan_twice rfl).trans (Kept.bump _ _ _).same⟩

end

/-! ### The end of STARTING (R508) -/

/-- The state that STARTING ends in, of the two interpolators (R508). -/
def startedState (goodA goodB : Bool) : ChState :=
  if goodA ∧ goodB then .run else if goodA ∨ goodB then .degraded else .fenced

/-- An interpolator has passed STARTING: accepted, without an offence that counts (R508). -/
def Interp.passed (i : Interp) : Bool := i.accepted && i.blame == 0

section
variable {u : State} (hnative : u.fault.compat = false)
include hnative

/-- A fault event in native mode, unless there is no cause for one, leaves every channel alone. -/
theorem State.unlessReport_chan {good : Bool} (e : Event) (j : Nat) :
    (if good then u else u.report e).chan j = u.chan j := by
  split
  · rfl
  · exact State.report_chan hnative j

theorem State.unlessReport_compat {good : Bool} (e : Event) :
    (if good then u else u.report e).fault.compat = false := by
  split
  · exact hnative
  · exact (State.report_compat hnative).trans hnative

theorem State.raise_chan (p b j : Nat) : (u.raise p b).chan j = u.chan j := State.report_chan hnative j

end

/-- The end of STARTING in native mode. -/
theorem State.startingEnds_state (hst : (s.chan k).state = .starting) (hnative : s.fault.compat = false) :
    ((s.startingEnds k).chan k).state = startedState (s.chan k).a.passed (s.chan k).b.passed := by
  unfold State.startingEnds
  rw [if_neg (by simp [hst])]
  dsimp only
  rw [State.unlessReport_chan (State.unlessReport_compat (by simpa using hnative) _),
    State.unlessReport_chan (by simpa using hnative)]
  simp [startedState, Interp.passed]

/-! ### The end of a test (R66, R67) -/

section
variable {x : ChTest} (htest : (s.chan k).test = some x)
include htest

/-- A passed test shows result 1. -/
theorem State.endTest_passed (hA : x.failA = false) (hB : x.failB = false) :
    (s.endTest k).chan k = { s.chan k with test := none, testResult := 1 } := by
  simp [State.endTest, htest, hA, hB]

variable (hfail : x.failA = true ∨ x.failB = true) (hnative : s.fault.compat = false)
include hfail hnative

/-- A failed test that follows a failed one of another channel shows result 2 and leaves the channel alone. -/
theorem State.endTest_again (hagain : (s.osc.lastTestFail && s.osc.lastTestChan != k) = true) :
    (s.endTest k).chan k = { s.chan k with test := none, testResult := 2 } := by
  unfold State.endTest
  simp only [htest, hagain, if_true, Bool.or_eq_true, if_pos hfail]
  exact (State.raise_chan (by simpa using hnative) _ _ _).trans (State.closeTest_chan _ _)

/-- Any other failed test shows result 2 and brings the channel to DEGRADED or FENCED (R64, R66). -/
theorem State.endTest_failed (hfirst : (s.osc.lastTestFail && s.osc.lastTestChan != k) = false) :
    ((s.endTest k).chan k).test = none ∧ ((s.endTest k).chan k).testResult = 2 ∧
      ((s.endTest k).chan k).state =
        if (s.chan k).state = .run ∧ ¬(x.failA = true ∧ x.failB = true) then .degraded else .fenced := by
  unfold State.endTest
  simp only [htest, hfirst, Bool.or_eq_true, if_pos hfail]
  rw [if_neg Bool.false_ne_true, State.raise_chan (by simpa using hnative)]
  exact ⟨(State.chTo_idle _ (by simp)).1.trans (by simp), (State.chTo_idle _ (by simp)).2.trans (by simp), by simp⟩

end

/-- What a channel shows after its test, by what the test found (R66, R67). -/
theorem State.endTest_outcome {x : ChTest} (htest : (s.chan k).test = some x) (hnative : s.fault.compat = false) :
    let c := (s.endTest k).chan k
    c.test = none ∧
      (x.failA = false ∧ x.failB = false → c.state = (s.chan k).state ∧ c.testResult = 1) ∧
      (x.failA = true ∨ x.failB = true → c.testResult = 2) ∧
      (x.failA = true ∨ x.failB = true → s.osc.lastTestFail = false → (s.chan k).state = .off →
        c.state = .fenced) ∧
      (x.failA ≠ x.failB → s.osc.lastTestFail = false → (s.chan k).state = .run → c.state = .degraded) := by
  by_cases hfail : x.failA = true ∨ x.failB = true
  · cases hagain : s.osc.lastTestFail && s.osc.lastTestChan != k with
    | true =>
      rw [s.endTest_again htest hfail hnative hagain]
      obtain ⟨hlast, -⟩ := Bool.and_eq_true_iff.mp hagain
      refine ⟨rfl, fun h => ?_, fun _ => rfl, fun _ h => ?_, fun _ h => ?_⟩
      · simp [h] at hfail
      · simp [hlast] at h
      · simp [hlast] at h
    | false =>
      obtain ⟨hnone, hresult, hstate⟩ := s.endTest_failed htest hfail hnative hagain
      refine ⟨hnone, fun h => ?_, fun _ => hresult, fun _ _ hoff => ?_, fun hne _ hrun => ?_⟩
      · simp [h] at hfail
      · exact hstate.trans (if_neg fun h => absurd (hoff.symm.trans h.1) (by decide))
      · exact hstate.trans (if_pos ⟨hrun, fun h => hne (h.1.trans h.2.symm)⟩)
  · simp only [not_or, Bool.not_eq_true] at hfail
    rw [s.endTest_passed htest hfail.1 hfail.2]
    simp [hfail]

/-! ### Linearity tables (R60) -/

section
variable (b : Bool) (f : Interp → Interp)

@[simp] theorem State.setInterp_fault : (s.setInterp k b f).fault = s.fault := rfl

@[simp] theorem State.setInterp_interp : ((s.setInterp k b f).chan k).interp b = f ((s.chan k).interp b) := by
  cases b <;> simp [State.setInterp, Chan.setInterp, Chan.interp]

@[simp] theorem State.setInterp_state : ((s.setInterp k b f).chan k).state = (s.chan k).state := by
  cases b <;> simp [State.setInterp, Chan.setInterp]

/-- An interpolator written twice reads as one written once. -/
theorem same_setInterp_twice {g h : Interp → Interp} {l : List Nat}
    (e : h ((s.chan k).interp b) = g (f ((s.chan k).interp b))) :
    Same (s.setInterp k b h) ((s.setInterp k b f).setInterp k b g) l := by
  refine Same.setChan_twice ?_
  cases b <;> simpa [Chan.setInterp, Chan.interp] using e

end

/-- SC[47] loses no interpolator (R64). -/
theorem State.excludeInterp_sc47 (b : Bool) : s.excludeInterp 47 b = s := if_pos rfl

/-- Any other channel that loses an interpolator in RUN is DEGRADED (R64). -/
theorem State.excludeInterp_run {b : Bool} (hk : k ≠ 47) (hst : (s.chan k).state = .run) :
    (((s.excludeInterp k b).chan k).interp b).excluded = true ∧ ((s.excludeInterp k b).chan k).state = .degraded := by
  simp [State.excludeInterp, hk, hst]

@[simp] theorem State.excludeInterp_fault (b : Bool) : (s.excludeInterp k b).fault = s.fault := by
  unfold State.excludeInterp
  split
  · rfl
  · dsimp only
    split <;> simp

section
variable {b : Bool} (htotal : ((s.chan k).interp b).hist.foldl (· + ·) 0 ≠ 0)
  (hin : ((s.chan k).interp b).excluded = false)
include htotal hin

/-- A complete histogram whose table lies within the limit leaves the table for adoption. -/
theorem State.linComplete_adopts (h : ∀ v ∈ linTable ((s.chan k).interp b).hist, v.natAbs ≤ 16384) :
    s.linComplete k b = (s.setInterp k b fun i => { i with hist := [], histRounds := 0 }).setInterp k b fun i =>
      { i with linNew := some (linTable ((s.chan k).interp b).hist) } := by
  have hany : ¬ ((linTable ((s.chan k).interp b).hist).any fun v => decide (16384 < v.natAbs)) = true := by
    simpa using h
  unfold State.linComplete
  rw [if_neg (by simp [htotal, hin]), if_neg hany]

/-- A complete histogram whose table leaves the limit excludes its interpolator (R60). -/
theorem State.linComplete_excludes (h : ∃ v ∈ linTable ((s.chan k).interp b).hist, 16384 < v.natAbs) :
    s.linComplete k b =
      ((s.setInterp k b fun i => { i with hist := [], histRounds := 0 }).excludeInterp k b).raise (stampPage k) 2 := by
  have hany : ((linTable ((s.chan k).interp b).hist).any fun v => decide (16384 < v.natAbs)) = true := by
    simpa using h
  unfold State.linComplete
  rw [if_neg (by simp [htotal, hin]), if_pos hany]

end

end Sys2Proof.Machine
end

section
/-! PROOFS. The obligation on the events of the stamping array. -/

namespace Sys2Proof.Settled

open Machine Stated Safety

variable {s : State} {ch : Fin 48} {coarse raw : Nat} {falling : Bool}

/-- STAMP_EVENT on a channel that events reach. -/
theorem exec_stampEvent (h : s.reachesChan ch = true) : exec (.stampEvent ch coarse raw falling) s =
    finish ((s.countEdge ch coarse falling).stampEdge ch coarse raw falling) :=
  congrArg finish (if_pos h)

/-- Settles O5: an edge has one of four fates, by the pre-divider, the dead time and the room in the queue; STARTING and
a test end by what the two interpolators did; a histogram's table waits or excludes its interpolator. -/
theorem stampArrayEventsTakeEffect : Obligations.StampArrayEventsTakeEffect := by
  unfold Obligations.StampArrayEventsTakeEffect
  intro ch coarse raw falling s c r
  refine ⟨s.countEdge_none, s.countEdge_first, fun hreach => ?unreached, fun hreach hign => ?ignored,
    fun hreach hstamps hrun hsel => ?selected, fun hst _ hnative => ?startingEnd, fun x htest hnative => ?testEnd,
    fun b htotal hin => ⟨fun hrange => ?tableWaits, fun hrange hnative hst _ => ?tableExcludes⟩⟩
  case unreached => exact does_of (congrArg finish (if_neg (by simp [hreach]))) (Same.refl s)
  case ignored =>
    have hr : r.stampEdge ch coarse raw falling = r := r.stampEdge_ignored (by simpa [r] using hign)
    exact does_of (exec_stampEvent hreach) (hr ▸ Same.refl r)
  case selected =>
    intro n
    have he : exec (.stampEvent ch coarse raw falling) s = finish (r.stampEdge ch coarse raw falling) :=
      exec_stampEvent hreach
    have hc : r.chan ch = c := s.countEdge_chan ch
    have hn : bits (r.cfg (stampPage ch) 4) 23 0 = n := congrArg (bits · 23 0) (s.countEdge_cfg _ _)
    replace hstamps : (r.chan ch).stamping = true := hc ▸ hstamps
    replace hrun : r.osc.running = true := s.countEdge_osc ▸ hrun
    replace hsel : r.edgeSelected ch falling = true := (s.countEdge_edgeSelected _).trans hsel
    clear_value c r n
    subst hc hn
    refine ⟨fun hpre => ?counted, fun hpre hdead => ?missed, fun hpre hlive hfull => ?lost,
      fun hpre hlive hroom => ?written⟩
    case counted => exact does_of he (r.stampEdge_counted hstamps hrun hsel hpre ▸ Same.refl _)
    case missed => exact does_of he (r.stampEdge_missed hstamps hrun hsel hpre hdead)
    case lost => exact does_of he (r.stampEdge_lost hstamps hrun hsel hpre hlive hfull)
    case written =>
      obtain ⟨e, hcoarse, hraw, hfalling, hseq, hmissCnt, hmiss, hovf, hsame⟩ :=
        r.stampEdge_written hstamps hrun hsel hpre hlive hroom
      exact ⟨e, hcoarse, hraw, hfalling, hseq, hmissCnt, hmiss, hovf, does_of he hsame⟩
  case startingEnd =>
    intro good
    refine completes_of rfl fun t hkept => ?_
    rw [hkept.chan, s.startingEnds_state hst hnative]
    have hgood (i : Interp) : i.passed = true ↔ good i := by simp [Interp.passed, good]
    clear_value good
    simp only [c, ← hgood]
    cases (s.chan ch).a.passed <;> cases (s.chan ch).b.passed <;> simp [startedState]
  case testEnd =>
    refine completes_of rfl fun t hkept => ?_
    rw [hkept.chan]
    exact s.endTest_outcome htest hnative
  case tableWaits =>
    exact does_of rfl (s.linComplete_adopts htotal hin hrange ▸ same_setInterp_twice s b _ rfl)
  case tableExcludes =>
    refine completes_of (congrArg finish (s.linComplete_excludes htotal hin hrange)) fun t hkept => ?_
    rw [hkept.chan, State.raise_chan (by simpa using hnative)]
    refine ⟨fun hch => State.excludeInterp_run _ hch (by simpa using hst), fun hch => ?_⟩
    rw [hch, State.excludeInterp_sc47, State.setInterp_state, ← hch]
    exact hst

end Sys2Proof.Settled
end

section
/-! PROOFS. Measurement contexts (R75 to R78, R85, R86, R92): gates and their posting, samples, and what TIM commands do at
their boundary. -/

namespace Sys2Proof.Safety

theorem Kept.tim {s t : Machine.State} (h : Kept s t) (k : Nat) : t.tim k = s.tim k := by
  simp [Machine.State.tim, h.tims]

end Sys2Proof.Safety

namespace Sys2Proof.Machine

/-! ### The open gate -/

/-- The last element of a list changes alone. -/
theorem modAt_concat {α : Type} (f : α → α) (l : List α) (a : α) :
    modAt f (l ++ [a]) ((l ++ [a]).length - 1) = l ++ [f a] := by
  have hlast : modAt f (l ++ [a]) l.length = l ++ [f a] := by
    induction l with
    | nil => rfl
    | cons b l ih => exact congrArg (b :: ·) ih
  simpa using hlast

theorem Tim.openGate_concat {t : Tim} {gs : List Gate} {g : Gate} (f : Gate → Gate) (h : t.gates = gs ++ [g]) :
    t.openGate f = { t with gates := gs ++ [f g] } := by
  unfold Tim.openGate
  rw [h, modAt_concat]

variable (s : State) {i : Nat} {c : TimCfg}

/-! ### Changes of state -/

section
variable (st : TimState)

/-- A change of state of a context touches nothing else of it. -/
@[simp] theorem State.timTo_tim : (s.timTo i st).tim i = { s.tim i with state := st } := by
  unfold State.timTo
  split
  · next h => rw [← h]
  · simp

@[simp] theorem State.timTo_harvest : (s.timTo i st).harvest = s.harvest := by
  unfold State.timTo
  split <;> rfl

@[simp] theorem State.timTo_timCfg (j : Nat) : (s.timTo i st).timCfg j = s.timCfg j := by
  unfold State.timTo
  split <;> rfl

end

@[simp] theorem State.setTim_timCfg (k j : Nat) (f : Tim → Tim) : (s.setTim k f).timCfg j = s.timCfg j := rfl

/-- A WAITING context with a good configuration begins gate 0 in RUNNING (R75, R91). -/
theorem State.beginTim_waiting (hst : (s.tim i).state = .waiting) (hgood : (s.timCfg i).bad = false) :
    ((s.beginTim i).tim i).state = .running ∧ ((s.beginTim i).tim i).gates = [Gate.new 0] := by
  unfold State.beginTim
  rw [if_neg (by simp [hst]), if_neg (by simp [hgood])]
  simp [State.firstGate]

/-! ### Posting (R76) -/

/-- A gate is complete: it has ended, and no start waits for its stop. -/
def Gate.complete (c : TimCfg) (g : Gate) : Bool := g.ended && (c.mode != 0 || g.a == [])

/-- A gate that begins is not complete. -/
@[simp] theorem Gate.complete_new (n : Nat) : (Gate.new n).complete c = false := rfl

/-- Gates that are posted stand with their results, in their order, for the end of the round. -/
theorem State.postGates_tim (gs : List Gate) :
    (gs.foldl (State.postGate c i) s).tim i = { s.tim i with due := (s.tim i).due ++ gs.map c.resultOf } := by
  induction gs generalizing s with
  | nil => simp
  | cons g gs ih => simp [ih, State.postGate]

/-- The complete gates at the head of the list are posted, and the others stay. -/
theorem State.postReady_tim : (s.postReady c i).tim i = { s.tim i with
    gates := (s.tim i).gates.dropWhile (Gate.complete c)
    due := (s.tim i).due ++ ((s.tim i).gates.takeWhile (Gate.complete c)).map c.resultOf } := by
  have hrest (l : List Gate) : l.drop (l.takeWhile (Gate.complete c)).length = l.dropWhile (Gate.complete c) :=
    (congrArg (List.drop _) (List.takeWhile_append_dropWhile (p := Gate.complete c)).symm).trans List.drop_left
  unfold State.postReady
  rw [State.postGates_tim, State.setTim_tim_self]
  simp only [← hrest]
  rfl

/-- The open gate ends and the next one begins; then what is complete is posted (R75, R76). -/
theorem State.nextGate_tim {gs : List Gate} {g : Gate} (h : (s.tim i).gates = gs ++ [g]) :
    let all := gs ++ [{ g with ended := true }, Gate.new (s.tim i).nextSeq]
    (s.nextGate c i).tim i = { s.tim i with
      gates := all.dropWhile (Gate.complete c), nextSeq := (s.tim i).nextSeq + 1
      due := (s.tim i).due ++ (all.takeWhile (Gate.complete c)).map c.resultOf } := by
  unfold State.nextGate
  rw [State.postReady_tim]
  simp [Tim.openGate_concat _ h]

/-- A gate that ends with no start waiting, and no gate before it, is posted. -/
theorem State.nextGate_posts {g : Gate} (h : (s.tim i).gates = [g]) (hdone : c.mode ≠ 0 ∨ g.a = []) :
    (s.nextGate c i).tim i = { s.tim i with
      gates := [Gate.new (s.tim i).nextSeq], nextSeq := (s.tim i).nextSeq + 1
      due := (s.tim i).due ++ [c.resultOf { g with ended := true }] } := by
  have hcomplete : Gate.complete c { g with ended := true } = true := by simpa [Gate.complete] using hdone
  rw [s.nextGate_tim (gs := []) h]
  simp [hcomplete]

/-- While the first gate has starts that wait, the gate that ends is only closed. -/
theorem State.nextGate_closes {gs r : List Gate} {g h : Gate} (hgates : (s.tim i).gates = gs ++ [g])
    (hhead : gs ++ [g] = h :: r) (hmode : c.mode = 0) (hwait : h.a ≠ []) :
    (s.nextGate c i).tim i = { s.tim i with
      gates := gs ++ [{ g with ended := true }, Gate.new (s.tim i).nextSeq], nextSeq := (s.tim i).nextSeq + 1 } := by
  have hopen (x : Gate) (hx : x.a ≠ []) : Gate.complete c x = false := by simp [Gate.complete, hmode, hx]
  rw [s.nextGate_tim hgates]
  cases gs with
  | nil =>
    obtain ⟨rfl, -⟩ := List.cons.inj hhead
    simp [hopen { g with ended := true } hwait]
  | cons x gs =>
    obtain ⟨rfl, -⟩ := List.cons.inj hhead
    simp [hopen x hwait]

theorem State.foldResult_tim (j k : Nat) (r : TimResult) : (s.foldResult j r).tim k = s.tim k := by
  unfold State.foldResult
  split <;> rfl

@[simp] theorem State.postResult_tim (r : TimResult) :
    (s.postResult i r).tim i = { s.tim i with result := r, done := true } := by
  simp [State.postResult, State.foldResult_tim]

/-- Of several results posted at once the last one stands. -/
theorem State.postResults_tim (rs : List TimResult) : (rs.foldl (State.postResult i) s).tim i =
    { s.tim i with result := rs.getLastD (s.tim i).result, done := (s.tim i).done || !rs.isEmpty } := by
  induction rs generalizing s with
  | nil => simp
  | cons r rs ih => simp [ih, List.getLast?_cons]

/-- At the end of a round a context shows the last of the results that were due. -/
theorem State.postDue_tim : (s.postDue i).tim i = { s.tim i with
    due := [], result := (s.tim i).due.getLastD (s.tim i).result, done := (s.tim i).done || !(s.tim i).due.isEmpty } := by
  unfold State.postDue
  simp [State.postResults_tim]

/-! ### The effects of commands (R92) -/

/-- START: the context waits, and begins at once without ALIGN. -/
def State.timStarts (s : State) (i : Nat) : State :=
  let t := (s.timTo i .waiting).setTim i fun t =>
    { t.clearStab with gates := [], stops := [], trackA := none, trackB := none }
  if (s.timCfg i).align then t else t.beginTim i

/-- STOP: the gate in progress is cut, and the context is IDLE. -/
def State.timStops (s : State) (i : Nat) : State :=
  (if (s.tim i).state = .running then s.cutGates (s.timCfg i) i flShort else s).timTo i .idle

/-- What a TIM command of page `p` of the two does. -/
def State.timEffect (p : Nat) (q : CmdPend) (s : State) : State :=
  let i := 48 * p + bits q.arg 5 0
  match q.code with
  | 1 => s.timStarts i
  | 2 => s.timStops i
  | _ => s.setTim i fun t => t.clearStab

/-- With ALIGN a context waits for the 1 s harvest boundary (R75). -/
theorem State.timStarts_aligned (halign : (s.timCfg i).align = true) :
    ((s.timStarts i).tim i).state = .waiting := by
  simp [State.timStarts, halign, Tim.clearStab]

/-- Without ALIGN a context begins gate 0 at once (R75). -/
theorem State.timStarts_unaligned (halign : (s.timCfg i).align = false) (hgood : (s.timCfg i).bad = false) :
    ((s.timStarts i).tim i).state = .running ∧ ((s.timStarts i).tim i).gates = [Gate.new 0] := by
  unfold State.timStarts
  rw [if_neg (by simp [halign])]
  exact State.beginTim_waiting _ (by simp [Tim.clearStab]) (by simpa using hgood)

@[simp] theorem State.timStops_state : ((s.timStops i).tim i).state = .idle := by simp [State.timStops]

end Sys2Proof.Machine

namespace Sys2Proof.Stated

open Machine

variable {s : State} {c : Instr} {m : Master} {p : Fin 2}

/-- TIM pages give no REFUSED_LOCK, REFUSED_ROLE or REFUSED_PARTY (R92). -/
theorem timChecks_open (code : Nat) (a : Word) : (s.timChecks p code a).lock = false ∧
    (s.timChecks p code a).role = false ∧ (s.timChecks p code a).party = false := by
  unfold State.timChecks
  dsimp only
  split <;> simp

/-- On an idle page a TIM command is refused for its argument or the state alone. -/
theorem timChecks_result {code : Nat} {a : Word} (hidle : Idle s (0xC0 + p.val))
    (harg : (s.timChecks p code a).arg = false) (hstate : (s.timChecks p code a).state = false) :
    (s.timChecks p code a).result = 0 := by
  have hpage : s.busy (0xC0 + p.val) = false := congrArg Option.isSome hidle
  have hbusy : (s.timChecks p code a).busy = false := by
    unfold State.timChecks
    dsimp only
    split <;> simp [hpage]
  simp [Checks.result, harg, hbusy, timChecks_open, hstate]

/-- A pending TIM command whose context is in a state that allows it takes effect: at the boundary only the state is
checked again (R507). -/
theorem timApply_pending {q : CmdPend} (hpend : (s.page (0xC0 + p.val)).pend = some q)
    (hstate : (s.timChecks p q.code q.arg).state = false) :
    ∃ g, s.timApply p = State.timEffect p q { s with pages := g } := by
  have hagain : (s.timChecks p q.code q.arg).again = 0 := by simp [Checks.again, timChecks_open, hstate]
  obtain ⟨v, hv, g, rfl⟩ := settle_of (f := State.timEffect p) hpend hagain
  refine ⟨g, Eq.trans ?_ hv⟩
  unfold State.timApply
  rw [hpend]
  rfl

/-- A TIM command with a good argument, in a state that allows it, waits, and takes effect at the boundary of a state
that allows it. -/
theorem waits_tim {code : Nat} {legal : State → Prop} {effect : State → State → Prop}
    (hr : Ready s (0xC0 + p.val) m) (hidle : Idle s (0xC0 + p.val)) (he : exec c s = finish (s.timCommand p m code))
    (hcode : code < 256) (harg : (s.timChecks p code (s.arg (0xC0 + p.val) (masterCode m))).arg = false) (hs : legal s)
    (hstate : ∀ u, legal u → (u.timChecks p code (s.arg (0xC0 + p.val) (masterCode m))).state = false)
    (hb : ∀ u v : State, v.tims = u.tims → v.active = u.active → legal u → effect u
      (State.timEffect p (waiting s (0xC0 + p.val) m code (s.arg (0xC0 + p.val) (masterCode m))) v)) :
    Waits c s (0xC0 + p.val) m code (s.arg (0xC0 + p.val) (masterCode m)) (State.timApply · p) legal effect := by
  refine waits_submit hr he rfl (timChecks_result hidle harg (hstate s hs)) hcode fun u hpend hlegal => ?_
  obtain ⟨g, happly⟩ := timApply_pending hpend (hstate u hlegal)
  exact happly ▸ hb u { u with pages := g } rfl rfl hlegal

end Sys2Proof.Stated
end

section
/-! PROOFS. The obligation on measurement contexts. -/

namespace Sys2Proof.Settled

open Machine Stated

variable {s : State} {j : Fin 96}

/-- GATE_END of a RUNNING context. -/
theorem exec_gateEnd (h : (s.tim j).state = .running) :
    exec (.gateEnd j) s = finish ((s.nextGate (s.timCfg j) j).postDue j) := congrArg finish (if_pos h)

/-- TIE_SAMPLE of a RUNNING time-error series. -/
theorem exec_tieSample (h : (s.tim j).state = .running) (hmode : 2 ≤ (s.timCfg j).mode) : exec (.tieSample j) s =
    finish (s.setTim j fun t => t.takeSample (s.timCfg j) (t.sampleNow (s.timCfg j))) :=
  congrArg finish (if_pos ⟨h, hmode⟩)

/-- Settles O7: each command is legal where the rule has it so and its effect on the context follows; a gate that ends
is posted or closed by whether a start still waits; a sample enters the ring. -/
theorem contextCommandsTakeEffect : Obligations.ContextCommandsTakeEffect := by
  unfold Obligations.ContextCommandsTakeEffect
  intro p m s q a i
  refine ⟨fun hr hidle hj => ⟨fun hgood hst hsource => ?start, fun hst => ?stop, fun hst hmode => ?clearStab⟩,
    fun j hrun => ⟨fun g hgates hdone => ?gatePosted, fun gs g h r hgates hhead hmode hwait hdue => ?gateClosed,
      fun hmode => ?sample⟩⟩
  case start =>
    refine waits_tim hr hidle rfl (by decide) ?_ ⟨hgood, hst, hsource⟩ (fun u hu => ?_) fun u v htims hactive hu => ?_
    · simpa [State.timChecks] using ⟨Nat.le_of_lt_succ hj, hgood⟩
    · obtain ⟨-, hst, hsource⟩ := hu
      rcases hst with hst | hst <;> simp [State.timChecks, hst, hsource, q, a, i]
    · have hcfg : v.timCfg i = u.timCfg i := by simp [State.timCfg, State.cfg, hactive]
      exact ⟨fun halign => v.timStarts_aligned (hcfg ▸ halign),
        fun halign => v.timStarts_unaligned (hcfg ▸ halign) (hcfg ▸ hu.1)⟩
  case stop =>
    refine waits_tim hr hidle rfl (by decide) ?_ hst (fun u hu => ?_) fun u v _ _ _ => v.timStops_state
    · simpa [State.timChecks] using Nat.le_of_lt_succ hj
    · simpa [State.timChecks] using hu
  case clearStab =>
    refine waits_tim hr hidle rfl (by decide) ?_ ⟨hst, hmode⟩ (fun u hu => ?_) fun u v htims _ _ => ?_
    · simpa [State.timChecks] using Nat.le_of_lt_succ hj
    · simpa [State.timChecks, Nat.lt_iff_add_one_le] using hu
    · have htim : v.tim i = u.tim i := by simp [State.tim, htims]
      exact htim ▸ State.setTim_tim_self v i _
  case gatePosted =>
    refine completes_of (exec_gateEnd hrun) fun t hkept => ?_
    rw [hkept.tim, State.postDue_tim, s.nextGate_posts hgates hdone]
    simp [hrun]
  case gateClosed =>
    refine completes_of (exec_gateEnd hrun) fun t hkept => ?_
    rw [hkept.tim, State.postDue_tim, s.nextGate_closes hgates hhead hmode hwait]
    simp [hrun, hdue]
  case sample =>
    refine completes_of (exec_tieSample hrun hmode) fun t hkept => ?_
    rw [hkept.tim, State.setTim_tim_self]
    exact ⟨rfl, hrun, rfl⟩

end Sys2Proof.Settled
end

section
/-! PROOFS. Harvest (R93 to R95, R99, R103): how a 1 s boundary leaves each period and its bank, the archive and the model
records that fall with it, and what HARVEST commands do at their boundary. -/

namespace Sys2Proof.Safety

open Machine

variable (s : State)

/-- A fault of class C touches no unit (R422). -/
theorem Kept.report_corrected {e : Event} (h : faultClass (pageKind e.page) e.page e.bit = some 0) :
    Kept s (s.report e) := by
  unfold State.report
  rw [h]
  exact Kept.collectC s e

/-- DOM_MODEL_NV_FAIL is of class C in every domain. -/
theorem modelFail_corrected : ∀ d < 12, faultClass (pageKind (domPage d)) (domPage d) 6 = some 0 := by decide

/-- A model record, written or skipped, touches no unit (R182). -/
theorem Kept.saveModel {d : Nat} (hd : d < 12) : Kept s (s.saveModel d) := by
  unfold State.saveModel
  split
  · exact Kept.report_corrected s (modelFail_corrected d hd)
  · split
    · exact Kept.refl s
    · exact ((Kept.nvWrite s _ _).trans (Kept.bump _ _ _)).trans (Kept.event _ _ _)

/-- A skipped archive record touches no unit (R98, R105). -/
theorem Kept.skipArchive : Kept s (((s.bump hvPage 0xA08).event hvPage 6).raise hvPage 2) :=
  ((Kept.bump s _ _).trans (Kept.event _ _ _)).trans (Kept.report_corrected _ rfl)

theorem Kept.saveModels : Kept s s.saveModels := by
  unfold State.saveModels
  refine List.foldlRecOn (motive := fun t => Kept s t) _ _ (Kept.refl s) fun t h d hd => ?_
  split
  · exact h.trans (Kept.saveModel t (List.mem_range.mp hd))
  · exact h

end Sys2Proof.Safety

namespace Sys2Proof.Machine

open Safety

variable (s : State) {t : State} (all : Bool)

/-! ### What the ends of periods are counted by (R93) -/

/-- What the ends of periods are counted by, in a state otherwise reset: the round timer, the time of DOM[0], the
alignment and the origin. -/
def State.calendar : State :=
  { State.reset with
    osc := s.osc, doms := s.doms, time := s.time, direct := s.direct
    harvest := { Harvest.zero with alignAct := s.harvest.alignAct, origin := s.harvest.origin } }

/-- Two states of one calendar end the same periods. -/
theorem State.longDue_calendar (p : Period) (n : Nat) : s.longDue p n = s.calendar.longDue p n := rfl

theorem State.calendar_of_kept {s : State} (h : Kept s t) : t.calendar = s.calendar := by
  simp [State.calendar, h.osc, h.doms, h.time, h.direct, h.harvest]

/-- When a longer period ends, its new second counted: by the label of DOM[0], by the count from the origin, or after its
seconds. -/
theorem State.longDue_addSecond (p : Period) (ctr : Table Nat) (n : Nat) : s.longDue (p.addSecond ctr) n = true ↔
    if s.harvest.alignAct = true then s.dayLabel % (n : Int) = 0
    else if s.secondDue = true then (s.roundNow - s.harvest.origin) / 8000 % n = 0 else n ≤ p.secs + 1 := by
  unfold State.longDue
  split
  · simp
  · split
    · simp [State.freeRounds]
    · exact decide_eq_true_iff

/-! ### Periods and their banks (R95) -/

/-- SHORT of a period that closes early stands in its header (R104). -/
theorem Period.flags_short (p : Period) (alignAct : Bool) : (p.flags alignAct true).testBit 1 = true := by
  have haligned : b2n (p.aligned && alignAct) ≤ 1 := by unfold b2n; split <;> decide
  have hshort : b2n (p.short || true) = 1 := by simp [b2n]
  rw [Nat.testBit_eq_decide_div_mod_eq, decide_eq_true_eq]
  unfold Period.flags
  omega

/-- A period and its bank `x` close at a boundary and become `y`: the period goes to the bank and opens anew. `all` closes
it SHORT. -/
def Closed (x y : Period × Bank) : Prop :=
  ∃ short, (all = true → short = true) ∧
    y = (Period.opened s.osc.bnd s.harvest.alignAct, x.1.latch x.2 s.harvest.alignAct short)

section
variable {s : State} {all : Bool} {x y : Period × Bank}

theorem Closed.seq (h : Closed s all x y) : y.2.seq = (x.2.seq + 1) % 2 ^ 32 := by
  obtain ⟨short, -, rfl⟩ := h
  rfl

theorem Closed.rounds (h : Closed s all x y) : y.1.rounds = 0 := by
  obtain ⟨short, -, rfl⟩ := h
  rfl

/-- A period closed by RESYNC is SHORT. -/
theorem Closed.short (h : Closed s true x y) : y.2.flags.testBit 1 = true := by
  obtain ⟨short, hall, rfl⟩ := h
  obtain rfl := hall rfl
  exact x.1.flags_short _

end

/-- The 1 s period with its bank. -/
def Harvest.second (h : Harvest) : Period × Bank := (h.p1, h.b1)

/-- The three longer periods with their banks. -/
def Harvest.longer (h : Harvest) : Fin 3 → Period × Bank
  | 0 => (h.p60, h.b60)
  | 1 => (h.p900, h.b900)
  | 2 => (h.pday, h.bday)

/-- Their lengths in seconds. -/
def longSeconds : Fin 3 → Nat
  | 0 => 60
  | 1 => 900
  | 2 => 86400

/-- A longer period at a 1 s boundary: closed when it is due, else as it was. -/
def Turned (k : Fin 3) (x y : Period × Bank) : Prop :=
  if all || s.longDue x.1 (longSeconds k) then Closed s all x y else y = x

section
variable {s : State} {all : Bool} {k : Fin 3} {x y : Period × Bank}

theorem Turned.closed (h : Turned s true k x y) : Closed s true x y := h

theorem Turned.closed_of_due (h : Turned s all k x y) (hdue : s.longDue x.1 (longSeconds k) = true) :
    Closed s all x y := by
  rwa [Turned, if_pos (by simp [hdue])] at h

theorem Turned.eq_of_not_due (h : Turned s false k x y) (hnot : ¬s.longDue x.1 (longSeconds k) = true) : y = x := by
  rwa [Turned, if_neg (by simpa using hnot)] at h

end

/-! ### The longer boundaries -/

/-- The archive touches of harvest its record in progress alone (R98). -/
theorem State.archive_harvest : ∃ a, s.archive.harvest = { s.harvest with arch := a } := by
  unfold State.archive
  split
  · exact ⟨s.harvest.arch, (Kept.skipArchive s).harvest⟩
  · exact ⟨_, rfl⟩

theorem State.archive_calendar : s.archive.calendar = s.calendar := by
  unfold State.archive
  split
  · exact State.calendar_of_kept (Kept.skipArchive s)
  · rfl

theorem State.latchDay_harvest : ∃ a, (s.latchDay all).harvest = { s.harvest with
    bday := s.harvest.pday.latch s.harvest.bday s.harvest.alignAct (all || s.harvest.realign.testBit 3)
    pday := Period.opened s.osc.bnd s.harvest.alignAct, realign := s.harvest.realign.land 7, arch := a } := by
  unfold State.latchDay
  dsimp only
  split
  · exact State.archive_harvest _
  · exact ⟨_, rfl⟩

theorem State.latchDay_calendar : (s.latchDay all).calendar = s.calendar := by
  unfold State.latchDay
  dsimp only
  split
  · exact State.archive_calendar _
  · rfl

/-- The boundary of a longer period. -/
def State.latchLonger : Fin 3 → State
  | 0 => s.latchMinute all
  | 1 => s.latchQuarter all
  | 2 => s.latchDay all

section
variable {j k : Fin 3}

theorem State.latchLonger_calendar : (s.latchLonger all k).calendar = s.calendar :=
  match k with
  | 0 | 1 => rfl
  | 2 => s.latchDay_calendar all

theorem State.latchLonger_second : (s.latchLonger all k).harvest.second = s.harvest.second :=
  match k with
  | 0 | 1 => rfl
  | 2 => have ⟨_, h⟩ := s.latchDay_harvest all; (congrArg Harvest.second h).trans rfl

theorem State.latchLonger_other (hne : j ≠ k) : (s.latchLonger all k).harvest.longer j = s.harvest.longer j :=
  match k, j with
  | 0, 0 | 1, 1 | 2, 2 => absurd rfl hne
  | 0, 1 | 0, 2 | 1, 0 | 1, 2 => rfl
  | 2, 0 | 2, 1 => have ⟨_, h⟩ := s.latchDay_harvest all; (congrArg (Harvest.longer · _) h).trans rfl

theorem State.latchLonger_closed : Closed s all (s.harvest.longer k) ((s.latchLonger all k).harvest.longer k) :=
  have hshort (b : Bool) : all = true → (all || b) = true := fun h => by simp [h]
  match k with
  | 0 => ⟨_, hshort (s.harvest.realign.testBit 1), rfl⟩
  | 1 => ⟨_, hshort (s.harvest.realign.testBit 2), rfl⟩
  | 2 => have ⟨_, h⟩ := s.latchDay_harvest all; ⟨_, hshort _, congrArg (Harvest.longer · 2) h⟩

end

/-- The boundary of a longer period, when it is due. -/
def State.latchDue (k : Fin 3) : State :=
  if all || s.longDue (s.harvest.longer k).1 (longSeconds k) then s.latchLonger all k else s

section
variable {j k : Fin 3}

@[simp] theorem State.latchDue_calendar : (s.latchDue all k).calendar = s.calendar := by
  unfold State.latchDue
  split
  · exact s.latchLonger_calendar all
  · rfl

@[simp] theorem State.latchDue_second : (s.latchDue all k).harvest.second = s.harvest.second := by
  unfold State.latchDue
  split
  · exact s.latchLonger_second all
  · rfl

theorem State.latchDue_other (hne : j ≠ k) : (s.latchDue all k).harvest.longer j = s.harvest.longer j := by
  unfold State.latchDue
  split
  · exact s.latchLonger_other all hne
  · rfl

theorem State.latchDue_turned : Turned s all k (s.harvest.longer k) ((s.latchDue all k).harvest.longer k) := by
  unfold State.latchDue Turned
  split
  · exact s.latchLonger_closed all
  · rfl

end

/-! ### The 1 s boundary -/

/-- Changing channels touches the channels alone. -/
theorem State.setChans_eq (f : Chan → Chan) (ks : List Nat) :
    ∃ g, ks.foldl (fun s k => s.setChan k f) s = { s with chans := g } :=
  List.foldlRecOn (motive := fun t : State => ∃ g, t = { s with chans := g }) ks _ ⟨s.chans, rfl⟩
    fun _ ⟨_, h⟩ _ _ => h ▸ ⟨_, rfl⟩

theorem State.latchSecond_harvest : (s.latchSecond all).harvest = { s.harvest with
    b1 := { s.harvest.p1 with ctr := s.ctr }.latch s.harvest.b1 s.harvest.alignAct (all || s.harvest.realign.testBit 0)
    p1 := Period.opened s.osc.bnd s.harvest.alignAct
    p60 := s.harvest.p60.addSecond s.ctr, p900 := s.harvest.p900.addSecond s.ctr
    pday := s.harvest.pday.addSecond s.ctr, realign := s.harvest.realign / 2 * 2 } := by
  unfold State.latchSecond
  dsimp only
  rw [(State.setChans_eq _ _ _).choose_spec]
  rfl

theorem State.latchSecond_calendar : (s.latchSecond all).calendar = s.calendar := by
  unfold State.latchSecond
  dsimp only
  rw [(State.setChans_eq _ _ _).choose_spec]
  rfl

/-! ### The whole boundary -/

theorem State.harvestLatch_eq :
    s.harvestLatch all = (((s.latchSecond all).latchDue all 0).latchDue all 1).latchDue all 2 := rfl

/-- What a boundary makes of a period depends on the calendar alone. -/
theorem Turned.of_calendar {s : State} {all : Bool} {k : Fin 3} {x y : Period × Bank} (h : Turned t all k x y)
    (hcal : t.calendar = s.calendar) : Turned s all k x y := by
  have hosc : t.osc = s.osc := show t.calendar.osc = s.calendar.osc by rw [hcal]
  have halign : t.harvest.alignAct = s.harvest.alignAct := 
    show t.calendar.harvest.alignAct = s.calendar.harvest.alignAct by rw [hcal]
  unfold Turned Closed at h ⊢
  rwa [t.longDue_calendar, hcal, ← s.longDue_calendar, hosc, halign] at h

/-- The 1 s period closes at every boundary, with the counters of the second (R95). -/
theorem State.harvestLatch_second :
    Closed s all ({ s.harvest.p1 with ctr := s.ctr }, s.harvest.b1) (s.harvestLatch all).harvest.second := by
  rw [s.harvestLatch_eq]
  simp only [State.latchDue_second, s.latchSecond_harvest]
  exact ⟨_, fun h => by simp [h], rfl⟩

/-- A longer period takes the second's values, and closes when it is due (R93, R95). -/
theorem State.harvestLatch_longer (k : Fin 3) :
    Turned s all k (((s.harvest.longer k).1.addSecond s.ctr), (s.harvest.longer k).2)
      ((s.harvestLatch all).harvest.longer k) := by
  have hsecond : (s.latchSecond all).harvest.longer k =
      ((s.harvest.longer k).1.addSecond s.ctr, (s.harvest.longer k).2) := by
    rw [s.latchSecond_harvest]
    match k with
    | 0 | 1 | 2 => rfl
  have hturn (u : State) (hcal : u.calendar = (s.latchSecond all).calendar)
      (hk : u.harvest.longer k = (s.latchSecond all).harvest.longer k) :
      Turned s all k ((s.harvest.longer k).1.addSecond s.ctr, (s.harvest.longer k).2)
        ((u.latchDue all k).harvest.longer k) :=
    (hk.trans hsecond ▸ u.latchDue_turned all (k := k)).of_calendar (hcal.trans (s.latchSecond_calendar all))
  rw [s.harvestLatch_eq]
  match k with
  | 0 =>
    rw [State.latchDue_other _ _ (by decide), State.latchDue_other _ _ (by decide)]
    exact hturn _ rfl rfl
  | 1 =>
    rw [State.latchDue_other _ _ (by decide)]
    exact hturn _ (State.latchDue_calendar _ _) (State.latchDue_other _ _ (by decide))
  | 2 =>
    refine hturn _ (by simp) ?_
    rw [State.latchDue_other _ _ (by decide), State.latchDue_other _ _ (by decide)]

/-! ### HARVEST_BOUNDARY -/

@[simp] theorem State.beginTim_harvest (i : Nat) : (s.beginTim i).harvest = s.harvest := by
  unfold State.beginTim
  split
  · rfl
  · split <;> simp [State.firstGate]

/-- Contexts that begin touch nothing of harvest. -/
@[simp] theorem State.timAligned_harvest : s.timAligned.harvest = s.harvest := by
  unfold State.timAligned
  refine List.foldlRecOn (motive := fun t : State => t.harvest = s.harvest) _ _ rfl fun t h i _ => ?_
  split
  · exact (t.beginTim_harvest i).trans h
  · exact h

/-- HARVEST_BOUNDARY closes periods as a boundary that is due does, and notes the round's variant in those that open. -/
theorem State.harvestBoundary_harvest :
    ∃ v, s.harvestBoundary.harvest = (s.harvestLatch false).harvest.seeVariant v := by
  refine ⟨(s.harvestLatch false).timAligned.varSeen, ?_⟩
  unfold State.harvestBoundary
  dsimp only
  split
  · rw [(Kept.saveModels _).harvest, State.setHarvest_harvest, State.timAligned_harvest]
  · rw [State.setHarvest_harvest, State.timAligned_harvest]

/-! ### The effects of commands (R103) -/

/-- What a HARVEST command does. -/
def State.harvestEffect (q : CmdPend) (s : State) : State :=
  if q.code = 1 then (s.harvestLatch true).setHarvest fun h => { h with origin := s.roundNow }
  else s.setHarvest fun h => { h with archSlot := 0 }

end Sys2Proof.Machine

namespace Sys2Proof.Stated

open Machine

variable {s : State} {c : Instr} {m : Master}

/-- At the boundary a pending HARVEST command takes effect where the state allows it: only the state is checked again
(R507). -/
theorem harvestApply_pending {q : CmdPend} (hpend : (s.page hvPage).pend = some q)
    (hstate : (s.harvestChecks q.code).state = false) :
    ∃ g, s.harvestApply = State.harvestEffect q { s with pages := g } := by
  have hrest : (s.harvestChecks q.code).lock = false ∧ (s.harvestChecks q.code).role = false := by
    unfold State.harvestChecks
    split <;> simp
  have hagain : (s.harvestChecks q.code).again = 0 := by simp [Checks.again, hrest, hstate]
  obtain ⟨v, hv, g, rfl⟩ := settle_of (f := State.harvestEffect) hpend hagain
  refine ⟨g, Eq.trans ?_ hv⟩
  unfold State.harvestApply
  rw [hpend]
  rfl

/-- A HARVEST command that its checks let through waits, and takes effect at the boundary of a state that allows it. -/
theorem waits_harvest {code : Nat} {legal : State → Prop} {effect : State → State → Prop} (hr : Ready s hvPage m)
    (he : exec c s = finish (s.harvestCommand m code)) (hcode : code < 256) (hresult : (s.harvestChecks code).result = 0)
    (hstate : ∀ u, legal u → (u.harvestChecks code).state = false)
    (hb : ∀ u v : State, v.harvest = u.harvest → v.roundNow = u.roundNow → effect u
      (State.harvestEffect (waiting s hvPage m code (s.arg hvPage (masterCode m))) v)) :
    Waits c s hvPage m code (s.arg hvPage (masterCode m)) State.harvestApply legal effect := by
  refine waits_submit hr he rfl hresult hcode fun u hpend hlegal => ?_
  obtain ⟨g, happly⟩ := harvestApply_pending hpend (hstate u hlegal)
  exact happly ▸ hb u { u with pages := g } rfl rfl

end Sys2Proof.Stated
end

section
/-! PROOFS. The obligation on harvest. -/

namespace Sys2Proof.Settled

open Machine Stated

variable {s : State}

theorem exec_harvestBoundary : exec .harvestBoundary s = finish s.harvestBoundary := rfl

/-- Settles O8: RESYNC is a boundary that closes every period, SHORT; a 1 s boundary closes the 1 s period and each longer
one that is due, after it has taken the second's values. -/
theorem harvestCommandsTakeEffect : Obligations.HarvestCommandsTakeEffect := by
  unfold Obligations.HarvestCommandsTakeEffect
  intro m s a
  refine ⟨fun hr hidle => ?commands, ?boundary⟩
  case commands =>
    have hbusy : s.busy hvPage = false := congrArg Option.isSome hidle
    refine ⟨fun hfree => ?resync, fun harch => ?archClear⟩
    case resync =>
      refine waits_harvest hr rfl (by decide) ?_ (fun _ hu => hu) fun u v hv hround => ?_
      · simp [State.harvestChecks, Checks.result, hbusy, hfree]
      · have hsecond := v.harvestLatch_second true
        have hlonger (i : Fin 3) := (v.harvestLatch_longer true i).closed
        rw [hv] at hsecond hlonger
        exact ⟨hsecond.seq, (hlonger 0).seq, (hlonger 1).seq, (hlonger 2).seq, hsecond.short, (hlonger 0).short,
          (hlonger 1).short, (hlonger 2).short, hsecond.rounds, (hlonger 0).rounds, (hlonger 1).rounds,
          (hlonger 2).rounds, hround⟩
    case archClear =>
      refine waits_harvest hr rfl (by decide) ?_ (fun _ _ => rfl) fun u v hv _ => ?_
      · simp [State.harvestChecks, Checks.result, hbusy, Harvest.archBusy, harch]
      · simp [State.harvestEffect, waiting, hv]
  case boundary =>
    intro h ends latched
    obtain ⟨v, hbound⟩ := s.harvestBoundary_harvest
    refine completes_of exec_harvestBoundary fun t hkept => ?_
    rw [hkept.harvest, hbound]
    have hlatched (i : Fin 3) {p p' : Period} {b b' : Bank} (hturn : Turned s false i (p.addSecond s.ctr, b) (p', b')) :
        latched (longSeconds i) p p' b b' := by
      have hends : ends (longSeconds i) p ↔ s.longDue (p.addSecond s.ctr) (longSeconds i) = true :=
        (s.longDue_addSecond p s.ctr _).symm
      refine ⟨fun hdue => ?_, fun hnot => ?_⟩
      · obtain ⟨short, -, heq⟩ := hturn.closed_of_due (hends.mp hdue)
        cases heq
        exact ⟨rfl, rfl, rfl, rfl, rfl, rfl, rfl, rfl, rfl⟩
      · cases hturn.eq_of_not_due (fun hdue => hnot (hends.mpr hdue))
        exact ⟨rfl, rfl, rfl, rfl, rfl, rfl⟩
    have hminute := hlatched 0 (s.harvestLatch_longer false 0)
    have hquarter := hlatched 1 (s.harvestLatch_longer false 1)
    have hday := hlatched 2 (s.harvestLatch_longer false 2)
    obtain ⟨short, -, hsecond⟩ := s.harvestLatch_second false
    obtain ⟨hp1, hb1⟩ := Prod.mk.inj hsecond
    exact ⟨congrArg Bank.seq hb1, congrArg Bank.rounds hb1, congrArg Bank.start hb1, congrArg Bank.ctr hb1,
      congrArg Bank.ctx hb1, congrArg Period.rounds hp1, congrArg Period.start hp1, congrArg Period.ctx hp1,
      hminute, hquarter, hday⟩

end Sys2Proof.Settled
end

section
/-! PROOFS. Reference candidates (R108 to R130): their changes of state, the frequency window, their quality level, the
links that feed candidates 32 to 35, and what QUAL commands do at their boundary. -/

namespace Sys2Proof.Safety

open Machine

variable {s t : State} (h : Kept s t)
include h

theorem Kept.qual (i : Nat) : t.qual i = s.qual i := by simp [State.qual, h.quals]
theorem Kept.port (p : Nat) : t.port p = s.port p := by simp [State.port, h.svc]
theorem Kept.cfg (p o : Nat) : t.cfg p o = s.cfg p o := by simp [State.cfg, h.active]
theorem Kept.dir (p o : Nat) : t.dir p o = s.dir p o := by simp [State.dir, h.direct]

/-- Records and requests change no rank. -/
theorem Kept.rankOf (i : Nat) : t.rankOf i = s.rankOf i := by
  simp [State.rankOf, State.qlSrc, State.qcfg, h.qual, h.cfg, h.dir]

end Sys2Proof.Safety

namespace Sys2Proof.Machine

open Safety

variable (s : State) {i r : Nat}

theorem kept_eventIf (b : Bool) (p k : Nat) : Kept s (State.eventIf b p k s) := by
  unfold State.eventIf
  split
  · exact Kept.event s p k
  · exact Kept.refl s

theorem kept_qualNote (old : State) (i : Nat) : Kept s (State.qualNote old i s) := kept_eventIf s _ _ _

/-! ### Changes of state (R111) -/

/-- A candidate that enters a state keeps SUSPECT and the guard timer in QUALIFIED only, and starts the soak timer in
SOAKING only. -/
@[simp] theorem State.qualTo_qual (st : QState) : (s.qualTo i st r).qual i = { s.qual i with
    state := st, reason := r, suspect := (s.qual i).suspect && st == .qualified
    guard := if st = .qualified then (s.qual i).guard else 0
    soak := if st = .soaking then bits (s.qcfg i 0x14) 15 0 * 1000 else 0 } := by
  unfold State.qualTo
  dsimp only
  split <;> simp

/-- Only entries into DISQUALIFIED are counted. -/
theorem State.qualTo_uncounted {st : QState} (hst : st ≠ .disqualified) :
    s.qualTo i st r = s.setQual i fun q => { q with
      state := st, reason := r, suspect := q.suspect && st == .qualified
      guard := if st = .qualified then q.guard else 0
      soak := if st = .soaking then bits (s.qcfg i 0x14) 15 0 * 1000 else 0 } :=
  if_neg fun h => hst h.1

/-- A candidate that becomes QUALIFIED changes its state and REASON and stops the soak timer (R111). -/
theorem same_qualTo_qualified {l : List Nat} :
    Same (s.setQual i fun q => { q with state := .qualified, reason := r, soak := 0 }) (s.qualTo i .qualified r) l := by
  rw [s.qualTo_uncounted (by decide)]
  exact Same.setQual (by simp)

/-- FORCE_OUT is refused in DISABLED and FORCED_OUT alone (R126). -/
theorem QState.live_of_ne {st : QState} (hst : st ≠ .disabled) (hout : st ≠ .forcedOut) :
    (st == .monitor || st == .soaking || st == .qualified || st == .disqualified) = true := by
  cases st <;> simp at hst hout ⊢

/-- The lowest failing reason (R116). -/
theorem lowestReason_eq {f : Nat} (hr : r ≤ 10) (hfails : f.testBit r = true)
    (hlowest : ∀ k, k < r → f.testBit k = false) : lowestReason f = r := by
  have hfind : (List.range 11).find? (fun k => f.testBit k) = some r :=
    List.find?_range_eq_some.mpr ⟨hfails, List.mem_range.mpr (Nat.lt_succ_of_le hr), by simpa using hlowest⟩
  simp [lowestReason, hfind]

/-- A failing candidate is DISQUALIFIED with its lowest failing reason. -/
theorem State.qualFail_qual : (s.qualFail i).qual i = { s.qual i with
    state := .disqualified, reason := lowestReason (s.qual i).failSet, suspect := false, guard := 0, soak := 0 } := by
  simp [State.qualFail]

/-- RESTORE of a candidate whose monitors pass starts the soak timer (R111). -/
theorem State.putBack_soaks (hpass : (s.qual i).failSet = 0) (hopen : (s.qual i).fenced = false) :
    ((s.putBack i).qual i).state = .soaking ∧ ((s.putBack i).qual i).soak = bits (s.qcfg i 0x14) 15 0 * 1000 := by
  simp [State.putBack, State.qualSoak, hpass, hopen]

/-- RESTORE of a fenced candidate leads to DISQUALIFIED with reason 10 (R130). -/
theorem State.putBack_fenced (hpass : (s.qual i).failSet = 0) (hfenced : (s.qual i).fenced = true) :
    ((s.putBack i).qual i).state = .disqualified ∧ ((s.putBack i).qual i).reason = 10 := by
  simp [State.putBack, State.qualSoak, hpass, hfenced]

/-- RESTORE of a failing candidate leads to DISQUALIFIED with its lowest failing reason (R111, R116). -/
theorem State.putBack_fails (hr : r ≤ 10) (hfails : (s.qual i).failSet.testBit r = true)
    (hlowest : ∀ k, k < r → (s.qual i).failSet.testBit k = false) :
    ((s.putBack i).qual i).state = .disqualified ∧ ((s.putBack i).qual i).reason = r := by
  have hset : (s.qual i).failSet ≠ 0 := fun h => by simp [h] at hfails
  simp [State.putBack, hset, State.qualFail_qual, lowestReason_eq hr hfails hlowest]

/-! ### The frequency window (R119) and masks (R121) -/

/-- The verdict has a hysteresis of an eighth of the limit; a limit of 0 never fails. -/
theorem fwVerdict_hysteresis (lim : Nat) (was : Bool) (y : Int) :
    let m := y.natAbs * 256 * 1000000000
    (lim = 0 → fwVerdict lim was y = false) ∧
      (lim ≠ 0 → lim * 2 ^ 64 < m → fwVerdict lim was y = true) ∧
      (lim ≠ 0 → 8 * m ≤ 7 * lim * 2 ^ 64 → fwVerdict lim was y = false) ∧
      (lim ≠ 0 → m ≤ lim * 2 ^ 64 → 7 * lim * 2 ^ 64 < 8 * m → fwVerdict lim was y = was) := by
  intro m
  refine ⟨fun hlim => if_pos hlim, fun hlim habove => ?_, fun hlim hbelow => ?_, fun hlim hle hgt => ?_⟩
  · exact (if_neg hlim).trans (if_pos habove)
  · have hle : ¬ lim * 2 ^ 64 < m := by omega
    exact (if_neg hlim).trans ((if_neg hle).trans (if_pos hbelow))
  · exact (if_neg hlim).trans ((if_neg (Nat.not_lt.mpr hle)).trans (if_neg (Nat.not_le.mpr hgt)))

/-- A gate that is spoilt, or has no fit, ends without a result. -/
theorem State.fwEnd_spoilt (h : (s.qual i).fwBad = true ∨ fitRatio (s.nomStep i) (s.qual i).fwGate = none) :
    (s.fwEnd i).qual i = { s.qual i with
      fwGate := [], fwRounds := 0, fwBad := false, fwPosted1 := (s.qual i).fwPosted, fwPosted := false } := by
  rcases h with h | h <;> simp [State.fwEnd, h]

/-- A good gate posts the frequency of its fit and is judged. -/
theorem State.fwEnd_posts {y : Int × Int} (hgood : (s.qual i).fwBad = false)
    (hfit : fitRatio (s.nomStep i) (s.qual i).fwGate = some y) : (s.fwEnd i).qual i = { s.qual i with
      fwGate := [], fwRounds := 0, fwBad := false, fwPosted1 := (s.qual i).fwPosted, fwPosted := true, fwNew := true
      freq := ratioBits 64 y, fwValid := true
      fwFail := fwVerdict (s.qcfg i 0x18).toNat (s.qual i).fwFail (ratioBits 64 y) } := by
  simp [State.fwEnd, hgood, hfit]

/-- A mask sample is counted and touches neither the state nor FAIL_SET. -/
theorem State.maskTake_qual : let q := (s.maskTake i).qual i
    q.maskSince = 0 ∧ q.maskK = (s.qual i).maskK + 1 ∧ q.state = (s.qual i).state ∧
      q.failSet = (s.qual i).failSet := by
  simp [State.maskTake]

/-! ### The quality level (R123, R124) and the links (R108) -/

/-- Without ESMC information a candidate whose quality comes by ESMC has rank 15. -/
theorem State.esmcLost_rankOf (hsrc : s.qlSrc i = 1) : (s.esmcLost i).rankOf i = 15 := by
  have hlost : (s.esmcLost i).qlSrc i = 1 := hsrc
  have hage : ((s.esmcLost i).qual i).esmcAge = esmcRounds := by simp [State.esmcLost]
  simp [State.rankOf, hlost, hage]

/-- The link of an enabled port comes up: it locks, and its candidate is marked. -/
theorem State.linkChange_up {p : Nat} (hport : bit (s.pcfg p 0) 0 = true) (hservice : s.serviceOn = true)
    (hdown : (s.port p).linkUp = false) :
    ((s.linkChange p true).port p).linkUp = true ∧ ((s.linkChange p true).port p).cdrLock = true ∧
      ((s.linkChange p true).qual (32 + p)).relock = true := by
  have hon : ((State.eventIf true portsPage p s).port p).linkUp = false := hdown
  simp [State.linkChange, hport, hservice, hdown, hon]

/-- A link that goes down is out of lock. -/
theorem same_linkChange_down {p : Nat} {l : List Nat} :
    Same (s.setPort p fun x => { x with linkUp := false, cdrLock := false, fecLock := false })
      (s.linkChange p false) l := by
  have hnote : s.linkChange p false = State.eventIf ((s.port p).linkUp != false) portsPage p
      (s.setPort p fun x => { x with linkUp := false, cdrLock := false, fecLock := false }) := by
    unfold State.linkChange State.eventIf
    cases (s.port p).linkUp <;> rfl
  exact hnote ▸ (kept_eventIf _ _ _ _).same

end Sys2Proof.Machine

namespace Sys2Proof.Stated

open Machine

variable {s : State} {c : Instr} {m : Master} {i : Fin 40}

/-- A QUAL command that its checks let through waits, and takes effect at the boundary of a round in which its candidate
runs and the checks made again pass (R507, R509). -/
theorem waits_qual {code : Nat} {legal : State → Prop} {effect : State → State → Prop} (hr : Ready s (qualPage i) m)
    (he : exec c s = finish (s.qualCommand i m code)) (hcode : code < 256)
    (hresult : (s.qualChecks i code false).result = 0)
    (hlegal : ∀ u, legal u → u.candFrozen i = false ∧ (u.qualChecks i code true).again = 0)
    (hb : ∀ u v : State, v.qual i = u.qual i → v.qcfg i 0x14 = u.qcfg i 0x14 → effect u
      (State.qualEffect i (waiting s (qualPage i) m code (s.arg (qualPage i) (masterCode m))) v)) :
    Waits c s (qualPage i) m code (s.arg (qualPage i) (masterCode m)) (State.qualApply · i) legal effect := by
  refine waits_submit hr he rfl hresult hcode fun u hpend hu => ?_
  obtain ⟨hruns, hagain⟩ := hlegal u hu
  obtain ⟨v, hv, g, rfl⟩ := settle_of (f := State.qualEffect i) hpend hagain
  have happly : u.qualApply i = u.settleCmd (qualPage i) (u.qualChecks i code true).again (State.qualEffect i) := by
    simp [State.qualApply, hpend, hruns, waiting]
  exact (happly.trans hv) ▸ hb u { u with pages := g } rfl rfl

end Sys2Proof.Stated
end

section
/-! PROOFS. The obligations on reference candidates. -/

namespace Sys2Proof.Settled

open Machine Stated

/-- Settles O10: each command is legal where the rule has it so, and its effect on the candidate follows; RESTORE goes
by FAIL_SET and the fencing. -/
theorem qualificationCommandsTakeEffect : Obligations.QualificationCommandsTakeEffect := by
  unfold Obligations.QualificationCommandsTakeEffect
  intro i m s p a hr hidle
  have hpage : qualPage i = p := rfl
  have hbusy : s.busy p = false := congrArg Option.isSome hidle
  refine ⟨fun hlock hnom hst hchan => ?enable, fun hlock hst huse => ?disable, fun hrole hst hout => ?forceOut,
    fun hrole hst => ?restore, fun hlock hrole hst hpass => ?skipSoak, fun hst => ?clearMask⟩
  case enable =>
    have hnomBad : ¬ (i.val < 36 ∧ s.nomOk i = false) := fun ⟨hlt, hbad⟩ =>
      hnom.elim (fun hge => absurd hlt (Nat.not_lt.mpr hge)) fun hok => by simp [hbad] at hok
    have hchanBad {u : State} (h : 36 ≤ i.val ∨ ((u.chan i).state ≠ .off ∧ (u.chan i).state ≠ .fenced)) :
        ¬ (i.val < 36 ∧ ((u.chan i).state = .off ∨ (u.chan i).state = .fenced)) := fun ⟨hlt, hbad⟩ =>
      h.elim (fun hge => absurd hlt (Nat.not_lt.mpr hge)) fun ⟨hoff, hfenced⟩ => hbad.elim hoff hfenced
    refine waits_qual hr rfl (by decide) ?_ (fun u hu => ?_) fun u v _ _ => ?_
    · simp [State.qualChecks, Checks.result, hpage, hbusy, hlock, hst, hnomBad, hchanBad hchan]
    · obtain ⟨hruns, hlock, hst, hchan⟩ := hu
      exact ⟨hruns, by simp [State.qualChecks, Checks.again, hpage, hlock, hst, hchanBad hchan]⟩
    · simp [State.qualEffect, waiting, Qual.clear, Qual.zero]
  case disable =>
    refine waits_qual hr rfl (by decide) ?_ (fun u hu => ?_) fun u v _ _ => ?_
    · simp [State.qualChecks, Checks.result, hpage, hbusy, hlock, hst, huse]
    · obtain ⟨hruns, hlock, hst, huse⟩ := hu
      exact ⟨hruns, by simp [State.qualChecks, Checks.again, hpage, hlock, hst, huse]⟩
    · simp [State.qualEffect, waiting, Qual.clear, Qual.zero]
  case forceOut =>
    refine waits_qual hr rfl (by decide) ?_ (fun u hu => ?_) fun u v _ _ => ?_
    · simp [State.qualChecks, Checks.result, hpage, hbusy, hrole, QState.live_of_ne hst hout]
    · obtain ⟨hruns, hrole, hst, hout⟩ := hu
      exact ⟨hruns, by simp [State.qualChecks, Checks.again, hrole, QState.live_of_ne hst hout]⟩
    · simp [State.qualEffect, waiting, State.putOut]
  case restore =>
    refine waits_qual hr rfl (by decide) ?_ (fun u hu => ?_) fun u v hv hsoak => ?_
    · simp [State.qualChecks, Checks.result, hpage, hbusy, hrole, hst]
    · obtain ⟨hruns, hrole, hst⟩ := hu
      exact ⟨hruns, by simp [State.qualChecks, Checks.again, hrole, hst]⟩
    · have hcfg : u.cfg p 0x14 = v.qcfg i 0x14 := hsoak.symm
      rw [← hv, hcfg]
      exact ⟨v.putBack_soaks, v.putBack_fenced, fun r => v.putBack_fails⟩
  case skipSoak =>
    refine waits_qual hr rfl (by decide) ?_ (fun u hu => ?_) fun u v hv _ => ?_
    · simp [State.qualChecks, Checks.result, hpage, hbusy, hlock, hrole, hst, hpass]
    · obtain ⟨hruns, hlock, hrole, hst⟩ := hu
      exact ⟨hruns, by simp [State.qualChecks, Checks.again, hpage, hlock, hrole, hst]⟩
    · simp [State.qualEffect, waiting, hv]
  case clearMask =>
    refine waits_qual hr rfl (by decide) ?_ (fun u hu => ?_) fun u v hv _ => ?_
    · simp [State.qualChecks, Checks.result, hpage, hbusy, hst]
    · obtain ⟨hruns, hst⟩ := hu
      exact ⟨hruns, by simp [State.qualChecks, Checks.again, hst]⟩
    · simp [State.qualEffect, waiting, hv, Qual.clearMask]

section
variable {s : State} {i : Fin 40}

/-- SOAK_EXPIRY of a SOAKING candidate that runs and whose monitors pass. -/
theorem exec_soakExpiry (hst : (s.qual i).state = .soaking) (hpass : (s.qual i).failSet = 0)
    (hruns : s.candFrozen i = false) :
    exec (.soakExpiry i) s = finish (State.qualNote s i (s.qualTo i .qualified 0)) :=
  congrArg finish (if_pos ⟨hst, hpass, hruns⟩)

/-- GUARD_EXPIRY of a SUSPECT candidate that runs and still fails. -/
theorem exec_guardExpiry (hst : (s.qual i).state = .qualified) (hsuspect : (s.qual i).suspect = true)
    (hfails : (s.qual i).failSet ≠ 0) (hruns : s.candFrozen i = false) :
    exec (.guardExpiry i) s = finish (State.qualNote s i (s.qualFail i)) :=
  congrArg finish (if_pos ⟨hst, hsuspect, hfails, hruns⟩)

/-- FW_GATE_END of an enabled candidate that runs and has a nominal period. -/
theorem exec_fwGateEnd (hst : (s.qual i).state ≠ .disabled) (hruns : s.candFrozen i = false)
    (hnom : s.nomOk i = true) : exec (.fwGateEnd i) s = finish (s.fwEnd i) :=
  congrArg finish (if_neg (by simp [hst, hruns, hnom]))

/-- MASK_SAMPLE of an enabled candidate with a nominal period, while V3 is not in effect. -/
theorem exec_maskSample (hst : (s.qual i).state ≠ .disabled) (hvar : s.board.varNow ≠ 3)
    (hnom : s.nomOk i = true) : exec (.maskSample i) s = finish (s.maskTake i) :=
  congrArg finish (if_neg (by simp [hst, hvar, hnom]))

end

/-- Settles O11: each event changes its candidate by one operation of chapter 04; what the collector notes touches no
unit. -/
theorem qualificationEventsTakeEffect : Obligations.QualificationEventsTakeEffect := by
  unfold Obligations.QualificationEventsTakeEffect
  intro i p s q
  refine ⟨fun hruns => ⟨fun hst hpass => ?soak, fun r hr hst hsuspect hfails hlowest => ?guard, fun hst hnom => ?gate⟩,
    fun hst hvar hnom => ?mask, ?esmc, fun hsrc => ?rank, fun hup => ?relock, fun hport hservice hdown => ?linkUp,
    ?linkDown⟩
  case soak =>
    exact does_of (exec_soakExpiry hst hpass hruns)
      ((same_qualTo_qualified s).trans (kept_qualNote _ s i).same)
  case guard =>
    have hset : q.failSet ≠ 0 := fun h => by simp [h] at hfails
    refine completes_of (exec_guardExpiry hst hsuspect hset hruns) fun t hkept => ?_
    rw [hkept.qual, (kept_qualNote _ s i).qual, State.qualFail_qual]
    exact ⟨rfl, lowestReason_eq hr hfails hlowest, rfl, rfl⟩
  case gate =>
    intro fit lim m
    have he := exec_fwGateEnd hst hruns hnom
    refine ⟨fun hspoilt => completes_of he fun t hkept => ?_, fun y hgood hfit => completes_of he fun t hkept => ?_⟩
    · rw [hkept.qual, s.fwEnd_spoilt hspoilt]
      exact ⟨rfl, rfl, rfl, rfl⟩
    · rw [hkept.qual, s.fwEnd_posts hgood hfit]
      exact ⟨rfl, rfl, rfl, fwVerdict_hysteresis lim q.fwFail (ratioBits 64 y)⟩
  case mask =>
    refine completes_of (exec_maskSample hst hvar hnom) fun t hkept => ?_
    rw [hkept.qual]
    exact s.maskTake_qual
  case esmc => exact does_of rfl (Safety.Same.refl _)
  case rank =>
    refine completes_of (w := s.esmcLost (32 + p)) rfl fun t hkept => ?_
    rw [hkept.rankOf, s.esmcLost_rankOf hsrc]
  case relock => exact does_of (congrArg finish (if_pos hup)) (Safety.Same.refl _)
  case linkUp =>
    refine completes_of (w := s.linkChange p true) rfl fun t hkept => ?_
    rw [hkept.port, hkept.qual]
    exact s.linkChange_up hport hservice hdown
  case linkDown => exact does_of rfl (same_linkChange_down s)

end Sys2Proof.Settled
end

section
/-! PROOFS. Selection (R131 to R159): the slots of a domain, what parking leaves of its slot, and what selection commands
do at their boundary. -/

namespace Sys2Proof.Machine

variable (s : State) {d sl : Nat}

/-! ### The slots of a domain -/

@[simp] theorem State.setSel_dom_self (f : Sel → Sel) :
    (s.setSel d f).dom d = { s.dom d with sel := f (s.dom d).sel } := s.setDom_dom_self d _

theorem State.setDslot_dslot (j : Nat) (f : DSlot → DSlot) :
    (s.setDslot d sl f).dslot d j = if j = sl then f (s.dslot d sl) else s.dslot d j := by
  simp [State.dslot, State.setDslot, Sel.slotAt, Sel.setSlot, tget_tmod]

@[simp] theorem State.setDslot_dslot_self (f : DSlot → DSlot) :
    (s.setDslot d sl f).dslot d sl = f (s.dslot d sl) := by simp [s.setDslot_dslot]

@[simp] theorem State.event_dslot (p b j : Nat) : (s.event p b).dslot d j = s.dslot d j := rfl
@[simp] theorem State.bump_dslot (p o j : Nat) : (s.bump p o).dslot d j = s.dslot d j := rfl

theorem State.dslot_congr {t : State} (h : t.dom d = s.dom d) (j : Nat) : t.dslot d j = s.dslot d j := by
  simp [State.dslot, h]

/-! ### Targets and weights (R148, R149) -/

/-- The slots of domain `d` stand in `t` as in `s`, but for their weights and targets. -/
def Reweighed (d : Nat) (s t : State) : Prop :=
  ∀ j, ∃ w tgt, t.dslot d j = { s.dslot d j with w, t := tgt }

namespace Reweighed

variable {s} {t u : State}

theorem refl (s : State) : Reweighed d s s := fun j => ⟨(s.dslot d j).w, (s.dslot d j).t, rfl⟩

theorem trans (hst : Reweighed d s t) (htu : Reweighed d t u) : Reweighed d s u := fun j => by
  obtain ⟨_, _, ht⟩ := hst j
  obtain ⟨w, tgt, hu⟩ := htu j
  exact ⟨w, tgt, by rw [hu, ht]⟩

theorem setDslot {f : DSlot → DSlot} (hf : ∀ v, ∃ w tgt, f v = { v with w, t := tgt }) :
    Reweighed d s (s.setDslot d sl f) := fun j => by
  rw [s.setDslot_dslot]
  split
  · subst j
    exact hf _
  · exact refl s j

theorem foldl {α : Type} {f : State → α → State} (hf : ∀ s a, Reweighed d s (f s a)) (l : List α) (s : State) :
    Reweighed d s (l.foldl f s) := by
  induction l generalizing s with
  | nil => exact refl s
  | cons a l ih => exact (hf s a).trans (ih (f s a))

theorem parked (h : Reweighed d s t) (j : Nat) : (t.dslot d j).parked = (s.dslot d j).parked := by
  obtain ⟨_, _, ht⟩ := h j
  rw [ht]

theorem eligible (h : Reweighed d s t) (j : Nat) : (t.dslot d j).eligible = (s.dslot d j).eligible := by
  obtain ⟨_, _, ht⟩ := h j
  rw [ht]

end Reweighed

theorem State.setTargets_reweighed : Reweighed d s (s.setTargets d) :=
  Reweighed.foldl (fun _ _ => Reweighed.setDslot fun v => ⟨v.w, _, rfl⟩) _ s

theorem State.weightsToTargets_reweighed (l : List Nat) : Reweighed d s (s.weightsToTargets d l) :=
  Reweighed.foldl (fun _ _ => Reweighed.setDslot fun v => ⟨v.t, v.t, rfl⟩) l s

theorem State.levelWeights_reweighed : Reweighed d s (s.levelWeights d) :=
  Reweighed.foldl (fun _ _ => Reweighed.setDslot fun v => ⟨_, v.t, rfl⟩) _ s

/-- A removal gives the members that stay new weights, and parks or admits no slot. -/
theorem State.afterRemoval_reweighed (stay : List Nat) : Reweighed d s (s.afterRemoval d stay) :=
  (s.setTargets_reweighed.trans (State.weightsToTargets_reweighed _ _)).trans (State.levelWeights_reweighed _)

/-! ### Parking (R151, R152) -/

/-- A slot that is parked leaves the ensemble. -/
theorem State.park_dslot (hfree : (s.dslot d sl).parked = false) :
    ((s.park d sl).dslot d sl).parked = true ∧ ((s.park d sl).dslot d sl).eligible = false := by
  cases helig : (s.dslot d sl).eligible <;> simp [State.park, State.dropMember, hfree, helig]

theorem State.unpark_dslot (hparked : (s.dslot d sl).parked = true) :
    (s.unpark d sl).dslot d sl = { s.dslot d sl with parked := false, calm := 0 } := by
  simp [State.unpark, hparked]

/-- PARK takes its slot out of the ensemble, whatever weights the others take. -/
theorem State.selEffect_park {a : Word} (hfree : (s.dslot d (bits a 2 0)).parked = false) :
    let v := (s.selEffect d 0x13 a).dslot d (bits a 2 0)
    v.parked = true ∧ v.eligible = false := by
  obtain ⟨hparked, hout⟩ := s.park_dslot hfree
  cases helig : (s.dslot d (bits a 2 0)).eligible with
  | false => simp [State.selEffect, helig, hparked, hout]
  | true =>
    have hweights := (s.park d (bits a 2 0)).afterRemoval_reweighed (d := d) ((s.park d (bits a 2 0)).members d)
    simp [State.selEffect, helig, hweights.parked, hweights.eligible, hparked, hout]

/-! ### Which commands of a DOM page are selection commands (R159) -/

theorem selection_codes {code : Nat} (hlo : 0x10 ≤ code) (hhi : code < 0x16) :
    code = 0x10 ∨ code = 0x11 ∨ code = 0x12 ∨ code = 0x13 ∨ code = 0x14 ∨ code = 0x15 := by omega

theorem State.domChecks_selection {code : Nat} {a : Word} {again : Bool} (hlo : 0x10 ≤ code) (hhi : code < 0x16) :
    s.domChecks d code a again = s.selChecks d code a again := by
  rcases selection_codes hlo hhi with rfl | rfl | rfl | rfl | rfl | rfl <;> rfl

theorem State.domEffect_selection {q : CmdPend} (hlo : 0x10 ≤ q.code) (hhi : q.code < 0x16) :
    s.domEffect d q = s.selEffect d q.code q.arg := by
  obtain ⟨master, code⟩ := q
  dsimp only at hlo hhi
  rcases selection_codes hlo hhi with rfl | rfl | rfl | rfl | rfl | rfl <;> rfl

/-- A pending command of a DOM page takes effect in a round in which its domain is not frozen and the checks made again
pass (R507, R509). -/
theorem State.domApply_pending {q : CmdPend} (hpend : (s.page (domPage d)).pend = some q)
    (hruns : s.domRuns d = true ∨ (s.dom d).state = .init) (hagain : (s.domChecks d q.code q.arg true).again = 0) :
    ∃ g, s.domApply d = State.domEffect d q { s with pages := g } := by
  have hthawed : ¬ (s.domRuns d = false ∧ (s.dom d).state ≠ .init) := fun ⟨hfrozen, hst⟩ =>
    hruns.elim (fun h => by simp [hfrozen] at h) hst
  obtain ⟨v, hv, g, rfl⟩ := Stated.settle_of (f := State.domEffect d) hpend hagain
  exact ⟨g, by simpa only [State.domApply, hpend, if_neg hthawed] using hv⟩

end Sys2Proof.Machine

namespace Sys2Proof.Stated

open Machine

variable {s : State} {c : Instr} {m : Master} {d : Fin 12}

/-- A selection command that its checks let through waits, and takes effect at the boundary of a round in which its
domain is not frozen and the checks made again pass. -/
theorem waits_selection {code : Nat} {legal : State → Prop} {effect : State → State → Prop}
    (hr : Ready s (domPage d) m) (he : exec c s = finish (s.selCommand d m code)) (hlo : 0x10 ≤ code)
    (hhi : code < 0x16) (hresult : (s.selChecks d code (s.arg (domPage d) (masterCode m)) false).result = 0)
    (hlegal : ∀ u, legal u → (u.domRuns d = true ∨ (u.dom d).state = .init) ∧
      (u.selChecks d code (s.arg (domPage d) (masterCode m)) true).again = 0)
    (hb : ∀ u v : State, v.dom d = u.dom d → legal u →
      effect u (v.selEffect d code (s.arg (domPage d) (masterCode m)))) :
    Waits c s (domPage d) m code (s.arg (domPage d) (masterCode m)) (State.domApply · d) legal effect := by
  refine waits_submit hr he rfl hresult (Nat.lt_trans hhi (by decide)) fun u hpend hu => ?_
  obtain ⟨hruns, hagain⟩ := hlegal u hu
  obtain ⟨g, happly⟩ := u.domApply_pending hpend hruns ((congrArg _ (u.domChecks_selection hlo hhi)).trans hagain)
  rw [State.domEffect_selection _ hlo hhi] at happly
  exact happly ▸ hb u { u with pages := g } rfl hu

end Sys2Proof.Stated
end

section
/-! PROOFS. The obligation on selection and ensemble commands. -/

namespace Sys2Proof.Settled

open Machine Stated

/-- Settles O12: each command is legal where R159 has it so; PARK's new weights leave the membership of every slot as it
is, and the other effects are one write to the domain's selection. -/
theorem selectionCommandsTakeEffect : Obligations.SelectionCommandsTakeEffect := by
  unfold Obligations.SelectionCommandsTakeEffect
  intro d m s p a k hr hidle hrole open_
  have hpage : domPage d = p := rfl
  have hbusy : s.busy p = false := congrArg Option.isSome hidle
  refine ⟨fun hlock => ⟨fun hcand hst hmode => ?forceSelect, fun hcand hst hmode hfree => ?manualSelect, ?clearSelect,
    fun hst hmode hparked => ?unpark, fun hst hmode hbo hvalid => ?realignBo⟩, fun hcand hst hmode => ?park⟩
  case forceSelect =>
    refine waits_selection hr rfl (by decide) (by decide) ?_ (fun u hu => ?_) fun u v hv _ => ?_
    · simp [State.selChecks, Checks.result, hpage, hbusy, hlock, hrole, hst, hmode, hcand, a, k]
    · obtain ⟨⟨hlock, hrole, hruns⟩, hcand, hst, hmode⟩ := hu
      exact ⟨hruns, by simp [State.selChecks, Checks.again, hpage, hlock, hrole, hst, hmode]⟩
    · simp [State.selEffect, hv, k, a, p, hpage]
  case manualSelect =>
    refine waits_selection hr rfl (by decide) (by decide) ?_ (fun u hu => ?_) fun u v hv _ => ?_
    · simp [State.selChecks, Checks.result, hpage, hbusy, hlock, hrole, hst, hmode, hcand, hfree, a, k]
    · obtain ⟨⟨hlock, hrole, hruns⟩, hcand, hst, hmode, hfree⟩ := hu
      exact ⟨hruns, by simp [State.selChecks, Checks.again, hpage, hlock, hrole, hst, hmode, hfree]⟩
    · simp [State.selEffect, hv, k, a, p, hpage]
  case clearSelect =>
    refine waits_selection hr rfl (by decide) (by decide) ?_ (fun u hu => ?_) fun u v hv _ => ?_
    · simp [State.selChecks, Checks.result, hpage, hbusy, hlock, hrole]
    · obtain ⟨hlock, hrole, hruns⟩ := hu
      exact ⟨hruns, by simp [State.selChecks, Checks.again, hpage, hlock, hrole]⟩
    · simp [State.selEffect, hv]
  case unpark =>
    refine waits_selection hr rfl (by decide) (by decide) ?_ (fun u hu => ?_) fun u v hv hu => ?_
    · simp [State.selChecks, Checks.result, hpage, hbusy, hlock, hrole, hst, hmode, hparked, a, k]
    · obtain ⟨⟨hlock, hrole, hruns⟩, hst, hmode, hparked⟩ := hu
      exact ⟨hruns, by simp [State.selChecks, Checks.again, hpage, hlock, hrole, hst, hmode, hparked, a, k]⟩
    · obtain ⟨_, _, _, hparked⟩ := hu
      rw [← u.dslot_congr hv] at hparked
      exact (v.unpark_dslot hparked) ▸ ⟨rfl, rfl⟩
  case realignBo =>
    refine waits_selection hr rfl (by decide) (by decide) ?_ (fun u hu => ?_) fun u v hv _ => ?_
    · rcases hst with hst | hst <;>
        simp [State.selChecks, Checks.result, hpage, hbusy, hlock, hrole, hst, hmode, hbo, hvalid]
    · obtain ⟨⟨hlock, hrole, hruns⟩, hst, hmode, hbo, hvalid⟩ := hu
      refine ⟨hruns, ?_⟩
      rcases hst with hst | hst <;>
        simp [State.selChecks, Checks.again, hpage, hlock, hrole, hst, hmode, hbo, hvalid]
    · simp [State.selEffect, hv]
  case park =>
    refine waits_selection hr rfl (by decide) (by decide) ?_ (fun u hu => ?_) fun u v hv hu => ?_
    · simp [State.selChecks, Checks.result, hpage, hbusy, hrole, hst, hmode, hcand, a, k]
    · obtain ⟨hrole, hruns, hcand, hst, hmode, _⟩ := hu
      exact ⟨.inl hruns, by simp [State.selChecks, Checks.again, hrole, hst, hmode]⟩
    · obtain ⟨_, _, _, _, _, hfree⟩ := hu
      rw [← u.dslot_congr hv] at hfree
      exact v.selEffect_park hfree

end Sys2Proof.Settled
end

section
/-! PROOFS. The domain loops (R165 to R195): changes of state, QL_OUT, the sluice, the learned model and its records,
and what loop commands do at their boundary. -/

namespace Sys2Proof.Safety

open Machine

variable {s t : State} {d : Nat} {f g : Dom → Dom} {l : List Nat}

/-- Two states whose units read the same still do so with one domain changed alike. -/
theorem Same.setDom_congr (h : Same s t l) : Same (s.setDom d f) (t.setDom d f) l :=
  { h with dom := fun i => by simp only [State.setDom_dom, h.dom] }

/-- A second change of a domain joins the first. -/
theorem Same.andDom (h : Same (s.setDom d f) t l) : Same (s.setDom d fun x => g (f x)) (t.setDom d g) l :=
  (Same.setDom_twice rfl).trans h.setDom_congr

theorem Same.dcfg (h : Same s t l) (x : Nat) : t.dcfg d x = s.dcfg d x := by simp [State.dcfg, State.cfg, h.active]

end Sys2Proof.Safety

namespace Sys2Proof.Machine

open Safety

variable (s : State) {d : Nat}

@[simp] theorem State.eventIf_dom (b : Bool) (p k j : Nat) : (State.eventIf b p k s).dom j = s.dom j := by
  simp [State.dom, (kept_eventIf s b p k).doms]

@[simp] theorem State.setDom_dcfg (j x : Nat) (f : Dom → Dom) : (s.setDom j f).dcfg d x = s.dcfg d x := rfl

theorem State.isInit_eq_false (h : (s.dom d).state ≠ .init) : s.isInit d = false := by simp [State.isInit, h]

/-! ### Changes of state (R174) -/

section
variable {st : DState}

/-- A domain that enters a state: its lock counts restart (R175). -/
def Dom.enter (st : DState) (x : Dom) : Dom := { x with state := st, lockCnt := 0, unlockCnt := 0, eHist := [] }

theorem State.domTo_enters (h : (s.dom d).state ≠ st) :
    s.domTo d st = (s.setDom d (Dom.enter st)).event (domPage d) 0 := if_neg h

theorem same_domTo (h : (s.dom d).state ≠ st) : Same (s.setDom d (Dom.enter st)) (s.domTo d st) := by
  rw [s.domTo_enters h]
  exact (Kept.event _ _ _).same

theorem State.domTo_dom :
    (s.domTo d st).dom d = if (s.dom d).state = st then s.dom d else (s.dom d).enter st := by
  split
  · next h => rw [State.domTo, if_pos h]
  · next h => simp [s.domTo_enters h]

@[simp] theorem State.domTo_state : ((s.domTo d st).dom d).state = st := by
  rw [s.domTo_dom]
  split
  · assumption
  · rfl

@[simp] theorem State.domTo_yout : ((s.domTo d st).dom d).yout = (s.dom d).yout := by
  rw [s.domTo_dom]
  split <;> rfl

@[simp] theorem State.domTo_forcedHo : ((s.domTo d st).dom d).forcedHo = (s.dom d).forcedHo := by
  rw [s.domTo_dom]
  split <;> rfl

end

/-! ### QL_OUT (R187) -/

/-- QL_OUT of a domain; `w` holds its levels outside tracking. -/
def Dom.quality (x : Dom) (w : Word) : Nat :=
  match x.state with
  | .init => 15
  | .freeRun => bits w 3 0
  | .acquire | .locked => x.sel.rank
  | .holdover => bits w 7 4
  | .holdoverLimited => bits w 11 8

theorem Dom.quality_init {x : Dom} {w : Word} (h : x.state = .init) : x.quality w = 15 := by simp [Dom.quality, h]

theorem State.qlRound_eq : s.qlRound d = s.setDom d fun x => { x with qlOut := x.quality (s.dcfg d 0x28) } := rfl

/-- QL_OUT follows a change of a domain. -/
theorem same_qlRound {s t : State} {f : Dom → Dom} (h : Same (s.setDom d f) t) :
    Same (s.setDom d fun x => { f x with qlOut := (f x).quality (s.dcfg d 0x28) }) (t.qlRound d) := by
  rw [t.qlRound_eq, h.dcfg]
  exact h.andDom (g := fun x => { x with qlOut := x.quality (s.dcfg d 0x28) })

/-- A domain that becomes LOCKED shows the rank of its reference. -/
theorem same_lock (h : (s.dom d).state = .acquire) :
    Same (s.setDom d fun x => { x.enter .locked with qlOut := x.sel.rank }) ((s.domTo d .locked).qlRound d) :=
  same_qlRound (same_domTo s (by simp [h]))

/-- A domain that loses LOCKED returns to ACQUIRE with no history of y_out. -/
theorem same_loseLock (h : (s.dom d).state = .locked) :
    Same (s.setDom d fun x => { x.enter .acquire with yHist := [], qlOut := x.sel.rank })
      ((s.loseLock d).qlRound d) := by
  have hstate : (s.dom d).state ≠ .acquire := by simp [h]
  have hlost := (same_domTo s hstate).andDom (g := fun x => { x with yHist := [] })
  exact same_qlRound (hlost.trans (((Kept.bump _ _ _).trans (Kept.event _ _ _)).same (l := [])))

/-- A domain whose HOLDOVER ends at a limit freezes at its prediction (R179). -/
theorem same_limitHoldover (h : (s.dom d).state = .holdover) :
    Same (s.setDom d fun x => { x.enter .holdoverLimited with
      ye := s.predict d, qlOut := bits (s.dcfg d 0x28) 11 8 }) ((s.limitHoldover d).qlRound d) := by
  let u := s.setDom d fun x => { x with ye := s.predict d }
  have hentered : Same (s.setDom d fun x => Dom.enter .holdoverLimited { x with ye := s.predict d })
      (u.domTo d .holdoverLimited) := (Same.setDom_twice rfl).trans (same_domTo u (by simp [u, h]))
  exact same_qlRound (hentered.trans (Kept.event _ _ _).same)

/-! ### The sluice (R184, R185) -/

@[simp] theorem State.sluRestart_dom :
    (s.sluRestart d).dom d = { s.dom d with seg := 0, left := s.sluDur d 0, acc := 0 } := by simp [State.sluRestart]

/-- Before the last segment the profile goes on to the next one. -/
theorem State.sluNext_moves (h : (s.dom d).seg < 15) : s.sluNext d = s.setDom d fun x => { x with
    seg := (s.dom d).seg + 1, left := s.sluDur d ((s.dom d).seg + 1) } := if_pos h

/-- The last segment has no end. -/
theorem State.sluNext_last (h : 15 ≤ (s.dom d).seg) : s.sluNext d = s.setDom d fun x => { x with left := 0 } :=
  if_neg (Nat.not_lt.mpr h)

/-! ### The learned model (R178) -/

/-- An interval that is spoilt, fenced or empty enters no fit. -/
theorem State.modelSample_spoilt (h : let m := (s.dom d).model; m.bad = true ∨ m.fenced = true ∨ m.cnt = 0) :
    ((s.modelSample d).dom d).model = { (s.dom d).model with cnt := 0, sumY := 0, sumT := 0, bad := false } := by
  simp only [State.modelSample, if_pos h, State.setDom_dom_self]

/-- A clean interval ends as a sample of the fit, and its rounds are learned. -/
theorem State.modelSample_learns (hclean : (s.dom d).model.bad = false) (hopen : (s.dom d).model.fenced = false)
    (hcnt : (s.dom d).model.cnt ≠ 0) : let m := ((s.modelSample d).dom d).model
    m.cnt = 0 ∧ m.bad = false ∧ (∃ p, m.samples = p :: (s.dom d).model.samples) ∧
      m.learned = (s.dom d).model.learned + (s.dom d).model.cnt := by
  have hsample : ¬ ((s.dom d).model.bad = true ∨ (s.dom d).model.fenced = true ∨ (s.dom d).model.cnt = 0) := by
    simp [hclean, hopen, hcnt]
  simp [State.modelSample, if_neg hsample]

/-! ### Model records (R181, R182) -/

/-- Slot and sequence number of the next record: the slot that does not hold the newest one. -/
def State.modelNext (s : State) (d : Nat) : Nat × Nat :=
  match newestSlot [s.modelSeq d 0, s.modelSeq d 1] with
  | some (i, q) => (1 - i, (q + 1) % 2 ^ 32)
  | none => (0, 1)

theorem State.modelNext_lt : (s.modelNext d).1 < 2 := by
  unfold State.modelNext
  split
  · exact Nat.lt_succ_of_le (Nat.sub_le _ _)
  · decide

/-- The first record goes to slot 0. -/
theorem State.modelNext_first (h0 : s.modelSeq d 0 = none) (h1 : s.modelSeq d 1 = none) :
    s.modelNext d = (0, 1) := by simp [State.modelNext, newestSlot, h0, h1]

/-- The second record goes to slot 1. -/
theorem State.modelNext_second {q : Nat} (h0 : s.modelSeq d 0 = some q) (h1 : s.modelSeq d 1 = none) :
    s.modelNext d = (1, (q + 1) % 2 ^ 32) := by simp [State.modelNext, newestSlot, h0, h1]

theorem State.nvWrite_mem {a : Nat} {ws : List Nat} (h : s.nvWritable = true) :
    (s.nvWrite a ws).nv.mem = setNvWords s.nv.mem a ws := by simp [State.nvWrite, h]

/-- In a good place of a store that takes writes, the next record is written. -/
theorem State.saveModel_writes (hplace : s.modelNvOk d = true) (hstore : s.nvWritable = true) :
    (s.saveModel d).nv.mem = setNvWords s.nv.mem (s.modelAddr d + 64 * (s.modelNext d).1)
      (s.modelRecord d (s.modelNext d).2) := by
  have hsave : s.saveModel d = ((s.nvWrite (s.modelAddr d + 64 * (s.modelNext d).1)
      (s.modelRecord d (s.modelNext d).2)).bump (domPage d) 0xA28).event (domPage d) 6 := by
    unfold State.saveModel
    rw [if_neg (by simp [hplace]), if_neg (by simp [hstore])]
    rfl
  rw [hsave]
  exact s.nvWrite_mem hstore

@[simp] theorem State.storeRec_nv (r : FaultRec) : (s.storeRec r).nv = s.nv := by
  unfold State.storeRec
  dsimp only
  split
  · rfl
  · split <;> rfl

@[simp] theorem State.collectC_nv (e : Event) : (s.collectC e).nv = s.nv := by
  unfold State.collectC
  dsimp only
  split <;> simp

/-- In another place nothing is written: DOM_MODEL_NV_FAIL is of class C (R195). -/
theorem State.saveModel_skips (hd : d < 12) (hplace : s.modelNvOk d = false) : (s.saveModel d).nv = s.nv := by
  have hskip : s.saveModel d = s.raise (domPage d) 6 := if_pos hplace
  rw [hskip, State.raise, State.report, modelFail_corrected d hd]
  exact s.collectC_nv _

/-! ### ENABLE and DISABLE (R174, R490) -/

@[simp] theorem State.timeEnable_dom (j : Nat) : (s.timeEnable d).dom j = s.dom j := by
  unfold State.timeEnable
  split <;> rfl

@[simp] theorem State.timeInit_dom (j : Nat) : (s.timeInit d).dom j = s.dom j := by
  unfold State.timeInit
  split <;> simp [State.setValid]

/-- The model of a domain after ENABLE has restored it. -/
def State.restoredModel (s : State) (d : Nat) : Model := ((s.restoreModel d).dom d).model

theorem State.takeModel_dom (i : Nat) :
    (s.takeModel d i).dom d = { s.dom d with model := ((s.takeModel d i).dom d).model } := by
  unfold State.takeModel
  dsimp only
  split
  · rfl
  · simp only [State.setDom_dom_self]

/-- ENABLE restores nothing of the domain but its model. -/
@[simp] theorem State.restoreModel_dom :
    (s.restoreModel d).dom d = { s.dom d with model := s.restoredModel d } := by
  unfold State.restoredModel State.restoreModel
  dsimp only
  split
  · rfl
  · split
    · split
      · exact State.takeModel_dom _ _
      · rfl
    · rfl

/-- ENABLE leads to FREERUN with y_out 0. -/
theorem State.domEnable_dom : let x := (s.domEnable d).dom d
    x.state = .freeRun ∧ x.yout = 0 ∧ x.forcedHo = false := by
  simp [State.domEnable, State.qlRound_eq]

/-- The end of an ensemble leaves the state of its domain alone. -/
theorem State.leaveEnsemble_state : ((s.leaveEnsemble d).dom d).state = (s.dom d).state := by
  unfold State.leaveEnsemble
  dsimp only
  split
  · simp only [State.setSel_dom_self, State.eventIf_dom]
    refine List.foldlRecOn (motive := fun t : State => (t.dom d).state = (s.dom d).state) _ _ rfl fun t h j _ => ?_
    simpa [State.setDslot] using h
  · rfl

@[simp] theorem State.selOff_state : ((s.selOff d).dom d).state = (s.dom d).state := by
  simpa [State.selOff, State.selNone] using s.leaveEnsemble_state

@[simp] theorem State.selOff_valid : ((s.selOff d).dom d).sel.valid = false := by simp [State.selOff, State.selNone]

/-- DISABLE leads to INIT without a reference, at quality level 15. -/
theorem State.domInit_dom : let x := (s.domInit d).dom d
    x.state = .init ∧ x.sel.valid = false ∧ x.qlOut = 15 := by
  simp [State.domInit, State.qlRound_eq, Dom.quality_init]

end Sys2Proof.Machine

namespace Sys2Proof.Stated

open Machine

variable {s u : State} {c : Instr} {m : Master} {d : Fin 12}

/-- A meaning that ends in a fault event on `u`, in native mode. -/
theorem reports_raise {p b : Nat} (he : exec c s = finish (u.raise p b)) (hnative : u.fault.compat = false) :
    Reports c s u := reports_of he (Safety.Reported.report u _ hnative)

/-- A loop command that its checks let through waits, and takes effect at the boundary of a round in which its domain is
not frozen and the checks made again pass (R507, R509). -/
theorem waits_loop {code : Nat} {legal : State → Prop} {effect : State → State → Prop}
    (hr : Ready s (domPage d) m) (he : exec c s = finish (s.domCommand d m code)) (hcode : code < 256)
    (hresult : (s.domChecks d code (s.arg (domPage d) (masterCode m)) false).result = 0)
    (hlegal : ∀ u, legal u → (u.domRuns d = true ∨ (u.dom d).state = .init) ∧
      (u.domChecks d code (s.arg (domPage d) (masterCode m)) true).again = 0)
    (hb : ∀ u g, effect u (State.domEffect d (waiting s (domPage d) m code (s.arg (domPage d) (masterCode m)))
      { u with pages := g })) :
    Waits c s (domPage d) m code (s.arg (domPage d) (masterCode m)) (State.domApply · d) legal effect := by
  refine waits_submit hr he rfl hresult hcode fun u hpend hu => ?_
  obtain ⟨hruns, hagain⟩ := hlegal u hu
  obtain ⟨g, happly⟩ := u.domApply_pending hpend hruns hagain
  exact happly ▸ hb u g

end Sys2Proof.Stated
end

section
/-! PROOFS. The obligations on the domain loops. -/

namespace Sys2Proof.Settled

open Machine Stated

/-- Settles O14: each command is legal where R186 has it so; ENABLE and DISABLE enter one state, MODEL_SAVE writes the
slot that does not hold the newest record, and the other effects are one write to the domain. -/
theorem domainCommandsTakeEffect : Obligations.DomainCommandsTakeEffect := by
  unfold Obligations.DomainCommandsTakeEffect
  intro d m s p a hr hidle runs hold track cleared
  have hpage : domPage d = p := rfl
  have hbusy : s.busy p = false := congrArg Option.isSome hidle
  refine ⟨fun hfb hrole hst hclear => ?enable, fun hlock hrole hst huse => ?disable, fun hrole hst => ?force,
    fun hrole hst hforced hfence => ?release, fun hrole hst => ?sluice, fun hlock hst => ?reset,
    fun hst hvalid => ?save⟩
  case enable =>
    have hsafe {u : State} (h : cleared u) : ((u.dom d).safe && (u.fault.cause d).isSome) = false := by
      rcases h with h | h <;> simp [h]
    refine waits_loop hr rfl (by decide) ?_ (fun u hu => ?_) fun u g => State.domEnable_dom _
    · simpa [State.domChecks, Checks.result, hpage, hbusy, hrole, hst, hfb, FaultUnit.cause] using hsafe hclear
    · obtain ⟨hrole, hst, hclear⟩ := hu
      exact ⟨.inr hst, by simpa [State.domChecks, Checks.again, hrole, hst, FaultUnit.cause] using hsafe hclear⟩
  case disable =>
    have hfree {u : State} (h : 4 ≤ d.val ∨ u.domServes d = false) : (decide (d.val < 4) && u.domServes d) = false := by
      rcases h with h | h
      · rw [decide_eq_false (Nat.not_lt.mpr h), Bool.false_and]
      · rw [h, Bool.and_false]
    refine waits_loop hr rfl (by decide) ?_ (fun u hu => ?_) fun u g => State.domInit_dom _
    · simp [State.domChecks, Checks.result, hpage, hbusy, hlock, hrole, hst, hfree huse]
    · obtain ⟨hruns, hlock, hrole, hst, huse⟩ := hu
      exact ⟨.inl hruns, by simp [State.domChecks, Checks.again, hpage, hlock, hrole, hst, hfree huse]⟩
  case force =>
    refine waits_loop hr rfl (by decide) ?_ (fun u hu => ?_) fun u g => State.setDom_dom_self _ _ _
    · rcases hst with hst | hst <;> simp [State.domChecks, Checks.result, hpage, hbusy, hrole, hst]
    · obtain ⟨hruns, hrole, hst⟩ := hu
      refine ⟨.inl hruns, ?_⟩
      rcases hst with hst | hst <;> simp [State.domChecks, Checks.again, hrole, hst]
  case release =>
    refine waits_loop hr rfl (by decide) ?_ (fun u hu => ?_) fun u g => State.setDom_dom_self _ _ _
    · rcases hst with hst | hst <;>
        simp [State.domChecks, Checks.result, hpage, hbusy, hrole, hst, hforced, hfence]
    · obtain ⟨hruns, hrole, hst, hforced, hfence⟩ := hu
      refine ⟨.inl hruns, ?_⟩
      rcases hst with hst | hst <;> simp [State.domChecks, Checks.again, hrole, hst, hforced, hfence]
  case sluice =>
    refine waits_loop hr rfl (by decide) ?_ (fun u hu => ?_) fun u g => State.sluRestart_dom _
    · simp [State.domChecks, Checks.result, hpage, hbusy, hrole, hst]
    · obtain ⟨hruns, hrole, hst⟩ := hu
      exact ⟨.inl hruns, by simp [State.domChecks, Checks.again, hrole, hst]⟩
  case reset =>
    refine waits_loop hr rfl (by decide) ?_ (fun u hu => ?_) fun u g => ?_
    · simpa [State.domChecks, Checks.result, hpage, hbusy, hlock, hold] using hst
    · obtain ⟨hruns, hlock, hst⟩ := hu
      exact ⟨hruns, by simpa [State.domChecks, Checks.again, hpage, hlock, hold] using hst⟩
    · simp [State.domEffect, waiting, Model.clear, Model.zero]
  case save =>
    refine waits_loop hr rfl (by decide) ?_ (fun u hu => ?_) fun u g => ?_
    · simp [State.domChecks, Checks.result, hpage, hbusy, hst, hvalid]
    · obtain ⟨hruns, hst, hvalid⟩ := hu
      exact ⟨.inl hruns, by simp [State.domChecks, Checks.again, hst, hvalid]⟩
    · refine ⟨fun hplace hstore => ⟨(u.modelNext d).1, (u.modelNext d).2, u.modelNext_lt, ?_, fun h0 h1 => ?_,
        fun q h0 h1 => ?_⟩, fun hplace => ?_⟩
      · exact State.saveModel_writes { u with pages := g } hplace hstore
      · simp [u.modelNext_first h0 h1]
      · simp [u.modelNext_second h0 h1]
      · exact congrArg NvUnit.mem (State.saveModel_skips { u with pages := g } d.isLt hplace)

section
variable {s : State} {d : Fin 12}

/-- LOCK_CRITERION of a domain in ACQUIRE that meets it. -/
theorem exec_lockCriterion (hlive : s.domLive d = true) (hst : (s.dom d).state = .acquire)
    (herr : 10 * (s.dom d).err.natAbs ≤ s.lockPh d) (hfree : (s.dom d).sluClamp = false) :
    exec (.lockCriterion d) s = finish ((s.domTo d .locked).qlRound d) :=
  congrArg finish (if_pos ⟨hlive, hst, herr, hfree⟩)

/-- UNLOCK_CRITERION of a LOCKED domain that meets it. -/
theorem exec_unlockCriterion (hlive : s.domLive d = true) (hst : (s.dom d).state = .locked)
    (herr : 4 * s.lockPh d < 10 * (s.dom d).err.natAbs) :
    exec (.unlockCriterion d) s = finish ((s.loseLock d).qlRound d) := congrArg finish (if_pos ⟨hlive, hst, herr⟩)

/-- HOLDOVER_LIMIT of a domain in HOLDOVER. -/
theorem exec_holdoverLimit (hlive : s.domLive d = true) (hst : (s.dom d).state = .holdover) :
    exec (.holdoverLimit d) s = finish ((s.limitHoldover d).qlRound d) := congrArg finish (if_pos ⟨hlive, hst⟩)

/-- SLUICE_SEGMENT_END of a domain that runs, in a segment that has an end. -/
theorem exec_sluiceSegmentEnd (hinit : s.isInit d = false) (hruns : s.domRuns d = true)
    (hends : s.sluDur d (s.dom d).seg ≠ 0) : exec (.sluiceSegmentEnd d) s = finish (s.sluNext d) :=
  congrArg finish (if_pos ⟨hinit, hruns, hends⟩)

/-- MODEL_SAMPLE of a domain that runs. -/
theorem exec_modelSample (hinit : s.isInit d = false) (hruns : s.domRuns d = true) :
    exec (.modelSample d) s = finish (s.modelSample d) := congrArg finish (if_pos ⟨hinit, hruns⟩)

/-- DOM_FB_LOSS of an enabled domain. -/
theorem exec_domFbLoss (hinit : s.isInit d = false) :
    exec (.domFbLoss d) s = finish ((s.setDom d fun x => { x with open_ := true }).raise (domPage d) 4) :=
  congrArg finish (if_neg (by simp [hinit]))

/-- DOM_FB_RANGE of an enabled domain. -/
theorem exec_domFbRange (hinit : s.isInit d = false) :
    exec (.domFbRange d) s = finish ((s.setDom d fun x => { x with open_ := true }).raise (domPage d) 5) :=
  congrArg finish (if_neg (by simp [hinit]))

end

/-- Settles O15: each change of state is one entry, whose QL_OUT follows; an interval of the model is a sample when it
is clean; a feedback fault opens the loop before the collector takes it. -/
theorem domainEventsTakeEffect : Obligations.DomainEventsTakeEffect := by
  unfold Obligations.DomainEventsTakeEffect
  intro d s x q
  refine ⟨fun hlive => ⟨fun hst herr hfree => ?lock, fun hst herr => ?unlock, fun hst => ?limit⟩,
    fun hst hruns => ⟨fun hends => ⟨fun hseg => ?nextSegment, fun hseg => ?lastSegment⟩, ?sample⟩,
    fun hst hnative => ?feedback⟩
  case lock =>
    exact does_of (exec_lockCriterion hlive hst herr hfree) (same_lock s hst)
  case unlock =>
    exact does_of (exec_unlockCriterion hlive hst herr) (same_loseLock s hst)
  case limit =>
    exact does_of (exec_holdoverLimit hlive hst) (same_limitHoldover s hst)
  case nextSegment =>
    refine does_of (exec_sluiceSegmentEnd (s.isInit_eq_false hst) hruns hends) ?_
    rw [s.sluNext_moves hseg]
    exact Safety.Same.setDom rfl
  case lastSegment =>
    refine does_of (exec_sluiceSegmentEnd (s.isInit_eq_false hst) hruns hends) ?_
    rw [s.sluNext_last hseg]
    exact Safety.Same.refl _
  case sample =>
    refine completes_of (exec_modelSample (s.isInit_eq_false hst) hruns) fun t hkept => ?_
    rw [hkept.dom]
    by_cases hsample : x.model.bad = true ∨ x.model.fenced = true ∨ x.model.cnt = 0
    · rw [s.modelSample_spoilt hsample]
      refine ⟨rfl, rfl, fun _ => ⟨rfl, rfl⟩, fun hclean hopen hcnt => absurd hsample ?_⟩
      simp [hclean, hopen, hcnt]
    · obtain ⟨hclean, hopen, hcnt⟩ : x.model.bad = false ∧ x.model.fenced = false ∧ x.model.cnt ≠ 0 := by
        simpa using hsample
      obtain ⟨hzero, hgood, ⟨p, hsamples⟩, hlearned⟩ := s.modelSample_learns hclean hopen hcnt
      exact ⟨hzero, hgood, fun h => absurd h hsample, fun _ _ _ => ⟨congrArg List.length hsamples, hlearned⟩⟩
  case feedback =>
    have hinit := s.isInit_eq_false hst
    exact ⟨reports_raise (exec_domFbLoss hinit) hnative, reports_raise (exec_domFbRange hinit) hnative⟩

end Sys2Proof.Settled
end

section
/-! PROOFS. The F reaction on outputs (R214, R433): an operation on each output of a list, and what the F reaction of a
domain leaves of its outputs. -/

namespace Sys2Proof.Machine

variable (s : State)

/-! ### Operations on several outputs -/

/-- An operation that changes its own output by `f`, and no other one, changes the outputs of a list by `f`. -/
theorem State.foldl_out {g : State → Nat → State} {f : Out → Out}
    (hg : ∀ (s : State) (i j : Nat), (g s i).out j = if j = i then f (s.out i) else s.out j)
    (hf : ∀ o, f (f o) = f o) (js : List Nat) (j : Nat) :
    (js.foldl g s).out j = if j ∈ js then f (s.out j) else s.out j := by
  induction js generalizing s with
  | nil => simp
  | cons i js ih =>
    rw [List.foldl_cons, ih, hg]
    by_cases hji : j = i
    · subst j
      simp [hf]
    · simp [hji]

/-! ### The F reaction -/

@[simp] theorem State.castleRequest_out (c j : Nat) : (s.castleRequest c).out j = s.out j := by
  unfold State.castleRequest
  repeat' split
  all_goals rfl

/-- An output that is held for SAFE already stays as it is. -/
theorem holdForSafe_idem (o : Out) : holdForSafe (holdForSafe o) = holdForSafe o := by
  unfold holdForSafe
  split <;> simp_all

/-- A clock or pulse output that waits, runs or is squelched is held for SAFE. -/
theorem holdForSafe_held {o : Out} (hsrc : o.cfg.src ≠ 2)
    (hst : o.state = .wait ∨ o.state = .run ∨ o.state = .squelched) : (holdForSafe o).held = true := by
  simp [holdForSafe, hsrc, hst]

/-- The F reaction on a domain that is not in INIT holds the outputs of that domain and no other one (R214, R433). -/
theorem State.fReaction_out {id d : Nat} (h : s.isInit d = false) (j : Nat) :
    (s.fReaction id d).out j = if j ∈ s.domOuts d then holdForSafe (s.out j) else s.out j := by
  rw [← s.foldl_out (fun s i j => s.setOut_out j i holdForSafe) holdForSafe_idem]
  simp [State.fReaction, h]

end Sys2Proof.Machine
end

section
/-! PROOFS. The obligation on the F reaction. -/

namespace Sys2Proof.Settled

open Machine

/-- Settles O56: the reaction makes the domain due in SAFE and holds the outputs on its list; in INIT it does
nothing. -/
theorem fReactionHoldsOutputs : Obligations.FReactionHoldsOutputs := by
  unfold Obligations.FReactionHoldsOutputs
  intro id d s t
  refine ⟨s.fReaction_init, fun hlive => ?_⟩
  have hdom : t.dom d = { s.dom d with safePend := some ((s.dom d).safePend.getD id) } :=
    (s.fReaction_dom hlive d).trans (if_pos rfl)
  refine ⟨by rw [hdom], by rw [hdom], fun j hj hsrc hst => ?held, fun j hj => ?other⟩
  case held =>
    have hout : t.out j = holdForSafe (s.out j) := (s.fReaction_out hlive j).trans (if_pos hj)
    exact hout ▸ holdForSafe_held hsrc hst
  case other => exact (s.fReaction_out hlive j).trans (if_neg hj)

end Sys2Proof.Settled
end

section
/-! PROOFS. Outputs (R205, R213 to R220, R227, R228): what a change of state, a restart, a hold and a start leave of an
output, and what OUT commands do at their boundary. -/

namespace Sys2Proof.Safety

theorem Kept.out {s t : Machine.State} (h : Kept s t) (j : Nat) : t.out j = s.out j := by
  simp [Machine.State.out, h.outs]

end Sys2Proof.Safety

namespace Sys2Proof.Machine

open Safety

variable (s : State) {j : Nat}

/-! ### The link of an output (R263) -/

theorem State.linkTo_eq (v : Nat) (st : LState) : ∃ l g, s.linkTo v st = { s with links := l, pages := g } := by
  unfold State.linkTo State.eventIf
  dsimp only
  split <;> exact ⟨_, _, rfl⟩

/-- Keeping a link with its output touches the links, the page flags and the number of free values. -/
theorem State.linkOf_eq (i : Nat) : ∃ l g n, s.linkOf i = { s with links := l, pages := g, free := n } := by
  have hlinkTo (v : Nat) (st : LState) :
      ∃ l g n, s.linkTo v st = { s with links := l, pages := g, free := n } := by
    obtain ⟨l, g, h⟩ := s.linkTo_eq v st
    exact ⟨l, g, s.free, h⟩
  have hopen (v : Nat) (f : Link → Link) :
      ∃ l g n, ((s.linkTo v .idle).setLink v f).nextFree = { s with links := l, pages := g, free := n } := by
    obtain ⟨l, g, h⟩ := s.linkTo_eq v .idle
    exact h ▸ ⟨_, _, _, rfl⟩
  have hsame : ∃ l g n, s = { s with links := l, pages := g, free := n } := ⟨_, _, _, rfl⟩
  unfold State.linkOf State.linkSync
  dsimp only
  split
  · split
    · split
      · exact hsame
      · exact hlinkTo _ _
    · split
      · split
        · exact hopen _ _
        · exact hsame
      · split
        · exact hlinkTo _ _
        · exact hsame
  · exact hsame

@[simp] theorem State.linkOf_out (i j : Nat) : (s.linkOf i).out j = s.out j := by
  obtain ⟨_, _, _, h⟩ := s.linkOf_eq i
  rw [h]; rfl

@[simp] theorem State.linkOf_fault (i : Nat) : (s.linkOf i).fault = s.fault := by
  obtain ⟨_, _, _, h⟩ := s.linkOf_eq i
  rw [h]

/-! ### Changes of state, restarts and holds (R213, R215, R228) -/

@[simp] theorem State.eventIf_out (b : Bool) (p k j : Nat) : (State.eventIf b p k s).out j = s.out j :=
  (kept_eventIf s b p k).out j

/-- A change of state of an output that does not leave RUN touches its state and its hold. -/
theorem State.setOutState_out {st : OState} (held : Bool) (h : (s.out j).state ≠ .run) :
    (s.setOutState j st held).out j = { s.out j with state := st, held } := by
  simp [State.setOutState, h]

@[simp] theorem State.restartOut_out (c : OutCfg) : (s.restartOut j c).out j = { s.out j with
    cfg := c, held := true, starting := true, move := none, sync := false, hit := true
    armed := s.osc.bnd * finePeriod } := by
  simp [State.restartOut]

@[simp] theorem State.restartOut_fault (c : OutCfg) : (s.restartOut j c).fault = s.fault := by simp [State.restartOut]

/-- An output that is held where it stands, until its next start. -/
def Out.hold (o : Out) : Out := { o with held := true, starting := false }

theorem State.holdOut_out (i j : Nat) : (s.holdOut i).out j = if j = i then (s.out i).hold else s.out j := by
  simp [State.holdOut, State.setOut_out, Out.hold]

@[simp] theorem State.holdOut_fault (i : Nat) : (s.holdOut i).fault = s.fault := by simp [State.holdOut]

/-! ### The start epoch (R205, R215) -/

section
variable (hstarts : (s.out j).starting = true) (halone : (s.out j).sync = false)
include hstarts halone

/-- A WAIT output that may start begins in RUN. -/
theorem State.startOut_waiting (hst : (s.out j).state = .wait) (hmay : s.mayStart j = true) :
    (s.startOut j).out j = Out.begin { s.out j with state := .run, held := false } := by
  have hout := s.setOutState_out (st := .run) false (j := j) (by simp [hst])
  simp [State.startOut, hstarts, halone, hst, hmay, hout]

/-- A running output whose source is LOCKED begins anew. -/
theorem State.startOut_running (hst : (s.out j).state = .run) (hlock : s.sourceLocked j = true) :
    (s.startOut j).out j = (s.out j).begin := by
  simp [State.startOut, hstarts, halone, hst, hlock]

end

/-! ### VERIFY (R220) -/

/-- An output whose VERIFY ends with result `r` shows the largest difference. -/
def Out.verified (r : Nat) (o : Out) : Out :=
  { o with verifyBusy := false, verifyLeft := 0, verifyErr := o.verifyMax, verifyResult := r }

section
variable (hbusy : (s.out j).verifyBusy = true)
include hbusy

/-- A VERIFY within the limit passes. -/
theorem State.endVerify_passes (hmax : (s.out j).verifyMax ≤ 6400) :
    s.endVerify j = (s.setOut j (Out.verified 1)).event (outPage j) 2 := by
  unfold Out.verified
  simp [State.endVerify, hbusy, Nat.not_lt.mpr hmax]

/-- A VERIFY beyond the limit fails and is reported. -/
theorem State.endVerify_fails (hmax : 6400 < (s.out j).verifyMax) : s.endVerify j =
    (((s.setOut j (Out.verified 2)).event (outPage j) 2).bump (outPage j) 0xA18).raise (outPage j) 2 := by
  unfold Out.verified
  simp [State.endVerify, hbusy, hmax]

end

/-! ### Faults of outputs (R228) -/

theorem pageKind_outPage : ∀ j < 40, pageKind (outPage j) = .out := by decide

/-- A fault of an output is its first reaction, then the report. -/
theorem State.detect_output (hj : j < 40) (b : Nat) :
    s.detect { page := outPage j, bit := b } = (s.outReact j b).raise (outPage j) b := by
  have hindex : outPage j - 0x90 = j := Nat.add_sub_cancel_left _ _
  simp [State.detect, State.react, State.afterReport, State.raise, pageKind_outPage j hj, hindex]

/-- A fault event in native mode touches of an output at most its hold, and releases none. -/
theorem raise_out {s t : State} {p b : Nat} (h : Kept (s.raise p b) t) (hnative : s.fault.compat = false) (j : Nat) :
    ∃ held, t.out j = { s.out j with held } ∧ ((s.out j).held = true → held = true) := by
  rw [h.out]
  rcases State.report_out hnative j (e := { page := p, bit := b }) with hout | hout
  · exact ⟨_, hout, id⟩
  · exact ⟨true, hout, fun _ => rfl⟩

@[simp] theorem State.driverFault_out : (s.driverFault j).out j =
    { s.out j with held := true, starting := false, driverOk := false, driverBad := true } := by
  simp [State.driverFault, s.holdOut_out, Out.hold]

@[simp] theorem State.driverFault_fault : (s.driverFault j).fault = s.fault := by simp [State.driverFault]

/-- The outputs of a bank whose supply fails are held. -/
theorem State.bankFault_out {b n : Nat} (hn : n < 8) :
    (s.bankFault b).out (8 * b + n) = (s.out (8 * b + n)).hold := by
  have hbank : 8 * b + n ∈ (List.range 8).map (8 * b + ·) := List.mem_map.mpr ⟨n, List.mem_range.mpr hn, rfl⟩
  exact (s.foldl_out (fun s i j => s.holdOut_out i j) (fun _ => rfl) _ _).trans (if_pos hbank)

@[simp] theorem State.bankFault_fault (b : Nat) : (s.bankFault b).fault = s.fault :=
  List.foldlRecOn (motive := fun t : State => t.fault = s.fault) _ _ rfl fun t h i _ => (t.holdOut_fault i).trans h

/-! ### OUT commands (R227) -/

/-- What an OUT command does at its boundary. -/
def State.outEffect (j : Nat) (q : CmdPend) (s : State) : State :=
  match q.code with
  | 1 => s.setOut j fun o => { o with
      verifyBusy := true, verifyLeft := 2 * ((bits q.arg 15 0 + 63) / 64), verifyMax := 0, verifyResult := 0 }
  | 2 => if (s.out j).hit then s else s.restartOut j ((s.out j).move.getD (s.out j).cfg)
  | _ => s.setOutState j .wait true

/-- A pending OUT command takes effect when the checks made again pass (R507). -/
theorem State.outApply_pending {q : CmdPend} (hpend : (s.page (outPage j)).pend = some q)
    (hagain : (s.outChecks j q.code q.arg).again = 0) :
    ∃ g, s.outApply j = State.outEffect j q { s with pages := g } := by
  have happly : s.outApply j = s.settleCmd (outPage j) (s.outChecks j q.code q.arg).again (State.outEffect j) := by
    unfold State.outApply
    rw [hpend]
    rfl
  obtain ⟨v, hv, g, rfl⟩ := Stated.settle_of (f := State.outEffect j) hpend hagain
  exact ⟨g, happly.trans hv⟩

end Sys2Proof.Machine

namespace Sys2Proof.Stated

open Machine

/-- An OUT command that its checks let through waits, and takes effect at the boundary where the checks made again
pass (R507). -/
theorem waits_output {s : State} {c : Instr} {m : Master} {j : Fin 40} {code : Nat} {legal : State → Prop}
    {effect : State → State → Prop} (hr : Ready s (outPage j) m) (he : exec c s = finish (s.outCommand j m code))
    (hcode : code < 256) (hresult : (s.outChecks j code (s.arg (outPage j) (masterCode m))).result = 0)
    (hlegal : ∀ u, legal u → (u.outChecks j code (s.arg (outPage j) (masterCode m))).again = 0)
    (hb : ∀ u v : State, v.out j = u.out j → v.osc = u.osc → legal u → effect u
      (State.outEffect j (waiting s (outPage j) m code (s.arg (outPage j) (masterCode m))) v)) :
    Waits c s (outPage j) m code (s.arg (outPage j) (masterCode m)) (State.outApply · j) legal effect := by
  refine waits_submit hr he rfl hresult hcode fun u hpend hu => ?_
  obtain ⟨g, happly⟩ := u.outApply_pending hpend (hlegal u hu)
  exact happly ▸ hb u { u with pages := g } rfl rfl hu

end Sys2Proof.Stated
end

section
/-! PROOFS. The obligation on outputs. -/

namespace Sys2Proof.Settled

open Machine Stated

section
variable {s : State} {j : Fin 40}

/-- OUT_DRIVER. -/
theorem exec_outDriver : exec (.outDriver j) s = finish ((s.driverFault j).raise (outPage j) 1) :=
  congrArg finish (s.detect_output j.isLt 1)

/-- OUT_DIV_MISMATCH of a running output: it restarts where it runs or moves to. -/
theorem exec_outDivMismatch (hst : (s.out j).state = .run) : exec (.outDivMismatch j) s =
    finish ((s.restartOut j ((s.out j).move.getD (s.out j).cfg)).raise (outPage j) 0) := by
  have hreact : s.outReact j 0 = s.restartOut j ((s.out j).move.getD (s.out j).cfg) := if_pos hst
  exact congrArg finish ((if_pos hst).trans (hreact ▸ s.detect_output j.isLt 0))

/-- OUT_BANK_SUPPLY where the device is out of reset. -/
theorem exec_outBankSupply {b : Fin 5} (h : s.boot.released = true) :
    exec (.outBankSupply b) s = finish ((s.bankFault b).raise (outPage (8 * b)) 3) := congrArg finish (if_pos h)

/-- MOVE_SWITCH of an output that moves. -/
theorem exec_moveSwitch {c : OutCfg} (h : (s.out j).move = some c) : exec (.moveSwitch j) s =
    finish (((s.setOut j fun o => { o with
      cfg := c, move := none, startFrom := some (o.armed + 1250 * finePeriod) }).bump (outPage j) 0xA10).event
        (outPage j) 3) := by
  have hexec : exec (.moveSwitch j) s = execMoveSwitch j s := rfl
  rw [hexec, execMoveSwitch, h]

end

/-- Settles O17: each command is legal where R227 has it so; each event is one operation on its output, and the report
of a fault releases none. -/
theorem outputCommandsTakeEffect : Obligations.OutputCommandsTakeEffect := by
  unfold Obligations.OutputCommandsTakeEffect
  intro j b m s p a o
  have hpage : outPage j = p := rfl
  refine ⟨fun hr hidle => ⟨fun hlen hfree hst halign hsrc => ?verify, fun hrole hst => ?restart,
      fun hlock hst => ?retry⟩,
    fun hstarts halone => ⟨fun hst hmay => ?startWaiting, fun hst hlock => ?startRunning⟩, fun c hmove => ?move,
    fun hbusy => ⟨fun hmax => ?verifyPasses, fun hmax hnative => ?verifyFails⟩,
    fun hnative => ⟨?driver, fun hst => ?divMismatch, fun hreleased => ?bank⟩⟩
  case verify =>
    have hbusy : s.busy p = false := congrArg Option.isSome hidle
    refine waits_output hr rfl (by decide) ?_ (fun u hu => ?_) fun u v hv _ _ => ?_
    · simp [State.outChecks, Checks.result, hpage, hbusy, hfree, hst, halign, hsrc, a, hlen, o]
    · obtain ⟨hst, halign, hsrc⟩ := hu
      simp [State.outChecks, Checks.again, hst, halign, hsrc]
    · simp [State.outEffect, waiting, hv, hpage, a]
  case restart =>
    have hbusy : s.busy p = false := congrArg Option.isSome hidle
    refine waits_output hr rfl (by decide) ?_ (fun u hu => ?_) fun u v hv hosc _ => ⟨fun hhit => ?_, fun hhit => ?_⟩
    · simp [State.outChecks, Checks.result, hpage, hbusy, hrole, hst, o]
    · obtain ⟨hrole, hst⟩ := hu
      simp [State.outChecks, Checks.again, hrole, hst]
    · simp [State.outEffect, waiting, hv, hhit]
    · simp [State.outEffect, waiting, hv, hhit, hosc, finePeriod]
  case retry =>
    have hbusy : s.busy p = false := congrArg Option.isSome hidle
    refine waits_output hr rfl (by decide) ?_ (fun u hu => ?_) fun u v hv _ hu => ?_
    · simp [State.outChecks, Checks.result, hpage, hbusy, hlock, hst, o]
    · obtain ⟨hlock, hst⟩ := hu
      simp [State.outChecks, Checks.again, hpage, hlock, hst]
    · obtain ⟨-, hst⟩ := hu
      have hout := v.setOutState_out (j := j) (st := .wait) true (by simp [hv, hst])
      simp [State.outEffect, waiting, hout]
  case startWaiting =>
    refine completes_of (w := s.startOut j) rfl fun t hkept => ?_
    rw [hkept.out, s.startOut_waiting hstarts halone hst hmay]
    exact ⟨rfl, rfl, rfl⟩
  case startRunning =>
    refine completes_of (w := s.startOut j) rfl fun t hkept => ?_
    rw [hkept.out, s.startOut_running hstarts halone hst hlock]
    exact ⟨hst, rfl, rfl⟩
  case move =>
    exact does_of (exec_moveSwitch hmove) ((bump_same _ _ _).trans (event_same _ _ _))
  case verifyPasses =>
    refine completes_of (congrArg finish (s.endVerify_passes hbusy hmax)) fun t hkept => ?_
    simp [hkept.out, Out.verified, o]
  case verifyFails =>
    refine completes_of (congrArg finish (s.endVerify_fails hbusy hmax)) fun t hkept => ?_
    obtain ⟨held, hout, -⟩ := raise_out hkept (by simpa using hnative) j
    simp [hout, Out.verified, o]
  case driver =>
    refine completes_of exec_outDriver fun t hkept => ?_
    obtain ⟨held, hout, hheld⟩ := raise_out hkept (by simpa using hnative) j
    rw [hout]
    exact ⟨hheld (by simp), by simp, by simp⟩
  case divMismatch =>
    refine completes_of (exec_outDivMismatch hst) fun t hkept => ?_
    obtain ⟨held, hout, hheld⟩ := raise_out hkept (by simpa using hnative) j
    rw [hout]
    exact ⟨hheld (by simp), by simp, by simpa using hst⟩
  case bank =>
    refine completes_of (exec_outBankSupply hreleased) fun t hkept n hn => ?_
    obtain ⟨held, hout, hheld⟩ := raise_out hkept (by simpa using hnative) (8 * b + n)
    rw [hout]
    rw [s.bankFault_out hn] at hheld ⊢
    exact ⟨hheld rfl, rfl⟩

end Sys2Proof.Settled
end

section
/-! PROOFS. The end of a band search (R206, R222). -/

namespace Sys2Proof.Machine

/-- A synthesiser that goes from CAL to SETTLING: its timer stops, and the rounds that it has been LOCKED (R341) and its
follower start anew. -/
def Syn.settles (y : Syn) : Syn :=
  { y with
    state := .settling, lockedFor := 0, lockDet := false, followAligned := false, followHold := false, followBad := 0
    left := 0 }

theorem State.synTo_settling (s : State) {k : Nat} (h : (s.syn k).state = .cal) :
    s.synTo k .settling = (s.setSyn k Syn.settles).event (synPage k) 0 := by
  have hunlocked : (SynState.settling == SynState.locked) = false := rfl
  unfold Syn.settles
  simp only [State.synTo, h, hunlocked, Bool.and_false, reduceCtorEq, if_false]
  rfl

end Sys2Proof.Machine

namespace Sys2Proof.Stated

open Machine

/-- A command does one thing: two states whose units read as after it have the same synthesisers. -/
theorem Does.syn_unique {c : Instr} {s u v : State} {l m : List Nat} (hu : Does c s u l) (hv : Does c s v m) (k : Nat) :
    u.syn k = v.syn k := by
  obtain ⟨t, ht, hsame⟩ := hu
  obtain ⟨w, hw, hsame'⟩ := hv
  obtain rfl : t = w := Host.Outcome.next.inj (ht.symm.trans hw)
  rw [← hsame.syn, hsame'.syn]

/-- SYN_CAL_DONE of a synthesiser in CAL: it settles on the band found. -/
theorem does_synCalDone {s : State} {k : Fin 8} {band : Fin 32} (h : (s.syn k).state = .cal) :
    Does (.synCalDone k band) s (s.setSyn k fun y => { y.settles with band := band }) := by
  have he : exec (.synCalDone k band) s =
      finish (((s.setSyn k Syn.settles).setSyn k fun y => { y with band := band }).event (synPage k) 0) :=
    congrArg finish ((if_pos h).trans (congrArg (State.setSyn · k _) (s.synTo_settling h)))
  exact does_of he ((Safety.Same.setSyn_twice rfl).trans (event_same (synPage k) 0 []))

end Sys2Proof.Stated
end

section
/-! PROOFS. The obligation on synthesisers. -/

namespace Sys2Proof.Settled

open Machine Stated

/-- Refutes O16 in its clause on SYN_CAL_DONE: a synthesiser that enters SETTLING counts the rounds of its next lock
from 0 (R341), and the clause keeps the count that it had in CAL. The two differ where that count is not 0. Every change
of state clears it, so a run from reset passes through no such state; the clause lacks that premise. -/
theorem not_synthesiserCommandsTakeEffect : ¬ Obligations.SynthesiserCommandsTakeEffect := by
  unfold Obligations.SynthesiserCommandsTakeEffect
  intro h
  let s := State.reset.setSyn 0 fun y => { y with state := .cal, lockedFor := 1 }
  have hcal : (s.syn 0).state = .cal := rfl
  obtain ⟨-, hclause, -⟩ := h 0 .control 0 s
  have hsyn := (hclause hcal).syn_unique (does_synCalDone hcal) 0
  have hrounds : 1 = 0 := congrArg Syn.lockedFor hsyn
  exact absurd hrounds (by decide)

end Sys2Proof.Settled
end

section
/-! PROOFS. Operations that each touch one unit of their own, one after the other; what records leave of a
time domain; bit 24 of a register. -/

namespace Sys2Proof.Safety

open Machine

variable {s t : State}

theorem Kept.tdom (h : Kept s t) (i : Nat) : t.tdom i = s.tdom i := by simp [State.tdom, h.time]

theorem Kept.utcOfs (h : Kept s t) (i : Nat) : t.utcOfs i = s.utcOfs i := by rw [State.utcOfs, h.dir, State.utcOfs]

end Sys2Proof.Safety

namespace Sys2Proof.Machine

/-! ### Operations on several units -/

/-- Operations on several units, each of which leaves the other units alone and keeps `P`: a unit that is not operated
on reads as before, and one that is reads as after its own operation, made where `P` holds and it read as at first. -/
theorem foldl_reads {α : Type} {read : State → Nat → α} {g : State → Nat → State} {P : State → Prop}
    (hkeeps : ∀ u i, P u → P (g u i)) (hother : ∀ u i j, j ≠ i → read (g u i) j = read u j) {l : List Nat}
    (hnodup : l.Nodup) {s : State} (hs : P s) :
    P (l.foldl g s) ∧ (∀ j ∉ l, read (l.foldl g s) j = read s j) ∧
      ∀ j ∈ l, ∃ u, P u ∧ read u j = read s j ∧ read (l.foldl g s) j = read (g u j) j := by
  induction l generalizing s with
  | nil => exact ⟨hs, fun _ _ => rfl, fun j hj => absurd hj List.not_mem_nil⟩
  | cons i l ih =>
    obtain ⟨hi, hl⟩ := List.nodup_cons.mp hnodup
    obtain ⟨hP, hout, hin⟩ := ih hl (hkeeps s i hs)
    refine ⟨hP, fun j hj => ?_, fun j hj => ?_⟩
    · obtain ⟨hji, hjl⟩ := not_or.mp (mt List.mem_cons.mpr hj)
      exact (hout j hjl).trans (hother s i j hji)
    · rcases List.mem_cons.mp hj with rfl | hjl
      · exact ⟨s, hs, rfl, hout j hi⟩
      · obtain ⟨u, hu, hread, hfold⟩ := hin j hjl
        exact ⟨u, hu, hread.trans (hother s i j fun h => hi (h ▸ hjl)), hfold⟩

/-! ### Bit 24 of a register -/

variable (w : Word)

theorem bit24_word {n : Nat} : bit (word n) 24 = n.testBit 24 := BitVec.getLsbD_ofNat 32 n 24

theorem bit24_cleared : bit (w &&& ~~~word (2 ^ 24)) 24 = false := by simp [bit, word]

theorem bit24_set : bit (w ||| word (2 ^ 24)) 24 = true := by simp [bit, word]

/-- Setting a bit that is set changes nothing. -/
theorem or_bit24 (h : bit w 24 = true) : w ||| word (2 ^ 24) = w := by
  refine BitVec.eq_of_getLsbD_eq fun i hi => ?_
  by_cases hbit : i = 24
  · subst hbit
    exact (bit24_set w).trans h.symm
  · have hclear : (word (2 ^ 24)).getLsbD i = false := by
      rw [word, BitVec.getLsbD_ofNat, Nat.testBit_two_pow_of_ne (Ne.symm hbit), Bool.and_false]
    rw [BitVec.getLsbD_or, hclear, Bool.or_false]

end Sys2Proof.Machine
end

section
/-! PROOFS. Two-party commands (R476): a proposal that may be made stands on its page, and one that is countersigned for
a later boundary waits for it. -/

namespace Sys2Proof.Machine

/-- A command is accepted when no refusal applies (R401). -/
theorem Checks.result_eq_zero {ck : Checks} : ck.result = 0 ↔ ck.arg = false ∧ ck.busy = false ∧
    ck.lock = false ∧ ck.role = false ∧ ck.party = false ∧ ck.state = false := by
  unfold Checks.result
  repeat' split
  all_goals simp_all

end Sys2Proof.Machine

namespace Sys2Proof.Stated

open Machine

variable {s : State} {c : Instr} {m : Master} {p code : Nat} {arg : Word} {data : List Word} {ck : Checks}

section
variable (hck : ck.result = 0)
include hck

theorem partyChecks_propose (h : MayPropose s p m code arg) :
    (s.partyChecks p (masterCode m) code arg ck).result = 0 := by
  obtain ⟨hprop, hlock, hnonce, hparty, hbarred⟩ := h
  obtain ⟨ha, hb, hl, hr, hp, hst⟩ := Checks.result_eq_zero.mp hck
  rw [Checks.result_eq_zero]
  simp [State.partyChecks, noNonce, hprop, hlock, hnonce, hparty, hbarred, ha, hb, hl, hr, hst]

theorem partyChecks_countersign (h : Countersigns s p m code arg data) :
    (s.partyChecks p (masterCode m) code arg ck).result = 0 := by
  obtain ⟨⟨q, hprop, hmaster, rfl, rfl, -⟩, hnonce, hparty, hbarred⟩ := h
  obtain ⟨ha, hb, hl, hr, hp, hst⟩ := Checks.result_eq_zero.mp hck
  rw [Checks.result_eq_zero]
  simp [State.partyChecks, noNonce, hprop, hmaster, hnonce, hparty, hbarred, ha, hb, hl, hr, hst]

variable {F : State → State} {later : Bool} {f : List Word → State → State} (hr : Ready s p m)
  (he : exec c s = finish (s.onWrite p (masterCode m) F)) (hcode : code < 256)
include hr he hcode

/-- A two-party command that may be proposed stands as a proposal. -/
theorem proposes_twoParty (hF : F s = s.twoParty p (masterCode m) code arg ck data later f)
    (h : MayPropose s p m code arg) : Proposes c s p m code arg data := by
  let u := (s.answer p (masterCode m) code 0 true).setPage p fun g =>
    { g with prop := some { master := masterCode m, code, arg, data, age := 0 } }
  have hu : F s = u.event 0x06 2 := by
    simp [hF, State.twoParty, h.1, partyChecks_propose hck h, u]
  have hevent : Safety.Kept u (u.event 0x06 2) := Safety.Kept.event u 0x06 2
  obtain ⟨t, ht, hkept⟩ := Safety.finish_kept (u.event 0x06 2)
  have hshown := hevent.trans hkept
  refine ⟨t, by rw [he, ready_write hr, hu, ht], (kept_status hshown p _).trans ?_, (kept_prop hshown p).trans ?_, ?_⟩
  · have hstatus := s.answer_status p (masterCode m) code 0 true
    rw [Nat.mod_eq_of_lt hcode] at hstatus
    simpa [u, State.cmdStatus, accepted] using hstatus
  · simp [u]
  · exact (((answer_same p _ _ _ _).trans Safety.Same.setPage).trans hshown.same).mono fun q hq => by simp_all

/-- A countersigned command that is to wait for the boundary waits with the words that the proposal captured. -/
theorem waits_countersigned {words : List Word} {apply : State → State} {legal : State → Prop}
    {effect : State → State → Prop} (hF : F s = s.twoParty p (masterCode m) code arg ck words true f)
    (h : Countersigns s p m code arg data)
    (hb : ∀ u, (u.page p).pend = some (waiting s p m code arg data) → legal u → effect u (apply u)) :
    Waits c s p m code arg apply legal effect data := by
  obtain ⟨q, hprop, -, -, -, rfl⟩ := h.1
  let u := (s.setPage p fun g => { g with prop := none }).bump 0x06 0xA00
  have hu : F s = u.accept p (masterCode m) code arg q.data := by
    simp [hF, State.twoParty, hprop, partyChecks_countersign hck h, u]
  have hseq : (u.page p).seq = (s.page p).seq := by simp [u]
  refine waits_of hr he ?_ ?_ hb
  · rw [hu, State.accept_pend, hseq]
    rfl
  · rw [hu, accept_shows hcode, accepted, hseq]
    rfl

end

end Sys2Proof.Stated
end

section
/-! PROOFS. Time of day (R230, R238, R241 to R245): what the single step, TIME_REARM, a leap and a pulse leave of a time
domain, and what TIME commands do at their boundary. -/

namespace Sys2Proof.Machine

open Safety

variable (s : State) {k j : Nat} {dt : Int}

/-! ### Time domains that an operation leaves alone -/

/-- Operations that leave every time domain alone do so one after the other. -/
theorem foldl_tdom {α : Type} {g : State → α → State} (hg : ∀ u a i, (g u a).tdom i = u.tdom i) (l : List α) (i : Nat) :
    (l.foldl g s).tdom i = s.tdom i :=
  List.foldlRecOn (motive := fun u : State => u.tdom i = s.tdom i) l g rfl fun u h a _ => (hg u a i).trans h

@[simp] theorem State.eventIf_tdom (b : Bool) (p e i : Nat) : (State.eventIf b p e s).tdom i = s.tdom i :=
  (kept_eventIf s b p e).tdom i

@[simp] theorem State.devDir_tdom (o i : Nat) (v : Word) : (s.devDir o v).tdom i = s.tdom i := rfl

@[simp] theorem State.gridStep_tdom (v i : Nat) : (State.gridStep dt k s v).tdom i = s.tdom i := by
  unfold State.gridStep
  split <;> rfl

@[simp] theorem State.stepSlot_tdom (sl i : Nat) : (State.stepSlot dt k s sl).tdom i = s.tdom i := by
  unfold State.stepSlot
  split
  · rfl
  · split <;> rfl

@[simp] theorem State.trgStep_tdom (old : Int) (g i : Nat) : (State.trgStep k old s g).tdom i = s.tdom i := by
  unfold State.trgStep
  dsimp only
  split
  · split <;> rfl
  · rfl

/-! ### The single step and TIME_REARM (R238, R241) -/

@[simp] theorem State.setValid_tdom (v : Bool) : (s.setValid k v).tdom k = { s.tdom k with valid := v } := by
  simp [State.setValid]

/-- What a step by `dt` leaves of its time domain; VALID follows unless the domain is fenced (R252). -/
def TimeDom.step (dt : Int) (x : TimeDom) : TimeDom :=
  { x.move dt with
    stepped := true, autoStep := false, stepLast := roundDiv dt nsUnits, epoch := (x.epoch + 1) % 65536
    base := x.base + dt, ppsEnd := x.ppsEnd + dt, ppsFrom := x.t + dt + 1000 * nsUnits
    valid := if x.fenced then x.valid else true }

@[simp] theorem State.stepBy_tdom : (s.stepBy k dt).tdom k = (s.tdom k).step dt := by
  unfold State.stepBy
  dsimp only
  generalize hu : (List.range 8).foldl (State.gridStep dt k) _ = u
  have hread : u.tdom k = { (s.tdom k).step dt with valid := (s.tdom k).valid } := by
    rw [← hu, foldl_tdom _ fun v => v.gridStep_tdom, foldl_tdom _ fun v => v.stepSlot_tdom, State.setTdom_tdom_self]
    rfl
  have hfenced : (u.tdom k).fenced = (s.tdom k).fenced := by rw [hread]; rfl
  split
  next h => rw [hread, TimeDom.step, if_pos (hfenced.symm.trans h)]
  next h => rw [State.setValid_tdom, hread, TimeDom.step, if_neg (hfenced ▸ h)]

/-- What TIME_REARM leaves of its time domain, whose feedback divider has counted `n` edges. -/
def TimeDom.rearm (n : Nat) (x : TimeDom) : TimeDom :=
  { x with
    valid := false, stepped := false, anchor := true, edgeFrom := n, runs := true, autoStep := false, ppsFrom := 0
    epoch := (x.epoch + 1) % 65536, armed := false }

theorem State.rearm_tdom : ∃ n, (s.rearm k).tdom k = (s.tdom k).rearm n :=
  ⟨_, by simp [State.rearm, State.anchorTime, TimeDom.rearm]; rfl⟩

/-- STEP_TIME with argument `a` is legal, unless another command waits (R238, R248). -/
def State.MayStep (s : State) (a : Word) : Prop :=
  (s.page 0x09).lockCmd = false ∧ s.standby = false ∧ (s.tdom (bits a 1 0)).stepped = false ∧
    (s.dom (bits a 1 0)).state = .locked ∧ (s.tdom (bits a 1 0)).fbPlanErr = false ∧
    (bit a 4 = true ∨ s.srcOkOf (bits a 1 0) = true)

theorem State.timeChecks_step {a : Word} (h : s.MayStep a) : s.timeChecks 1 a = { busy := s.busy 0x09 } := by
  obtain ⟨hlock, hrole, hstepped, hlocked, hplan, hsource⟩ := h
  rcases hsource with h | h <;> simp [State.timeChecks, hlock, hrole, hstepped, hlocked, hplan, h]

theorem State.timeChecks_rearm {a : Word} (hrole : s.standby = false)
    (hstepped : (s.tdom (bits a 1 0)).stepped = true) : s.timeChecks 2 a = { busy := s.busy 0x09 } := by
  simp [State.timeChecks, hrole, hstepped]

/-- What a TIME command does at its boundary. -/
def State.timeEffect (q : CmdPend) (s : State) : State :=
  let t := bits q.arg 1 0
  if q.code = 1 then
    (List.range 8).foldl (State.trgStep t (s.tdom t).t) (s.stepBy t (s.stepAmount t (bit q.arg 4)))
  else s.rearm t

theorem State.timeEffect_step {q : CmdPend} (h : q.code = 1) : (State.timeEffect q s).tdom (bits q.arg 1 0) =
    (s.tdom (bits q.arg 1 0)).step (s.stepAmount (bits q.arg 1 0) (bit q.arg 4)) := by
  simp [State.timeEffect, h, foldl_tdom _ fun u => u.trgStep_tdom _]

theorem State.timeEffect_rearm {q : CmdPend} (h : q.code ≠ 1) : ∃ n,
    (State.timeEffect q s).tdom (bits q.arg 1 0) = (s.tdom (bits q.arg 1 0)).rearm n := by
  obtain ⟨n, hn⟩ := s.rearm_tdom (k := bits q.arg 1 0)
  exact ⟨n, by simpa only [State.timeEffect, if_neg h] using hn⟩

/-- A pending TIME command takes effect when the checks made again pass (R507). -/
theorem State.timeApply_pending {q : CmdPend} (hpend : (s.page 0x09).pend = some q)
    (hopen : s.timeChecks q.code q.arg = { busy := s.busy 0x09 }) :
    ∃ g, s.timeApply = State.timeEffect q { s with pages := g } := by
  have happly : s.timeApply = s.settleCmd 0x09 (s.timeChecks q.code q.arg).again State.timeEffect := by
    unfold State.timeApply
    rw [hpend]
    rfl
  obtain ⟨v, hv, g, rfl⟩ := Stated.settle_of (f := State.timeEffect) hpend (congrArg Checks.again hopen)
  exact ⟨g, happly.trans hv⟩

/-! ### Leap seconds (R242) -/

section
variable {t i : Nat}

theorem State.devDir_dir (o r : Nat) (v : Word) :
    (s.devDir o v).dir 0x09 r = if r = o then v &&& word (dirAt (0x9000 + o)).mask else s.dir 0x09 r := by
  have hread : (s.devDir o v).dir 0x09 r = (s.setDir 0x09 o v).dir 0x09 r := rfl
  rw [hread, State.setDir_dir]
  simp only [Nat.add_left_cancel_iff]

@[simp] theorem State.setTdom_utcOfs (f : TimeDom → TimeDom) : (s.setTdom t f).utcOfs i = s.utcOfs i := rfl

theorem leapReg_ne_utcReg (hi : i < 4) : leapReg t ≠ utcReg i := by
  unfold leapReg utcReg
  omega

theorem mask_utcReg : ∀ t < 4, (dirAt (0x9000 + utcReg t)).mask = 0x1FFFF := by decide

@[simp] theorem State.disarm_tdom : (s.disarm t).tdom t = { s.tdom t with armed := false } := by simp [State.disarm]

/-- A leap that has come is no longer armed. -/
theorem State.disarm_arm : bit ((s.disarm t).dir 0x09 (leapReg t)) 24 = false := by
  have hread : (s.disarm t).dir 0x09 (leapReg t) =
      (s.devDir (leapReg t) (s.dir 0x09 (leapReg t) &&& ~~~word (2 ^ 24))).dir 0x09 (leapReg t) := rfl
  rw [hread, State.devDir_dir, if_pos rfl, bit, BitVec.getLsbD_and]
  exact Bool.and_eq_false_imp.mpr fun h => absurd h (by rw [← bit, bit24_cleared]; decide)

/-- Disarming a leap leaves every UTC offset alone. -/
theorem State.disarm_utcOfs (hi : i < 4) : (s.disarm t).utcOfs i = s.utcOfs i := by
  have hread : (s.disarm t).dir 0x09 (utcReg i) =
      (s.devDir (leapReg t) (s.dir 0x09 (leapReg t) &&& ~~~word (2 ^ 24))).dir 0x09 (utcReg i) := rfl
  rw [State.utcOfs, hread, State.devDir_dir, if_neg (leapReg_ne_utcReg hi).symm, State.utcOfs]

/-- The UTC offset that the device writes, with UTC_VALID. -/
def State.setUtc (s : State) (t : Nat) (ofs : Int) : State :=
  s.devDir (utcReg t) (word ((ofs % 65536).toNat + 65536))

theorem State.setUtc_utcOfs (ht : t < 4) {ofs : Int} (hlo : -32768 ≤ ofs) (hhi : ofs ≤ 32767) :
    (s.setUtc t ofs).utcOfs t = ofs := by
  have hmod : (ofs % 65536).toNat < 65536 := by omega
  have hbits : bits ((s.setUtc t ofs).dir 0x09 (utcReg t)) 15 0 = (ofs % 65536).toNat := by
    rw [State.setUtc, State.devDir_dir, if_pos rfl, mask_utcReg t ht]
    have hmask : (word ((ofs % 65536).toNat + 65536) &&& word 0x1FFFF).toNat = (ofs % 65536).toNat + 65536 := by
      have hand := Nat.and_two_pow_sub_one_eq_mod ((ofs % 65536).toNat + 65536) 17
      simp only [word, BitVec.toNat_and, BitVec.toNat_ofNat]
      rw [Nat.mod_eq_of_lt (by omega)]
      exact hand.trans (Nat.mod_eq_of_lt (by omega))
    rw [bits, hmask]
    omega
  rw [State.utcOfs, hbits, signed]
  split <;> omega

/-- An inserted second lasts until `e`. -/
def TimeDom.enterLeap (e : Int) (x : TimeDom) : TimeDom := { x with inLeap := true, leapEnd := e }

section
variable (hvalid : (s.tdom t).valid = true) (hutc : s.utcValid t = true)
include hvalid hutc

/-- A deleted second moves the UTC offset back. -/
theorem kept_takeLeap_deleted (hdel : bit (s.dir 0x09 (leapReg t)) 25 = true) :
    Kept ((s.setUtc t (s.utcOfs t - 1)).disarm t) (s.takeLeap t false) := by
  have htake : s.takeLeap t false = ((s.setUtc t (s.utcOfs t - 1)).disarm t).event 0x09 (4 * t + 2) := by
    unfold State.takeLeap
    rw [if_neg (by simp [hvalid, hutc])]
    simp only [hdel, if_true]
    rfl
  exact htake ▸ Kept.event _ _ _

/-- An inserted second moves the UTC offset on and begins. -/
theorem kept_takeLeap_inserted (hins : bit (s.dir 0x09 (leapReg t)) 25 = false) :
    Kept (((s.setUtc t (s.utcOfs t + 1)).setTdom t (TimeDom.enterLeap (s.leapInstant t + secUnits))).disarm t)
      (s.takeLeap t false) := by
  have htake : s.takeLeap t false = (((s.setUtc t (s.utcOfs t + 1)).setTdom t
      (TimeDom.enterLeap (s.leapInstant t + secUnits))).disarm t).event 0x09 (4 * t + 2) := by
    unfold State.takeLeap
    rw [if_neg (by simp [hvalid, hutc])]
    simp only [hins]
    rfl
  exact htake ▸ Kept.event _ _ _

/-- A leap that comes on a valid scale with a valid offset moves the offset by one second and is over. -/
theorem State.takeLeap_due (ht : t < 4) (hlo : -32767 ≤ s.utcOfs t) (hhi : s.utcOfs t ≤ 32766) :
    bit ((s.takeLeap t false).dir 0x09 (leapReg t)) 24 = false ∧ ((s.takeLeap t false).tdom t).armed = false ∧
      (bit (s.dir 0x09 (leapReg t)) 25 = false → (s.takeLeap t false).utcOfs t = s.utcOfs t + 1 ∧
        ((s.takeLeap t false).tdom t).inLeap = true ∧
        ((s.takeLeap t false).tdom t).leapEnd = s.leapInstant t + secUnits) ∧
      (bit (s.dir 0x09 (leapReg t)) 25 = true → (s.takeLeap t false).utcOfs t = s.utcOfs t - 1) := by
  cases hdel : bit (s.dir 0x09 (leapReg t)) 25 with
  | true =>
    have hkept := kept_takeLeap_deleted s hvalid hutc hdel
    rw [hkept.dir, hkept.tdom, hkept.utcOfs, State.disarm_arm, State.disarm_tdom, State.disarm_utcOfs _ ht,
      s.setUtc_utcOfs ht (by omega) (by omega)]
    exact ⟨rfl, rfl, fun h => absurd h (by decide), fun _ => rfl⟩
  | false =>
    have hkept := kept_takeLeap_inserted s hvalid hutc hdel
    rw [hkept.dir, hkept.tdom, hkept.utcOfs, State.disarm_arm, State.disarm_tdom, State.disarm_utcOfs _ ht,
      State.setTdom_utcOfs, s.setUtc_utcOfs ht (by omega) (by omega), State.setTdom_tdom_self]
    exact ⟨rfl, rfl, fun _ => ⟨rfl, rfl, rfl⟩, fun h => absurd h (by decide)⟩

end
end

/-! ### Pulses (R243, R244) -/

/-- The next whole second of a scale. -/
def TimeDom.nextSecond (x : TimeDom) : Int := (floorDiv x.t secUnits + 1) * secUnits

/-- PPS_WIDTH of time domain `t`, on the scale of T. -/
def State.ppsWidth (s : State) (t : Nat) : Int :=
  (clamp (bits (s.cfg 0x09 (16 * t + 8)) 23 0) 1 9000000 : Nat) * (100 * nsUnits)

/-- What a pulse of width `wd` leaves of its time domain. -/
def TimeDom.pulse (wd : Int) (x : TimeDom) : TimeDom := { x with pps := x.pps + 1, ppsEnd := x.nextSecond + wd }

theorem clamp_le {v lo hi : Nat} (h : lo ≤ hi) : clamp v lo hi ≤ hi := by
  unfold clamp
  split
  · exact h
  · split <;> omega

variable {f : Int}

theorem State.ppsEdge_out_other {i : Nat} (h : i ≠ j) : (State.ppsEdge f s j).out i = s.out i := by
  simp [State.ppsEdge, State.setOut_out, h]

/-- The edge at an output follows from that output and the synthesisers. -/
theorem State.ppsEdge_out_congr {s u : State} (hsyns : u.syns = s.syns) (hout : u.out j = s.out j) :
    (State.ppsEdge f u j).out j = (State.ppsEdge f s j).out j := by
  simp [State.ppsEdge, State.syn, hsyns, hout]

/-- The edges of a pulse at several outputs touch these alone, and each is as it would be by itself. -/
theorem State.ppsEdges_out {js : List Nat} (hnodup : js.Nodup) :
    (js.foldl (State.ppsEdge f) s).time = s.time ∧
      (∀ j ∉ js, (js.foldl (State.ppsEdge f) s).out j = s.out j) ∧
      ∀ j ∈ js, (js.foldl (State.ppsEdge f) s).out j = (State.ppsEdge f s j).out j := by
  obtain ⟨⟨-, htime⟩, hout, hin⟩ := foldl_reads (read := State.out) (g := State.ppsEdge f)
    (P := fun u => u.syns = s.syns ∧ u.time = s.time) (fun _ _ hu => hu) (fun u i j hj => u.ppsEdge_out_other hj)
    hnodup ⟨rfl, rfl⟩
  refine ⟨htime, hout, fun j hj => ?_⟩
  obtain ⟨u, ⟨hsyns, -⟩, hread, hfold⟩ := hin j hj
  exact hfold.trans (State.ppsEdge_out_congr hsyns hread)

/-- The rising edge at the ball of an output for the instant `f`, without a vernier; `r` is the VCO's period (R243). -/
def Out.idealEdge (f : Int) (r : Nat × Nat) (o : Out) : Int :=
  256 * f + o.pathDly + roundDiv (256 * 8192 * o.cfg.fine) 25 + roundDiv (256 * (o.cfg.coarse * r.1 : Nat)) r.2

/-- An output without an epoch time makes its edge at that instant. -/
theorem State.ppsEdge_out_plain (h : (s.out j).te = none) : (State.ppsEdge f s j).out j = { s.out j with
    ppsAt := some ((s.out j).idealEdge f (s.syn (s.out j).cfg.syn).plan.vcoPeriod), vernier := none } := by
  simp [State.ppsEdge, Out.idealEdge, h]

/-- An output with an epoch time places its pulse with the vernier. -/
theorem State.ppsEdge_out_placed (h : (s.out j).te.isSome = true) :
    ∃ n, ((State.ppsEdge f s j).out j).vernier = some n ∧ n ≤ 1023 := by
  obtain ⟨e, he⟩ := Option.isSome_iff_exists.mp h
  have hvernier : ∃ v, ((State.ppsEdge f s j).out j).vernier = some (clamp v 0 1023) := by
    simp only [State.ppsEdge, he, State.setOut_out_self, Option.map_some]
    exact ⟨_, rfl⟩
  obtain ⟨v, hv⟩ := hvernier
  exact ⟨_, hv, clamp_le (by decide)⟩

end Sys2Proof.Machine
end

section
/-! PROOFS. The obligation on time of day. -/

namespace Sys2Proof.Settled

open Machine Stated

section
variable {s : State} {i : Fin 4}

/-- AUTO_STEP that is due. -/
theorem exec_autoStep (h : s.autoStepDue i = true) :
    exec (.autoStep i) s = finish (s.setTdom i fun x => { x with autoStep := true }) := congrArg finish (if_pos h)

/-- PPS_PULSE of a scale whose pulses are neither held back nor in progress at its next second. -/
theorem exec_ppsPulse (hinit : s.isInit i = false) (hanchor : (s.tdom i).anchor = false)
    (hshown : bit (s.tcfg i) 13 = false ∨ (s.tdom i).valid = true)
    (hfrom : (s.tdom i).ppsFrom ≤ (s.tdom i).nextSecond) (hend : (s.tdom i).ppsEnd ≤ (s.tdom i).nextSecond) :
    exec (.ppsPulse i) s = finish (((List.range 40).filter (s.ppsOut i)).foldl
      (State.ppsEdge (s.tapInstant i (s.tdom i).nextSecond)) (s.setTdom i (TimeDom.pulse (s.ppsWidth i)))) := by
  have hrow : exec (.ppsPulse i) s = execPpsPulse i s := rfl
  have hpulse : ¬ (s.isInit i = true ∨ (s.tdom i).anchor = true ∨
      (bit (s.tcfg i) 13 = true ∧ (s.tdom i).valid = false) ∨
      (s.tdom i).nextSecond < (s.tdom i).ppsFrom ∨ (s.tdom i).nextSecond < (s.tdom i).ppsEnd) := by
    rcases hshown with h | h <;> simp [hinit, hanchor, h, hfrom, hend]
  have htap : (s.setTdom i (TimeDom.pulse (s.ppsWidth i))).tapInstant i (s.tdom i).nextSecond =
      s.tapInstant i (s.tdom i).nextSecond := by
    simp [State.tapInstant, State.timeTo, TimeDom.pulse]
  rw [hrow, ← htap]
  exact if_neg hpulse

/-- LEAP of an armed leap. -/
theorem exec_leap (harm : bit (s.dir 0x09 (leapReg i)) 24 = true) (harmed : (s.tdom i).armed = true) :
    exec (.leap i) s = finish (s.takeLeap i false) := congrArg finish (if_pos ⟨harm, harmed⟩)

/-- TRG_FIRED of an enabled trigger of a valid scale that is not yet due. -/
theorem exec_trgFired {g : Fin 8} (hon : bit (s.trgRead g).cfg 0 = true)
    (hvalid : (s.tdom (bits (s.trgRead g).cfg 3 2)).valid = true)
    (hnew : s.time.fire.any (fun q => q.1 == g.val) = false) :
    exec (.trgFired g) s = finish { s with time := { s.time with fire := s.time.fire ++ [(g.val, false)] } } :=
  if_pos ⟨hon, hvalid, hnew⟩

/-- TIMED_SWAP_DUE of a timed swap. -/
theorem exec_timedSwapDue (h : s.sys.timed.isSome = true) :
    exec .timedSwapDue s = finish (s.setSys fun x => { x with swapPend := true }) := by
  obtain ⟨x, hx⟩ := Option.isSome_iff_exists.mp h
  have hrow : exec .timedSwapDue s = execTimedSwapDue s := rfl
  rw [hrow, execTimedSwapDue, hx]

end

/-- Settles O18: a TIME command whose checks pass waits, and what its boundary does to the time domain is one step or
one re-arming; each event is one operation on its unit. -/
theorem timeCommandsTakeEffect : Obligations.TimeCommandsTakeEffect := by
  unfold Obligations.TimeCommandsTakeEffect
  intro m i g s a d x w leap
  have hresult (hidle : Idle s 0x09) : ({ busy := s.busy 0x09 } : Checks).result = 0 := by
    have hbusy : s.busy 0x09 = false := congrArg Option.isSome hidle
    simp [Checks.result, hbusy]
  refine ⟨fun hr hidle hrole => ⟨fun hmay => ?step, fun hstepped => ⟨fun hpropose => ?propose, fun hsign => ?rearm⟩⟩,
    fun hdue => does_of (exec_autoStep hdue) (Safety.Same.refl _), fun hinit hanchor hshown hfrom hend => ?pulse,
    fun harm harmed hvalid hutc hlo hhi => ?leap,
    fun hon hvalid hnew => does_of (exec_trgFired hon hvalid hnew) (Safety.Same.refl _),
    fun htimed => does_of (exec_timedSwapDue htimed) (Safety.Same.refl _)⟩
  case step =>
    refine waits_submit hr rfl rfl (s.timeChecks_step hmay ▸ hresult hidle) (by decide) fun u hpend hmay => ?_
    obtain ⟨g, happly⟩ := u.timeApply_pending hpend (u.timeChecks_step hmay)
    have hstep : u.timeApply.tdom d = (u.tdom d).step (u.stepAmount d (bit a 4)) :=
      happly ▸ State.timeEffect_step { u with pages := g } rfl
    rw [hstep]
    exact ⟨rfl, rfl, rfl, fun h => if_neg (by simp [h])⟩
  case propose =>
    exact proposes_twoParty (later := true) (f := fun _ s => s) (s.timeChecks_rearm hrole hstepped ▸ hresult hidle)
      hr rfl (by decide) rfl hpropose
  case rearm =>
    refine waits_countersigned (f := fun _ s => s) (s.timeChecks_rearm hrole hstepped ▸ hresult hidle) hr rfl
      (by decide) rfl hsign fun u hpend hmay => ?_
    obtain ⟨g, happly⟩ := u.timeApply_pending hpend (u.timeChecks_rearm hmay.1 hmay.2)
    obtain ⟨n, hn⟩ := State.timeEffect_rearm { u with pages := g } (q := waiting s 0x09 m 2 a)
      (show 2 ≠ 1 by decide)
    have hrearm : u.timeApply.tdom d = (u.tdom d).rearm n := happly ▸ hn
    rw [hrearm]
    exact ⟨rfl, rfl, rfl, rfl⟩
  case pulse =>
    obtain ⟨htime, hout, hin⟩ := (s.setTdom i (TimeDom.pulse (s.ppsWidth i))).ppsEdges_out
      (f := s.tapInstant i x.nextSecond) (List.nodup_range.filter (s.ppsOut i))
    refine completes_of (exec_ppsPulse hinit hanchor hshown hfrom hend) fun t hkept => ?_
    have hedge {j : Nat} (hj : j < 40) (hyes : s.ppsOut i j = true) :
        t.out j = (State.ppsEdge (s.tapInstant i x.nextSecond) s j).out j :=
      (hkept.out j).trans ((hin j (by simp [hj, hyes])).trans (State.ppsEdge_out_congr rfl rfl))
    refine ⟨?_, fun j hj => ⟨fun hno => ?_, fun hyes hte => ?_, fun hyes hte => ?_⟩⟩
    · rw [hkept.tdom, State.tdom, htime]
      exact State.setTdom_tdom_self _ _ _
    · rw [hkept.out, hout j (by simp [hno])]
      rfl
    · have hplain := (hedge hj hyes).trans (s.ppsEdge_out_plain hte)
      exact ⟨congrArg Out.vernier hplain, congrArg Out.ppsAt hplain⟩
    · exact hedge hj hyes ▸ s.ppsEdge_out_placed hte
  case leap =>
    refine completes_of (exec_leap harm harmed) fun t hkept => ?_
    rw [hkept.dir, hkept.tdom, hkept.utcOfs]
    exact s.takeLeap_due hvalid hutc i.isLt hlo hhi

end Sys2Proof.Settled
end

section
/-! PROOFS. UART messages (R234 to R237): what a label leaves of a time domain, what the receiver of a UART shows. -/

namespace Sys2Proof.Safety

open Machine

variable {s t : State}

theorem Kept.uartRx (h : Kept s t) (u : Nat) : t.uartRx u = s.uartRx u := by simp [State.uartRx, h.time]

/-- A time domain that is written as it was reads the same. -/
theorem Same.setTdom_self {k : Nat} {l : List Nat} : Same (s.setTdom k id) s l := by
  constructor
  case tdom => intro i; rw [State.setTdom_tdom]; split <;> simp_all
  all_goals first | rfl | (intro _; rfl) | (intro _ _; rfl)

end Sys2Proof.Safety

namespace Sys2Proof.Machine

open Safety

variable (s : State) {k l : Nat} {prev : Bool}

/-! ### Labels (R235, R240) -/

theorem kept_srcCompare (e : Int) : Kept s (s.srcCompare k e) := by
  unfold State.srcCompare
  dsimp only
  split
  · exact (Kept.bump s _ _).trans (Kept.event _ _ _)
  · exact Kept.refl s

theorem kept_labelled (p : Pulse) : Kept s (s.labelled k p) := by
  unfold State.labelled
  split
  · exact kept_srcCompare s _
  · exact Kept.refl s

/-- A label for the previous pulse, where there is one. -/
theorem kept_putLabel_previous {p : Pulse} {r : List Pulse} (h : (s.tdom k).pulses = p :: r) :
    Kept (s.setTdom k fun x => { x with pulses := { p with label := some l } :: r }) (s.putLabel true l k) := by
  have hput : s.putLabel true l k = (s.setTdom k fun x => { x with
      pulses := { p with label := some l } :: r }).labelled k { p with label := some l } := by
    simp [State.putLabel, h]
  exact hput ▸ kept_labelled _ _

/-- A label touches its own time domain alone. -/
theorem same_putLabel : ∃ f, Same (s.setTdom k f) (s.putLabel prev l k) := by
  cases prev with
  | false => exact ⟨_, Same.refl _⟩
  | true =>
    cases h : (s.tdom k).pulses with
    | nil =>
      have hput : s.putLabel true l k = s := by simp [State.putLabel, h]
      exact ⟨id, hput.symm ▸ Same.setTdom_self⟩
    | cons p r => exact ⟨_, (kept_putLabel_previous s h).same⟩

/-- `y` is `x` with `l` as the label of its next pulse, or of its previous one where there is one. -/
def TimeDom.Labels (prev : Bool) (l : Nat) (x y : TimeDom) : Prop :=
  (prev = false → y.nextLabel = some l) ∧
    (prev = true → ∀ q r, x.pulses = q :: r → y.pulses = { q with label := some l } :: r)

theorem State.putLabel_labels : (s.tdom k).Labels prev l ((s.putLabel prev l k).tdom k) := by
  refine ⟨fun h => ?_, fun h q r hpulses => ?_⟩
  · subst h
    simp [State.putLabel]
  · subst h
    simp [(kept_putLabel_previous s hpulses).tdom]

/-- Labels that depend on the direct controls alone, put on several time domains one after the other. -/
theorem State.foldl_putLabel {label : State → Nat → Nat} (hlabel : ∀ u, u.direct = s.direct → label u = label s)
    {ds : List Nat} (hnodup : ds.Nodup) :
    let t := ds.foldl (fun u d => u.putLabel prev (label u d) d) s
    t.time.uart = s.time.uart ∧ ∀ d ∈ ds, (s.tdom d).Labels prev (label s d) (t.tdom d) := by
  have hkeeps (u : State) (d : Nat) (hu : u.direct = s.direct ∧ u.time.uart = s.time.uart) :
      (u.putLabel prev (label u d) d).direct = s.direct ∧
        (u.putLabel prev (label u d) d).time.uart = s.time.uart := by
    obtain ⟨f, hsame⟩ := same_putLabel u (k := d) (l := label u d) (prev := prev)
    exact ⟨hsame.direct.trans hu.1, (congrArg TimeUnit.uart hsame.time).trans hu.2⟩
  have hother (u : State) (d j : Nat) (hj : j ≠ d) : (u.putLabel prev (label u d) d).tdom j = u.tdom j := by
    obtain ⟨f, hsame⟩ := same_putLabel u (k := d) (l := label u d) (prev := prev)
    rw [hsame.tdom, State.setTdom_tdom, if_neg hj]
  obtain ⟨⟨-, huart⟩, -, hin⟩ := foldl_reads hkeeps hother hnodup ⟨rfl, rfl⟩
  refine ⟨huart, fun d hd => ?_⟩
  obtain ⟨u, ⟨hdirect, -⟩, hread, hfold⟩ := hin d hd
  rw [hfold, ← hread, ← hlabel u hdirect]
  exact u.putLabel_labels

/-! ### The receiver of a UART -/

@[simp] theorem State.setUartRx_uartRx (v : Word) : (s.setUartRx k v).uartRx k = v := tget_tput_self

theorem uartRx_congr {s t : State} (h : t.time.uart = s.time.uart) (u : Nat) : t.uartRx u = s.uartRx u := by
  rw [State.uartRx, h, State.uartRx]

@[simp] theorem State.setUartRx_tdom (v : Word) (i : Nat) : (s.setUartRx k v).tdom i = s.tdom i := rfl

/-- A discarded message clears the match of its UART. -/
theorem kept_uartError : Kept (s.setUartRx k (s.uartRx k &&& ~~~word (2 ^ 24))) (s.uartError k) :=
  (Kept.bump _ _ _).trans (Kept.event _ _ _)

@[simp] theorem State.uartGood_uartRx : (s.uartGood k).uartRx k = s.uartRx k ||| word (2 ^ 24) := tget_tput_self

@[simp] theorem State.uartGood_tdom (i : Nat) : (s.uartGood k).tdom i = s.tdom i := rfl

/-- A number that bytes spell on from `a` fits in them and the places of `a`. -/
theorem foldl_bytes_lt (bs : List Nat) (a : Nat) :
    bs.foldl (fun a b => a * 256 + b % 256) a < (a + 1) * 256 ^ bs.length := by
  induction bs generalizing a with
  | nil => exact Nat.lt_of_lt_of_eq (Nat.lt_succ_self a) (Nat.mul_one _).symm
  | cons b bs ih =>
    have hplaces : a * 256 + b % 256 + 1 ≤ (a + 1) * 256 := by omega
    calc (b :: bs).foldl (fun a b => a * 256 + b % 256) a
        < (a * 256 + b % 256 + 1) * 256 ^ bs.length := ih _
      _ ≤ (a + 1) * 256 * 256 ^ bs.length := Nat.mul_le_mul_right _ hplaces
      _ = (a + 1) * 256 ^ (b :: bs).length := by
        rw [List.length_cons, Nat.pow_succ, Nat.mul_assoc, Nat.mul_comm 256]

/-- A number that bytes spell fits in them. -/
theorem beNat_lt (bs : List Nat) : beNat bs < 256 ^ bs.length :=
  Nat.lt_of_lt_of_eq (foldl_bytes_lt bs 0) (by rw [Nat.zero_add, Nat.one_mul])

/-- The fields of a Lanyn frame have the widths that R236 gives them. -/
theorem binaryFrame_bounds {bs : List Nat} {fl tai ofs : Nat} (h : binaryFrame bs = some (fl, tai, ofs)) :
    fl < 16 ∧ ofs < 65536 := by
  unfold binaryFrame at h
  split at h
  · obtain ⟨rfl, -, rfl⟩ : (bs[3]?).getD 0 % 16 = fl ∧ beNat (slice bs 4 6) = tai ∧ beNat (slice bs 10 2) = ofs := by
      simpa using h
    have hlen : (slice bs 10 2).length ≤ 2 := List.length_take_le _ _
    exact ⟨Nat.mod_lt _ (by decide), Nat.lt_of_lt_of_le (beNat_lt _) (Nat.pow_le_pow_right (by decide) hlen)⟩
  · cases h

/-- What a UART shows of a Lanyn frame that matched: its flags, its offset, the match. -/
def lanynRx (fl ofs : Nat) : Word := word (ofs + fl * 65536 + 2 ^ 24)

theorem lanynRx_shows {fl ofs : Nat} (hfl : fl < 16) (hofs : ofs < 65536) :
    bit (lanynRx fl ofs) 24 = true ∧ bits (lanynRx fl ofs) 15 0 = ofs % 65536 ∧ bits (lanynRx fl ofs) 19 16 = fl := by
  have hvalue : (lanynRx fl ofs).toNat = ofs + fl * 65536 + 2 ^ 24 := by
    simp only [lanynRx, word, BitVec.toNat_ofNat]
    omega
  refine ⟨?_, ?_, ?_⟩
  · rw [lanynRx, bit24_word, Nat.testBit_eq_decide_div_mod_eq, decide_eq_true_eq]
    omega
  · rw [bits, hvalue]
    omega
  · rw [bits, hvalue]
    omega

/-- UART `u` receives Lanyn frames (R236). -/
def State.uartBinary (s : State) (u : Nat) : Bool := bit (s.cfg 0x09 (0x40 + 4 * u)) 4

/-- The messages of UART `u` label the previous pulse (R235). -/
def State.uartPrev (s : State) (u : Nat) : Bool := bit (s.cfg 0x09 (0x40 + 4 * u)) 5

/-- A message lies outside the window, no domain takes it, or no check passes it (R234 to R236). -/
def State.UartDiscards (s : State) (u : Nat) (bs : List Nat) (after before : Nat) : Prop :=
  after ≤ 10000 ∨ before ≤ 10000 ∨ s.uartDoms u = [] ∨ (s.uartBinary u = true ∧ binaryFrame bs = none) ∨
    (s.uartBinary u = false ∧ zdaSeconds bs = none) ∨
    (s.uartBinary u = false ∧ ∀ d ∈ s.uartDoms u, s.utcValid d = false)

theorem State.uartDoms_nodup (u : Nat) : (s.uartDoms u).Nodup := List.nodup_range.filter _

end Sys2Proof.Machine
end

section
/-! PROOFS. The obligation on UART messages. -/

namespace Sys2Proof.Settled

open Machine Stated

section
variable {s : State} {u : Fin 4} {bytes : List Byte} {after before : Nat}

theorem exec_uartMessage :
    exec (.uartMessage u bytes after before) s = execUartMessage u bytes after before s := rfl

/-- Each way to be discarded ends in the same error, whatever the format. -/
theorem exec_uartMessage_discarded (h : s.UartDiscards u (bytes.map BitVec.toNat) after before) :
    exec (.uartMessage u bytes after before) s = finish (s.uartError u) := by
  have hwindow (hnot : ¬ (decide (10000 < after) && decide (10000 < before)) = false) :
      ¬ after ≤ 10000 ∧ ¬ before ≤ 10000 := by simpa using hnot
  rw [exec_uartMessage, execUartMessage]
  unfold State.UartDiscards State.uartBinary at h
  cases hformat : bit (s.cfg 0x09 (0x40 + 4 * u.val)) 4 with
  | true =>
    cases hframe : binaryFrame (bytes.map BitVec.toNat) with
    | none => rfl
    | some f =>
      refine if_pos (Classical.or_iff_not_imp_left.mpr fun hnot => ?_)
      simpa [hformat, hframe, hwindow hnot] using h
  | false =>
    cases hzda : zdaSeconds (bytes.map BitVec.toNat) with
    | none => rfl
    | some utc =>
      refine if_pos (Classical.or_iff_not_imp_left.mpr fun hnot => ?_)
      have hnone : s.uartDoms u = [] ∨ ∀ d ∈ s.uartDoms u, s.utcValid d = false := by
        simpa [hformat, hzda, hwindow hnot] using h
      rcases hnone with h | h
      · rw [h, List.filter_nil]
      · exact List.filter_eq_nil_iff.mpr fun d hd => by simp [h d hd]

variable (hafter : 10000 < after) (hbefore : 10000 < before)
include hafter hbefore

/-- A Lanyn frame in the window shows its flags and offset, and labels with its TAI second if its time is valid. -/
theorem exec_uartMessage_lanyn {fl tai ofs : Nat} (hformat : s.uartBinary u = true)
    (hframe : binaryFrame (bytes.map BitVec.toNat) = some (fl, tai, ofs)) (hdoms : s.uartDoms u ≠ []) :
    exec (.uartMessage u bytes after before) s = finish
      (if fl % 2 = 0 then s.setUartRx u (lanynRx fl ofs)
       else (s.uartDoms u).foldl (fun v d => v.putLabel (s.uartPrev u) tai d)
         ((s.setUartRx u (lanynRx fl ofs)).uartGood u)) := by
  unfold State.uartBinary at hformat
  rw [exec_uartMessage, execUartMessage, apply_ite finish]
  simp only [hformat, hframe, hafter, hbefore, hdoms, if_true, decide_true, Bool.and_self, Bool.true_eq_false, or_self,
    if_false]
  rfl

/-- A ZDA message in the window labels with its UTC second on the scale of each domain whose offset is valid. -/
theorem exec_uartMessage_zda {utc : Nat} (hformat : s.uartBinary u = false)
    (hzda : zdaSeconds (bytes.map BitVec.toNat) = some utc) (hvalid : ∃ d ∈ s.uartDoms u, s.utcValid d = true) :
    exec (.uartMessage u bytes after before) s = finish
      (((s.uartDoms u).filter s.utcValid).foldl (fun v d =>
        v.putLabel (s.uartPrev u) ((utc : Int) + v.utcOfs d).toNat d) (s.uartGood u)) := by
  obtain ⟨d, hd, hd'⟩ := hvalid
  have hdoms : (s.uartDoms u).filter (fun t => s.utcValid t) ≠ [] :=
    List.ne_nil_of_mem (List.mem_filter.mpr ⟨hd, hd'⟩)
  unfold State.uartBinary at hformat
  rw [exec_uartMessage, execUartMessage]
  simp [hformat, hzda, hafter, hbefore, hdoms, State.uartPrev]

end

/-- Settles O19: a message that is not discarded sets the receiver of its UART and labels its domains one after the
other. -/
theorem uartMessagesLabelPulses : Obligations.UartMessagesLabelPulses := by
  unfold Obligations.UartMessagesLabelPulses
  intro u bytes after before s bs w binary prev c
  refine ⟨fun h => completes_of (exec_uartMessage_discarded h) fun t hkept => ?discarded, fun hafter hbefore =>
    ⟨fun fl tai ofs hformat hframe hfl hdoms => ?invalid, fun fl tai ofs hformat hframe hfl hdoms => ?lanyn,
      fun utc hformat hzda hvalid => ?zda⟩⟩
  case discarded =>
    have hshown := (kept_uartError s).trans hkept
    refine ⟨?_, fun d => (hshown.tdom d).trans (State.setUartRx_tdom _ _ _)⟩
    rw [hshown.uartRx, State.setUartRx_uartRx]
    exact bit24_cleared _
  case invalid =>
    obtain ⟨hmatch, hofs, hflags⟩ := lanynRx_shows (binaryFrame_bounds hframe).1 (binaryFrame_bounds hframe).2
    refine completes_of ((exec_uartMessage_lanyn hafter hbefore hformat hframe hdoms).trans
      (congrArg finish (if_pos hfl))) fun t hkept => ?_
    have hrx : t.uartRx u = lanynRx fl ofs := (hkept.uartRx u).trans (State.setUartRx_uartRx _ _)
    rw [hrx]
    exact ⟨hmatch, hofs, hflags, fun d => (hkept.tdom d).trans (State.setUartRx_tdom _ _ _)⟩
  case lanyn =>
    obtain ⟨hmatch, hofs, -⟩ := lanynRx_shows (binaryFrame_bounds hframe).1 (binaryFrame_bounds hframe).2
    obtain ⟨huart, hlabels⟩ := ((s.setUartRx u (lanynRx fl ofs)).uartGood u).foldl_putLabel
      (prev := s.uartPrev u) (label := fun _ _ => tai) (fun _ _ => rfl) (s.uartDoms_nodup u)
    refine completes_of ((exec_uartMessage_lanyn hafter hbefore hformat hframe hdoms).trans
      (congrArg finish (if_neg (by omega)))) fun t hkept => ?_
    have hrx : t.uartRx u = lanynRx fl ofs := by
      rw [hkept.uartRx, uartRx_congr huart u, State.uartGood_uartRx, State.setUartRx_uartRx, or_bit24 _ hmatch]
    refine ⟨hrx.symm ▸ hmatch, hrx.symm ▸ hofs, fun d hd => ?_⟩
    have hlabel := hlabels d hd
    rw [State.uartGood_tdom, State.setUartRx_tdom, ← hkept.tdom] at hlabel
    exact hlabel
  case zda =>
    have hofs (v : State) (h : v.direct = (s.uartGood u).direct) :
        (fun d => ((utc : Int) + v.utcOfs d).toNat) = fun d => ((utc : Int) + (s.uartGood u).utcOfs d).toNat := by
      simp only [State.utcOfs, State.dir, h]
    obtain ⟨huart, hlabels⟩ := (s.uartGood u).foldl_putLabel (prev := s.uartPrev u) hofs
      ((s.uartDoms_nodup u).filter s.utcValid)
    refine completes_of (exec_uartMessage_zda hafter hbefore hformat hzda hvalid) fun t hkept =>
      ⟨?_, fun d hd hd' => ?_⟩
    · rw [hkept.uartRx, uartRx_congr huart u, State.uartGood_uartRx]
      exact bit24_set _
    · have hlabel := hlabels d (List.mem_filter.mpr ⟨hd, hd'⟩)
      rw [State.uartGood_tdom, ← hkept.tdom] at hlabel
      exact hlabel

end Sys2Proof.Settled
end

section
/-! PROOFS. The counters that the end of a command leaves alone: a report of an invalid NV counter and a re-evaluation of
the requests count on the FAULT, IRQ and NV pages alone. -/

namespace Sys2Proof.Machine

variable (s : State)

/-! ### What an escalation does beside its record counts nothing (R330, R366, R433) -/

@[simp] theorem State.castleRequest_ctr (c : Nat) : (s.castleRequest c).ctr = s.ctr := by
  unfold State.castleRequest
  repeat' split
  all_goals rfl

@[simp] theorem State.fReaction_ctr (id d : Nat) : (s.fReaction id d).ctr = s.ctr := by
  obtain ⟨g, hg⟩ := s.holdOuts_eq holdForSafe (s.domOuts d)
  unfold State.fReaction
  rw [hg]
  split
  · rfl
  · exact State.castleRequest_ctr _ _

@[simp] theorem State.fReactions_ctr (id : Nat) (ds : List Nat) : (s.fReactions id ds).ctr = s.ctr :=
  List.foldlRecOn (motive := fun t : State => t.ctr = s.ctr) ds _ rfl fun t h d _ =>
    (t.fReaction_ctr id d).trans h

@[simp] theorem State.escalateExtra_ctr (p b : Nat) : (s.escalateExtra p b).ctr = s.ctr := by
  unfold State.escalateExtra
  split
  · rfl
  · split
    · exact State.castleRequest_ctr _ _
    · rfl
  · rfl

end Sys2Proof.Machine

namespace Sys2Proof.Safety

open Machine

variable {s t u : State}

/-- The counters of every page from 0x06 on read the same. -/
def CountsSame (s t : State) : Prop := ∀ p o, 6 ≤ p → t.counter p o = s.counter p o

theorem CountsSame.trans (h : CountsSame s t) (g : CountsSame t u) : CountsSame s u :=
  fun p o hp => (g p o hp).trans (h p o hp)

/-- A state with the same counters. -/
theorem CountsSame.of_ctr (h : t.ctr = s.ctr) : CountsSame s t := fun p o _ => by rw [State.counter, h, State.counter]

/-- A state whose counters differ by a count on a page below 0x06. -/
theorem CountsSame.of_addCtr {p o n : Nat} (h : t.ctr = (s.addCtr p o n).ctr) (hlow : p * 0x1000 + o < 0x6000) :
    CountsSame s t := fun q r hq => by
  rw [State.counter, h, ← State.counter, State.addCtr_counter, if_neg (by omega)]

/-! ### Records (R422, R424, R459) -/

theorem CountsSame.storeRec {r : FaultRec} (h : r.cls ≤ 2) : CountsSame s (s.storeRec r) := by
  have hlow : 0x03 * 0x1000 + (0xA00 + 8 * r.cls) < 0x6000 := by omega
  unfold State.storeRec
  dsimp only
  split
  · exact CountsSame.of_addCtr rfl hlow
  · split
    · exact (CountsSame.of_addCtr (t := s.bump 0x03 (0xA00 + 8 * r.cls)) rfl hlow).trans
        (CountsSame.of_addCtr (p := 0x03) (o := 0xA30) (n := 1) rfl (by decide))
    · exact CountsSame.of_addCtr rfl hlow

theorem CountsSame.collectC (e : Event) : CountsSame s (s.collectC e) := by
  unfold State.collectC
  dsimp only
  split
  · exact CountsSame.of_addCtr (p := 0x03) (o := 0xA38) (n := 1) rfl (by decide)
  · exact (CountsSame.storeRec (s := s.faultBit e.page e.bit) (Nat.zero_le 2)).trans (CountsSame.of_ctr rfl)

theorem CountsSame.logRecord (r : FaultRec) : CountsSame s (s.logRecord r) := by
  unfold State.logRecord
  dsimp only
  split
  · split
    · exact CountsSame.of_ctr rfl
    · exact CountsSame.of_addCtr (p := 0x05) (o := 0xA20) (n := 1) rfl (by decide)
  · exact CountsSame.of_ctr rfl

/-! ### The device counters (R457, R458) -/

theorem CountsSame.nvWrite (a : Nat) (ws : List Nat) : CountsSame s (s.nvWrite a ws) := by
  unfold State.nvWrite
  split
  · exact CountsSame.of_addCtr (p := 0x05) (o := 0xA00) rfl (by decide)
  · exact CountsSame.of_ctr rfl

theorem CountsSame.nvIncrement (a : Nat) : CountsSame s (s.nvIncrement a) := by
  unfold State.nvIncrement
  split
  · exact CountsSame.nvWrite _ _
  · exact CountsSame.nvWrite _ _
  · exact CountsSame.of_ctr rfl

theorem CountsSame.protectWrite (m a x : Nat) : CountsSame s (s.protectWrite m a x) :=
  (CountsSame.of_addCtr (t := s.bump 0x05 0xA10) rfl (by decide)).trans (CountsSame.collectC _)

theorem CountsSame.deviceCounter (k : Nat) : CountsSame s (s.deviceCounter k) := by
  unfold State.deviceCounter
  dsimp only
  split
  · split
    · exact CountsSame.protectWrite _ _ _
    · exact CountsSame.nvIncrement _
  · exact CountsSame.of_ctr rfl

/-! ### Escalation (R422, R423, R429) -/

theorem CountsSame.fatal (e : Event) (escalated : Bool) : CountsSame s (s.fatal e escalated) := by
  have hstore : CountsSame s ((s.storeRec (s.mkRec e 2 escalated)).nextFree.latchFatal) :=
    (CountsSame.storeRec (Nat.le_refl 2)).trans (CountsSame.of_ctr rfl)
  exact ((hstore.trans (CountsSame.logRecord _)).trans (CountsSame.deviceCounter 2)).trans
    (CountsSame.of_ctr (State.fReactions_ctr _ _ _))

theorem CountsSame.escalate (e : Event) : CountsSame s (s.escalate e) :=
  ((CountsSame.of_addCtr (t := (s.bump 0x03 0xA18).event 0x03 3) rfl (by decide)).trans (CountsSame.fatal e true)).trans
    (CountsSame.of_ctr (State.escalateExtra_ctr _ _ _))

theorem CountsSame.check (e : Event) : CountsSame s (s.check e) := by
  unfold State.check
  dsimp only
  split
  · exact CountsSame.of_ctr rfl
  · split
    · exact CountsSame.of_ctr rfl
    · exact (CountsSame.of_addCtr (t := (s.bump 0x03 0xA40).event 0x03 6) rfl (by decide)).trans
        (CountsSame.escalate _)

/-- A U event of a source without a fencing counts below page 0x06 (R422, R429, R436). -/
theorem CountsSame.collectU {e : Event}
    (hfence : ∀ u : State, u.fence e.page e.bit e.ctx (e.pairs.headD 0) = u) : CountsSame s (s.collectU e) := by
  have hrecord (r : FaultRec) (hr : r.cls ≤ 2) :
      CountsSame s (((s.faultBit e.page e.bit).storeRec r).nextFree.logRecord r) :=
    ((CountsSame.storeRec (s := s.faultBit e.page e.bit) hr).trans (CountsSame.of_ctr rfl)).trans
      (CountsSame.logRecord r)
  have hu := hrecord ((s.faultBit e.page e.bit).mkRec e 1 false) (Nat.le_succ 1)
  unfold State.collectU
  dsimp only
  split
  · rwa [hfence]
  · split
    · exact hu
    · exact hu.trans (CountsSame.check e)

/-! ### The end of a command -/

theorem CountsSame.nvDue : CountsSame s s.nvDue := by
  unfold State.nvDue
  split
  · exact (CountsSame.of_ctr (t := { s with nv := { s.nv with ctrDue := false } }) rfl).trans
      (CountsSame.collectU (e := { page := 0x05, bit := 3 }) fun _ => rfl)
  · exact CountsSame.of_ctr rfl

theorem CountsSame.settle (b : Bool) : CountsSame s (s.settle b) := fun p o _ => s.settle_counter b p o (by omega)

end Sys2Proof.Safety

namespace Sys2Proof.Stated

open Machine

/-- A meaning that ends in `w` completes with what every state shows that is `w` but for records and requests and whose
counters from page 0x06 on are those of `w`. -/
theorem completes_counting {s w : State} {c : Instr} {P : State → Prop} (he : exec c s = finish w)
    (hp : ∀ t, Safety.Kept w t → Safety.CountsSame w t → P t) : Completes c s P :=
  ⟨_, he.trans (finish_next w), hp _ ((Safety.Kept.nvDue w).trans (Safety.Kept.settle _ _))
    (Safety.CountsSame.nvDue.trans (Safety.CountsSame.settle _))⟩

end Sys2Proof.Stated
end

section
/-! PROOFS. The frames of a Vilcia link (R254 to R259, R263 to R265, R272): what a sent frame, a withheld tick, a change of
state and a step of the safe sequence leave of the link, and what a tick does in each state of the link. -/

namespace Sys2Proof.Safety

theorem Kept.link {s t : Machine.State} (h : Kept s t) (v : Nat) : t.link v = s.link v := by
  simp [Machine.State.link, h.links]

end Sys2Proof.Safety

namespace Sys2Proof.Machine

/-! ### The link -/

section
variable (l l' : Link) (d : Due) (rd : Bool) (mark : Int) (body : List Nat)

/-- From `l` to `l'` the tick `d` has passed: on the scale it falls on, it has been dealt with (R257, R265). -/
def Link.Dealt : Prop :=
  (d.old = false → l'.tick = d.n) ∧ (d.old = true → l'.tick = l.tick ∧ ∀ o, l'.old = some o → o.sent = true)

/-- From `l` to `l'` the frame of tick `d` with payload `body` was sent: on the line, and in LAST_TX (R254, R255). -/
def Link.Sent : Prop :=
  l.Dealt l' d ∧ l'.frame = body ++ leBytes 4 (crc32 body) ∧ l'.line = (encodeLine l'.rdFrom (frameChars body)).1 ∧
    l'.lastSeq = (d.n % 65536).toNat ∧ l'.lastQl = d.content.ql ∧ l'.lastState = d.content.dstate ∧ l'.markOfs = d.mark

/-- The link that has sent the frame of tick `d` with payload `body`, `mark` being T at its marker. -/
def Link.send : Link :=
  { (l.onLine rd mark (frameChars body)).passed d with
    flight := some ((l.lastSeq, l.lastQl, l.lastState), d.content.ql == 15)
    lastSeq := (d.n % 65536).toNat, lastQl := d.content.ql, lastState := d.content.dstate, markOfs := d.mark
    frame := body ++ leBytes 4 (crc32 body) }

/-- The link after a tick of the safe sequence: the last one takes it to its idle state (R264). -/
def Link.countDnu : Link :=
  { l with dnuLeft := l.dnuLeft - 1, state := if l.dnuLeft - 1 = 0 then .safeIdle else l.state }

/-- Passing a tick touches the last tick and the old scale alone. -/
theorem Link.passed_eq : l.passed d = { l with
    tick := if d.old then l.tick else d.n
    old := if d.old then l.old.map fun o => { o with sent := true } else l.old } := by
  unfold Link.passed
  split <;> rfl

@[simp] theorem Link.passed_state : (l.passed d).state = l.state := by rw [Link.passed_eq]
@[simp] theorem Link.passed_dnuLeft : (l.passed d).dnuLeft = l.dnuLeft := by rw [Link.passed_eq]
@[simp] theorem Link.passed_frame : (l.passed d).frame = l.frame := by rw [Link.passed_eq]
@[simp] theorem Link.passed_line : (l.passed d).line = l.line := by rw [Link.passed_eq]

theorem Link.passed_dealt : l.Dealt (l.passed d) d := by
  rw [Link.passed_eq]
  refine ⟨fun hnew => if_neg (by simp [hnew]), fun hold => ⟨if_pos hold, fun o ho => ?_⟩⟩
  obtain ⟨_, -, rfl⟩ := Option.map_eq_some_iff.mp ((if_pos hold).symm.trans ho)
  rfl

@[simp] theorem Link.send_state : (l.send d rd mark body).state = l.state := by
  simp [Link.send, Link.onLine]

@[simp] theorem Link.send_dnuLeft : (l.send d rd mark body).dnuLeft = l.dnuLeft := by
  simp [Link.send, Link.onLine]

theorem Link.send_sent : l.Sent (l.send d rd mark body) d body := by
  have hdealt : l.Dealt (l.send d rd mark body) d := (l.onLine rd mark (frameChars body)).passed_dealt d
  have hfrom : (l.send d rd mark body).rdFrom = rd := by rw [Link.send, Link.passed_eq]; rfl
  refine ⟨hdealt, rfl, ?_, rfl, rfl, rfl, rfl⟩
  rw [hfrom]
  exact Link.passed_line _ _

/-- The safe sequence counts its ticks down, and the link idles after the last (R264). -/
theorem Link.countDnu_counts {n : Nat} (hst : l.state = .dnu) (hleft : l.dnuLeft = n) :
    (1 < n → l.countDnu.state = .dnu ∧ l.countDnu.dnuLeft = n - 1) ∧ (n = 1 → l.countDnu.state = .safeIdle) := by
  subst hleft
  exact ⟨fun hmore => ⟨(if_neg (by omega)).trans hst, rfl⟩, fun hlast => if_pos (by omega)⟩

end

/-! ### Operations of a tick -/

section
variable (s : State) {v : Nat} (d : Due)

@[simp] theorem State.linkTo_link (st : LState) : (s.linkTo v st).link v =
    { s.link v with state := st, dnuLeft := if st = .dnu then 8 else 0 } := by
  simp [State.linkTo, (kept_eventIf s _ _ _).link]

@[simp] theorem State.linkTo_counter (st : LState) (p o : Nat) : (s.linkTo v st).counter p o = s.counter p o := by
  obtain ⟨_, _, h⟩ := s.linkTo_eq v st
  rw [h]; rfl

/-- The payload depends on the time domains and on which of them the link follows (R258, R259): a change of state of the
link leaves it. -/
@[simp] theorem State.linkTo_payload (st : LState) : (s.linkTo v st).payload v d = s.payload v d := by
  have htdom (i : Nat) : (s.linkTo v st).tdom i = s.tdom i := by
    obtain ⟨_, _, h⟩ := s.linkTo_eq v st
    rw [h]; rfl
  simp only [State.payload, State.linkTo_link, htdom]

/-- A sent frame touches its link, two counters and the number of free values. -/
theorem State.sendFrame_eq : ∃ c rd mark, s.sendFrame v d =
    (State.setLink { s with ctr := c } v fun l => l.send d rd mark (s.payload v d)).nextFree := by
  unfold State.sendFrame
  dsimp only
  split <;> exact ⟨_, _, _, rfl⟩

theorem State.sendFrame_link : ∃ rd mark, (s.sendFrame v d).link v = (s.link v).send d rd mark (s.payload v d) := by
  obtain ⟨_, rd, mark, h⟩ := s.sendFrame_eq d (v := v)
  refine ⟨rd, mark, ?_⟩
  rw [h, State.nextFree_r_link]
  exact State.setLink_link_self _ _ _

theorem State.sendFrame_sent : (s.link v).Sent ((s.sendFrame v d).link v) d (s.payload v d) := by
  obtain ⟨rd, mark, h⟩ := s.sendFrame_link d (v := v)
  exact h ▸ Link.send_sent _ _ _ _ _

@[simp] theorem State.sendFrame_state : ((s.sendFrame v d).link v).state = (s.link v).state := by
  obtain ⟨rd, mark, h⟩ := s.sendFrame_link d (v := v)
  rw [h, Link.send_state]

@[simp] theorem State.sendFrame_dnuLeft : ((s.sendFrame v d).link v).dnuLeft = (s.link v).dnuLeft := by
  obtain ⟨rd, mark, h⟩ := s.sendFrame_link d (v := v)
  rw [h, Link.send_dnuLeft]

/-- The first frame of a link that begins to send is the one that was due. -/
theorem State.beginSending_sent :
    (s.link v).Sent (((s.linkTo v .sending).sendFrame v d).link v) d (s.payload v d) := by
  have h := (s.linkTo v .sending).sendFrame_sent d (v := v)
  rw [State.linkTo_link, State.linkTo_payload] at h
  exact h

@[simp] theorem State.skipTick_link : (s.skipTick v d).link v = (s.link v).passed d :=
  State.setLink_link_self _ _ _

/-- A tick that is sent as idles is counted (R272). -/
theorem State.skipTick_counter : (s.skipTick v d).counter 0x0A (0xA80 + 8 * v) =
    (s.counter 0x0A (0xA80 + 8 * v) + 1) % 2 ^ 64 := by
  simp [State.skipTick, State.withheld, State.bump_counter]

/-- A tick of the safe sequence (R264). -/
def State.countDnu (v : Nat) : State :=
  let s := s.setLink v fun l => { l with dnuLeft := l.dnuLeft - 1 }
  if (s.link v).dnuLeft = 0 then s.linkTo v .safeIdle else s

@[simp] theorem State.countDnu_link : (s.countDnu v).link v = (s.link v).countDnu := by
  unfold State.countDnu Link.countDnu
  dsimp only
  split <;> simp_all

@[simp] theorem State.countDnu_counter (p o : Nat) : (s.countDnu v).counter p o = s.counter p o := by
  unfold State.countDnu
  dsimp only
  split <;> simp

end

/-! ### The tick in each state of the link (R263, R264) -/

section
variable {s : State} {v : Nat}

section
variable (hst : (s.link v).state = .idle) (henabled : bit (s.cfg 0x0A (4 * v)) 0 = true)
  (herr : (s.link v).cfgErr = 0 ∨ (s.link v).cfgErr = 2) (hidled : (s.link v).idled = true)
  (hrun : (s.out (32 + v)).state = .run)
include hst henabled herr hidled hrun

theorem State.linkTick_begins (hw : (s.link v).withhold = false) :
    s.linkTick v = (s.linkTo v .sending).sendFrame v (s.due v) := by
  unfold State.linkTick
  simp only [hst, hw]
  exact if_pos ⟨henabled, herr, hidled, hrun⟩

theorem State.linkTick_idle_withheld (hw : (s.link v).withhold = true) : s.linkTick v = s.skipTick v (s.due v) := by
  unfold State.linkTick
  simp only [hst, hw]
  exact if_pos ⟨henabled, herr, hidled, hrun⟩

end

/-- What a link that sends does at a tick: it sends the frame, or idles in its place (R272). -/
def State.tickFrame (s : State) (v : Nat) : State :=
  if (s.link v).withhold then s.skipTick v (s.due v) else s.sendFrame v (s.due v)

theorem State.tickFrame_sends (hw : (s.link v).withhold = false) : s.tickFrame v = s.sendFrame v (s.due v) := by
  simp [State.tickFrame, hw]

theorem State.tickFrame_withheld (hw : (s.link v).withhold = true) : s.tickFrame v = s.skipTick v (s.due v) :=
  if_pos hw

theorem State.linkTick_sending (hst : (s.link v).state = .sending) : s.linkTick v = s.tickFrame v := by
  unfold State.linkTick
  simp only [hst]
  rfl

theorem State.linkTick_dnu (hst : (s.link v).state = .dnu) (hsafe : (s.due v).content.dstate = 7) :
    s.linkTick v = (s.tickFrame v).countDnu v := by
  unfold State.linkTick
  simp only [hst]
  exact if_pos hsafe

end

end Sys2Proof.Machine
end

section
/-! PROOFS. The obligation on the ticks of a link. -/

namespace Sys2Proof.Settled

open Machine Stated

section
variable {s : State} {v : Nat} {w : State}

/-- From `s` to `t` the link sent the frame of the tick that was due. -/
def TickSent (s : State) (v : Nat) (t : State) : Prop :=
  (s.link v).Sent (t.link v) (s.due v) (s.payload v (s.due v))

/-- From `s` to `t` the link sent idles for the tick that was due, and counted it. -/
def TickSkipped (s : State) (v : Nat) (t : State) : Prop :=
  (s.link v).Dealt (t.link v) (s.due v) ∧ (t.link v).frame = (s.link v).frame ∧ (t.link v).line = (s.link v).line ∧
    t.counter 0x0A (0xA80 + 8 * v) = (s.counter 0x0A (0xA80 + 8 * v) + 1) % 2 ^ 64

theorem skipTick_skipped : TickSkipped s v (s.skipTick v (s.due v)) := by
  refine ⟨?_, ?_, ?_, s.skipTick_counter _⟩
  · exact s.skipTick_link _ ▸ Link.passed_dealt _ _
  · rw [State.skipTick_link, Link.passed_frame]
  · rw [State.skipTick_link, Link.passed_line]

/-- Counting a tick of the safe sequence leaves what was sent. -/
theorem TickSent.countDnu (h : TickSent s v w) : TickSent s v (w.countDnu v) := by
  rw [TickSent, State.countDnu_link]
  exact h

theorem TickSkipped.countDnu (h : TickSkipped s v w) : TickSkipped s v (w.countDnu v) := by
  rw [TickSkipped, State.countDnu_link, State.countDnu_counter]
  exact h

end

section
variable {s w : State} {v : Fin 8} (hw : s.linkTick v = w)
include hw

/-- A tick leaves the link and the count of withheld ticks as its operation leaves them. -/
theorem tick_completes : Completes (.tick v) s fun t =>
    t.link v = w.link v ∧ t.counter 0x0A (0xA80 + 8 * v) = w.counter 0x0A (0xA80 + 8 * v) :=
  completes_counting (w := w) (hw ▸ rfl) fun _ hkept hcounts => ⟨hkept.link v, hcounts _ _ (by decide)⟩

theorem tick_sends (hsent : TickSent s v w) :
    ∃ t, exec (.tick v) s = .next t ∧ TickSent s v t ∧ t.link v = w.link v := by
  obtain ⟨t, he, hlink, -⟩ := tick_completes hw
  exact ⟨t, he, by rwa [TickSent, hlink], hlink⟩

theorem tick_skips (hskipped : TickSkipped s v w) :
    ∃ t, exec (.tick v) s = .next t ∧ TickSkipped s v t ∧ t.link v = w.link v := by
  obtain ⟨t, he, hlink, hcount⟩ := tick_completes hw
  exact ⟨t, he, by rwa [TickSkipped, hlink, hcount], hlink⟩

end

/-- Settles O20: in each state that may send, a tick sends the frame that is due or idles in its place; the safe sequence
counts down besides. -/
theorem ticksSendFrames : Obligations.TicksSendFrames := by
  unfold Obligations.TicksSendFrames
  intro v s l d body frame dealt sent skipped
  refine ⟨fun hst henabled herr hidled hrun => ⟨fun hw => ?begins, fun hw => ?idles⟩,
    fun hst => ⟨fun hw => ?sends, fun hw => ?withholds⟩, fun hst hsafe => ⟨fun hw => ?counts, fun hw => ?skips⟩⟩
  case begins =>
    obtain ⟨t, he, hsent, hlink⟩ :=
      tick_sends (State.linkTick_begins hst henabled herr hidled hrun hw) (s.beginSending_sent d)
    exact ⟨t, he, by simp [hlink], hsent⟩
  case idles =>
    obtain ⟨t, he, hskipped, hlink⟩ :=
      tick_skips (State.linkTick_idle_withheld hst henabled herr hidled hrun hw) skipTick_skipped
    exact ⟨t, he, by simpa [hlink] using hst, hskipped⟩
  case sends =>
    obtain ⟨t, he, hsent, hlink⟩ :=
      tick_sends ((State.linkTick_sending hst).trans (State.tickFrame_sends hw)) (s.sendFrame_sent d)
    exact ⟨t, he, by simpa [hlink] using hst, hsent⟩
  case withholds =>
    obtain ⟨t, he, hskipped, hlink⟩ :=
      tick_skips ((State.linkTick_sending hst).trans (State.tickFrame_withheld hw)) skipTick_skipped
    exact ⟨t, he, by simpa [hlink] using hst, hskipped⟩
  case counts =>
    have htick := (State.linkTick_dnu hst hsafe).trans (congrArg (State.countDnu · v) (State.tickFrame_sends hw))
    obtain ⟨t, he, hsent, hlink⟩ := tick_sends htick (TickSent.countDnu (s.sendFrame_sent d))
    refine ⟨t, he, hsent, ?_⟩
    rw [hlink, State.countDnu_link]
    exact Link.countDnu_counts _ ((s.sendFrame_state d).trans hst) (s.sendFrame_dnuLeft d)
  case skips =>
    have htick := (State.linkTick_dnu hst hsafe).trans (congrArg (State.countDnu · v) (State.tickFrame_withheld hw))
    obtain ⟨t, he, hskipped, hlink⟩ := tick_skips htick skipTick_skipped.countDnu
    refine ⟨t, he, hskipped, ?_⟩
    rw [hlink, State.countDnu_link, State.skipTick_link]
    exact Link.countDnu_counts _ (((s.link v).passed_state d).trans hst) ((s.link v).passed_dnuLeft d)

end Sys2Proof.Settled
end

section
/-! PROOFS. The book loader (R293, R295, R297, R489): what the words of a book, the end of a read or of a verification
and an activation leave of the board, and what SCHED commands do. -/

namespace Sys2Proof.Machine

variable (s : State)

/-! ### What start-up does with a boot book (R489) -/

/-- Start-up tries one of its two boot books. -/
def State.boots : Bool := s.boot.bookTry == 1 || s.boot.bookTry == 2

theorem State.boots_iff : s.boots = true ↔ s.boot.bookTry = 1 ∨ s.boot.bookTry = 2 := by simp [State.boots]

theorem State.bookNext_host (h : s.boots = false) : s.bookNext = s :=
  if_neg fun htry => by simp [s.boots_iff.mpr htry] at h

section
variable (hboots : s.boots = true)
include hboots

theorem State.bookNext_loaded (h : s.board.bookState = .loaded) :
    s.bookNext = s.setBoard fun b => { b with bookState := .verifying } := by
  rw [State.bookNext, if_pos (s.boots_iff.mp hboots), h]

theorem State.bookNext_verified (h : s.board.bookState = .verified) : s.bookNext =
    (s.setBoot fun b => { b with book := b.bookTry, bookTry := 3 }).setBoard fun b =>
      { b with bookState := .activating } := by
  rw [State.bookNext, if_pos (s.boots_iff.mp hboots), h]

theorem State.bookNext_refused (h : s.board.bookState = .refused) : s.bookNext = s.bookFails := by
  rw [State.bookNext, if_pos (s.boots_iff.mp hboots), h]

end

theorem State.bookFails_bookVerify : s.bookFails.boot.bookVerify = s.board.verifyCode := by
  unfold State.bookFails
  dsimp only
  split <;> rfl

/-- The first boot book gives way to the second, which is read. -/
theorem State.bookFails_first (h : s.boot.bookTry = 1) :
    s.bookFails.board.bookState = .loading ∧ s.bookFails.boot.bookTry = 2 := by
  simp [State.bookFails, h, State.startLoad]

/-- After the second no book runs. -/
theorem State.bookFails_second (h : s.boot.bookTry = 2) :
    s.bookFails.board = s.board ∧ s.bookFails.boot.book = 3 ∧ s.bookFails.boot.bookTry = 0 := by
  simp [State.bookFails, h]

/-- In `t` the book that the store of `s` held or received has failed with code `c` at offset `o`: it is REFUSED, or
start-up goes on to its second boot book or to none. -/
def State.BookFailed (c o : Nat) (t : State) : Prop :=
  (s.boots = false → t.board.bookState = .refused ∧ t.board.verifyCode = c ∧ t.board.verifyOfs = o) ∧
  (s.boots = true → t.boot.bookVerify = c) ∧
  (s.boot.bookTry = 1 → t.board.bookState = .loading ∧ t.boot.bookTry = 2) ∧
  (s.boot.bookTry = 2 → t.board.bookState = .refused ∧ t.boot.book = 3 ∧ t.boot.bookTry = 0)

/-- A refused book has failed, once start-up has done its part. -/
theorem State.bookRefuse_bookFailed (c o : Nat) : s.BookFailed c o (s.bookRefuse c o).bookNext := by
  let u := s.bookRefuse c o
  have hrefused : u.board.bookState = .refused := rfl
  have hfails (h : s.boots = true) : u.bookNext = u.bookFails := u.bookNext_refused h hrefused
  refine ⟨fun h => ?_, fun h => ?_, fun h => ?_, fun h => ?_⟩
  · rw [u.bookNext_host h]
    exact ⟨rfl, rfl, rfl⟩
  · rw [hfails h]
    exact u.bookFails_bookVerify
  · rw [hfails (s.boots_iff.mpr (.inl h))]
    exact u.bookFails_first h
  · rw [hfails (s.boots_iff.mpr (.inr h))]
    obtain ⟨hboard, hbook⟩ := u.bookFails_second h
    exact ⟨(congrArg Board.bookState hboard).trans hrefused, hbook⟩

/-! ### The words of a book (R293) -/

/-- A host word is stored behind the last one, and the last one completes the book. -/
theorem State.bookWord_board {v : Word} (hst : s.board.bookState = .loading) (hhost : s.board.fromFlash = false) :
    let t := (s.bookWord v).board
    t.loadLen = s.board.loadLen + 4 ∧ tget (fun _ => 0) t.store (s.board.loadLen / 4) = v.toNat ∧
      (s.board.expect ≤ s.board.loadLen + 4 → t.bookState = .loaded) ∧
      (s.board.loadLen + 4 < s.board.expect → t.bookState = .loading) := by
  unfold State.bookWord
  simp only [hst, hhost, and_self, if_true]
  split
  · next hlast => simp [State.loaded, hlast]
  · next hmore => simp [hst, hmore]

/-- The length that the header of a book read from flash gives. -/
def bookLength (words : List Word) : Nat := ((words.map BitVec.toNat)[2]?).getD 0

section
variable {words : List Word} (hst : s.board.bookState = .loading) (hflash : s.board.fromFlash = true)
include hst hflash

theorem State.flashLoaded_error : s.flashLoaded words false = s.bookRefuse 15 0 := by
  simp [State.flashLoaded, hst, hflash]

theorem State.flashLoaded_long (h : 1572864 < bookLength words) : s.flashLoaded words true = s.bookRefuse 2 8 := by
  unfold bookLength at h
  simp only [State.flashLoaded, hst, hflash, and_self, if_true, reduceCtorEq, if_false, if_pos h]

section
variable (hlen : bookLength words ≤ 1572864)
include hlen

theorem State.flashLoaded_short (h : 4 * words.length < bookLength words) :
    s.flashLoaded words true = s.bookRefuse 15 0 := by
  unfold bookLength at hlen h
  simp only [State.flashLoaded, hst, hflash, and_self, if_true, reduceCtorEq, if_false, if_neg (Nat.not_lt.mpr hlen),
    List.length_map, if_pos h]

theorem State.flashLoaded_whole (h : bookLength words ≤ 4 * words.length) :
    (s.flashLoaded words true).board.loadLen = bookLength words ∧
      (s.flashLoaded words true).board.bookState = .loaded ∧ (s.flashLoaded words true).boot = s.boot := by
  unfold bookLength at hlen h
  simp only [State.flashLoaded, hst, hflash, and_self, if_true, reduceCtorEq, if_false, if_neg (Nat.not_lt.mpr hlen),
    List.length_map, if_neg (Nat.not_lt.mpr h)]
  exact ⟨rfl, rfl, rfl⟩

end
end

/-! ### The end of a verification (R287, R293) -/

section
variable (hst : s.board.bookState = .verifying)
include hst

theorem State.verified_good (h : s.verifyBook s.board.store s.board.loadLen = none) :
    s.verified.boot = s.boot ∧ s.verified.board = { s.board with
      bookState := .verified, verifyCode := 0, verifyOfs := 0
      warmOk := s.board.state == .running && imgWord s.board.store 0x20 == s.board.run.layout } := by
  have hgood : (s.event 0x01 0).verifyBook s.board.store s.board.loadLen = none := h
  simp only [State.verified, hst, if_true, State.event_board, hgood]
  exact ⟨rfl, rfl⟩

theorem State.verified_defect {c o : Nat} (h : s.verifyBook s.board.store s.board.loadLen = some (c, o)) :
    s.verified = (s.event 0x01 0).bookRefuse c o := by
  have hbad : (s.event 0x01 0).verifyBook s.board.store s.board.loadLen = some (c, o) := h
  simp only [State.verified, hst, if_true, State.event_board, hbad]

end

/-! ### What SCHED commands are refused for (R297) -/

/-- No command of an idle page is refused as BUSY while the loader neither verifies nor activates. -/
theorem State.loader_free (hidle : Stated.Idle s 0x01)
    (hstill : s.board.bookState ≠ .verifying ∧ s.board.bookState ≠ .activating) :
    (s.board.bookState == .verifying || s.board.bookState == .activating || s.busy 0x01) = false := by
  have hbusy : s.busy 0x01 = false := congrArg Option.isSome hidle
  simp [hstill, hbusy]

/-- Out of LOADING, VERIFYING and ACTIVATING a read of a book may start. -/
theorem State.loader_loads (hstill : s.board.bookState ≠ .verifying ∧ s.board.bookState ≠ .activating)
    (hload : s.board.bookState ≠ .loading) :
    (!(s.board.bookState == .empty || s.board.bookState == .loaded || s.board.bookState == .verified ||
      s.board.bookState == .refused || s.board.bookState == .installed)) = false := by
  cases h : s.board.bookState <;> simp_all

/-! ### Activation (R295) -/

/-- The images of a book come from the store and leave it alone. -/
theorem State.writeImages_store (warm : Bool) : (s.writeImages warm).board.store = s.board.store := by
  unfold State.writeImages
  simp only [State.setBoard_board]
  refine List.foldlRecOn (motive := fun t : State => t.board.store = s.board.store) _ _ rfl fun t ht c _ => ?_
  split <;> exact ht

/-- At the end of the 16 rounds the board runs the stored book. -/
theorem State.activated_board (h : s.board.state = .activating) :
    s.activated.board.state = .running ∧ s.activated.board.bookState = .installed ∧
      s.activated.board.actLeft = 0 ∧ s.activated.board.run = runBook s.board.store := by
  unfold State.activated
  rw [if_pos h]
  exact ⟨rfl, rfl, rfl, congrArg runBook (s.writeImages_store _)⟩

theorem State.beginActivation_board (warm : Bool) :
    (s.beginActivation warm).board.state = .activating ∧ (s.beginActivation warm).board.actLeft = 16 ∧
      (s.beginActivation warm).board.actWarm = warm := ⟨rfl, rfl, rfl⟩

/-- The argument of ACTIVATE, with the mode of its row in bit 0. -/
def activateArg (cold : Bool) (a : Word) : Word := if cold then a ||| 1 else a &&& ~~~(1 : Word)

theorem bit_activateArg (cold : Bool) (a : Word) : bit (activateArg cold a) 0 = cold := by
  cases cold <;> simp [activateArg, bit]

/-- An accepted ACTIVATE waits on the page, with the store ACTIVATING. -/
theorem State.activate_accepts {m : Master} {cold : Bool} (hr : Stated.Ready s 0x01 m)
    (hresult : (s.schedChecks 4 (activateArg cold (s.arg 0x01 (masterCode m)))).result = 0) :
    ∃ p b, s.activate m cold =
      { s.submit 0x01 (masterCode m) 4 (activateArg cold (s.arg 0x01 (masterCode m)))
          (s.schedChecks 4 (activateArg cold (s.arg 0x01 (masterCode m)))) with pair := p, board := b } := by
  unfold activateArg at *
  simp only [State.activate, Stated.ready_write hr, if_pos hresult]
  exact ⟨_, _, rfl⟩

/-- A pending ACTIVATE takes effect when lock, role and state still allow it (R507). -/
theorem State.schedApply_pending {q : CmdPend} (hpend : (s.page 0x01).pend = some q)
    (hlock : (s.page 0x01).lockCmd = false) (hrole : s.activateRole = false)
    (hstate : s.activateState (bit q.arg 0) = false) :
    ∃ g, s.schedApply = ({ s with pages := g } : State).beginActivation (!bit q.arg 0) := by
  obtain ⟨v, hv, g, rfl⟩ := Stated.settle_of (f := fun q s => State.beginActivation s (!bit q.arg 0)) hpend rfl
  refine ⟨g, Eq.trans ?_ hv⟩
  unfold State.schedApply
  simp [hpend, hlock, hrole, hstate, Checks.again]

end Sys2Proof.Machine

namespace Sys2Proof.Stated

open Machine

variable {s u w : State} {c : Instr} {m : Master}

/-- A SCHED command that its checks let through acts at once, on the board alone. -/
theorem carries_sched {code : Nat} {f : Board → Board} (hr : Ready s 0x01 m)
    (he : exec c s = finish (s.schedIssue m code)) (hcode : code < 256) (hnow : code ≠ 4)
    (hresult : (s.schedChecks code (s.arg 0x01 (masterCode m))).result = 0)
    (hf : ∀ u, State.schedEffect code (s.arg 0x01 (masterCode m)) u = u.setBoard f) :
    Carries c s 0x01 m code (s.setBoard f) := by
  have hissue : s.schedIssue m code = s.schedCommand m code (State.schedEffect code) := if_neg hnow
  have hcommand := he.trans (congrArg finish hissue)
  refine carries_of hr hcommand rfl hresult hcode ?_ ?_
  · rw [hf]
    rfl
  · rw [hf]
    exact answer_same (s := s.setBoard f) 0x01 (masterCode m) code 0 true

/-- ACTIVATE of a VERIFIED book waits, and takes effect at the boundary of a state that still allows it. -/
theorem waits_activate {cold : Bool} {legal : State → Prop} (hr : Ready s 0x01 m) (hidle : Idle s 0x01)
    (he : exec c s = finish (s.activate m cold)) (hbook : s.board.bookState = .verified) (hs : legal s)
    (hlegal : ∀ u, legal u →
      (u.page 0x01).lockCmd = false ∧ u.activateRole = false ∧ u.activateState cold = false) :
    Waits c s 0x01 m 4 (activateArg cold (s.arg 0x01 (masterCode m))) State.schedApply legal
      fun _ v => v.board.state = .activating ∧ v.board.actLeft = 16 ∧ v.board.actWarm = !cold := by
  have hbusy : s.busy 0x01 = false := congrArg Option.isSome hidle
  have hresult : (s.schedChecks 4 (activateArg cold (s.arg 0x01 (masterCode m)))).result = 0 := by
    obtain ⟨hlock, hrole, hstate⟩ := hlegal s hs
    simp [State.schedChecks, Checks.result, hbusy, hbook, hlock, hrole, bit_activateArg, hstate]
  obtain ⟨p, b, hactivate⟩ := s.activate_accepts hr hresult
  obtain ⟨t, ht, hkept⟩ := Safety.finish_kept (s.activate m cold)
  rw [hactivate] at hkept
  refine ⟨t, he.trans ht, (kept_status hkept _ _).trans (submit_shows hresult (by decide)),
    (kept_pend hkept _).trans (submit_pend hresult), fun u hpend hu => ?_⟩
  obtain ⟨hlock, hrole, hstate⟩ := hlegal u hu
  have hcold : bit (waiting s 0x01 m 4 (activateArg cold (s.arg 0x01 (masterCode m)))).arg 0 = cold :=
    bit_activateArg cold _
  obtain ⟨g, happly⟩ := u.schedApply_pending hpend hlock hrole (hcold.symm ▸ hstate)
  rw [happly, hcold]
  exact State.beginActivation_board _ _

/-- A command that ends in a refused book, once start-up has done its part, leaves that book failed. -/
theorem completes_bookFailed {code ofs : Nat} (he : exec c s = finish w.bookNext) (hw : w = u.bookRefuse code ofs)
    (hboot : u.boot = s.boot) : Completes c s (s.BookFailed code ofs) := by
  refine completes_of (hw ▸ he) fun t hkept => ?_
  have hfailed := u.bookRefuse_bookFailed code ofs
  rwa [State.BookFailed, State.boots, hboot, ← hkept.board, ← hkept.boot] at hfailed

end Sys2Proof.Stated
end

section
/-! PROOFS. The obligation on the book loader. -/

namespace Sys2Proof.Settled

open Machine Stated

variable {s : State}

theorem exec_bookData {m : Master} {v : Word} (hr : Ready s 0x01 m) :
    exec (.bookData m v) s = finish (s.bookWord v) := congrArg finish (ready_write hr)

theorem exec_flashLoadDone {words : List Word} {ok : Bool} :
    exec (.flashLoadDone words ok) s = finish (s.flashLoaded words ok).bookNext := rfl

theorem exec_verifyDone : exec .verifyDone s = finish s.verified.bookNext := rfl

/-- A book read whole from flash is LOADED; one that start-up tries goes on to VERIFYING. -/
theorem completes_flashLoaded {words : List Word} (hst : s.board.bookState = .loading)
    (hflash : s.board.fromFlash = true) (hlen : bookLength words ≤ 1572864)
    (hall : bookLength words ≤ 4 * words.length) :
    Completes (.flashLoadDone words true) s fun t => t.board.loadLen = bookLength words ∧
      (s.boots = false → t.board.bookState = .loaded) ∧ (s.boots = true → t.board.bookState = .verifying) := by
  obtain ⟨hloadLen, hloaded, hboot⟩ := s.flashLoaded_whole hst hflash hlen hall
  have hboots : (s.flashLoaded words true).boots = s.boots := by rw [State.boots, hboot, State.boots]
  refine completes_of exec_flashLoadDone fun t hkept => ?_
  rw [hkept.board]
  cases h : s.boots with
  | false =>
    rw [State.bookNext_host _ (hboots.trans h)]
    exact ⟨hloadLen, fun _ => hloaded, fun h => by simp at h⟩
  | true =>
    rw [State.bookNext_loaded _ (hboots.trans h) hloaded]
    exact ⟨hloadLen, fun h => by simp at h, fun _ => rfl⟩

/-- A book without a defect is VERIFIED; one that start-up tries goes on to its activation. -/
theorem completes_verified (hst : s.board.bookState = .verifying)
    (h : s.verifyBook s.board.store s.board.loadLen = none) :
    Completes .verifyDone s fun t => t.board.verifyCode = 0 ∧
      t.board.warmOk = (s.board.state == .running && imgWord s.board.store 0x20 == s.board.run.layout) ∧
      (s.boots = false → t.board.bookState = .verified) ∧
      (s.boots = true → t.board.bookState = .activating ∧ t.boot.book = s.boot.bookTry) := by
  obtain ⟨hboot, hboard⟩ := s.verified_good hst h
  have hboots : s.verified.boots = s.boots := by rw [State.boots, hboot, State.boots]
  refine completes_of exec_verifyDone fun t hkept => ?_
  rw [hkept.board, hkept.boot]
  cases h : s.boots with
  | false =>
    rw [State.bookNext_host _ (hboots.trans h), hboard]
    exact ⟨rfl, rfl, fun _ => rfl, fun h => by simp at h⟩
  | true =>
    rw [State.bookNext_verified _ (hboots.trans h) (congrArg Board.bookState hboard), State.setBoard_board,
      State.setBoot_board, hboard]
    exact ⟨rfl, rfl, fun h => by simp at h, fun _ => ⟨rfl, congrArg Boot.bookTry hboot⟩⟩

/-- Settles O21: each SCHED command is legal where R297 has it so; those that act at once write the board, and ACTIVATE
waits; a book that fails on its way is refused by one operation, which start-up follows up. That a good boot book goes
on to its activation by itself is log entry 57. -/
theorem loaderCommandsTakeEffect : Obligations.LoaderCommandsTakeEffect := by
  unfold Obligations.LoaderCommandsTakeEffect
  intro m value words s a b still boots fails
  refine ⟨fun hr hidle => ⟨
      fun hlock hstill hload => ⟨fun h16 hlo hhi => ?loadHost, fun hpage hin => ?loadFlash⟩,
      fun hlock (hst : s.board.bookState = .loaded) => ?verify,
      fun hlock hst hrole => ⟨fun hruns hwarm => ?warm, fun hcold => ?cold⟩,
      fun hstill => ?clear, fun hlock hstill (hforced : s.board.v3Forced = true) => ?resume⟩,
    fun hr hst hhost => ?bookData,
    fun hst hflash => ⟨?readError, fun hlong => ?long, fun hlen hshort => ?short, fun hlen hall => ?whole⟩,
    fun hst => ⟨fun hgood => ?good, fun code ofs hbad => ?defect⟩, fun hst => ?complete⟩
  case loadHost =>
    refine carries_sched hr rfl (by decide) (by decide) (Checks.result_eq_zero.mpr ⟨?_, s.loader_free hidle hstill,
      hlock, rfl, rfl, s.loader_loads hstill hload⟩) fun _ => rfl
    simpa [State.schedChecks] using ⟨⟨h16, hlo⟩, hhi⟩
  case loadFlash =>
    refine carries_sched hr rfl (by decide) (by decide) (Checks.result_eq_zero.mpr ⟨?_, s.loader_free hidle hstill,
      hlock, rfl, rfl, s.loader_loads hstill hload⟩) fun _ => rfl
    simpa [State.schedChecks] using ⟨hpage, hin⟩
  case verify =>
    exact carries_sched hr rfl (by decide) (by decide) (Checks.result_eq_zero.mpr ⟨rfl,
      s.loader_free hidle (by simp [hst]), hlock, rfl, rfl, by simp [State.schedChecks, hst]⟩) fun _ => rfl
  case warm =>
    exact waits_activate (cold := false) hr hidle rfl hst ⟨hlock, hrole, hruns, hwarm⟩
      fun u ⟨hlock, hrole, hruns, hwarm⟩ => ⟨hlock, hrole, by simp [State.activateState, hruns, hwarm]⟩
  case cold =>
    refine waits_activate (cold := true) hr hidle rfl hst ⟨hlock, hrole, hcold⟩
      fun u ⟨hlock, hrole, hcold⟩ => ⟨hlock, hrole, ?_⟩
    rcases hcold with h | h <;> simp [State.activateState, h]
  case clear =>
    exact carries_sched hr rfl (by decide) (by decide) (Checks.result_eq_zero.mpr ⟨rfl,
      s.loader_free hidle hstill, rfl, rfl, rfl, rfl⟩) fun _ => rfl
  case resume =>
    exact carries_sched hr rfl (by decide) (by decide) (Checks.result_eq_zero.mpr ⟨rfl,
      s.loader_free hidle hstill, hlock, rfl, rfl, by simp [State.schedChecks, hforced]⟩) fun _ => rfl
  case bookData =>
    refine completes_of (exec_bookData hr) fun t hkept => ?_
    rw [hkept.board]
    exact s.bookWord_board hst hhost
  case readError => exact completes_bookFailed exec_flashLoadDone (s.flashLoaded_error hst hflash) rfl
  case long => exact completes_bookFailed exec_flashLoadDone (s.flashLoaded_long hst hflash hlong) rfl
  case short => exact completes_bookFailed exec_flashLoadDone (s.flashLoaded_short hst hflash hlen hshort) rfl
  case whole => exact completes_flashLoaded hst hflash hlen hall
  case good => exact completes_verified hst hgood
  case defect => exact completes_bookFailed exec_verifyDone (s.verified_defect hst hbad) rfl
  case complete =>
    refine completes_of (w := s.activated) rfl fun t hkept => ?_
    rw [hkept.board]
    exact s.activated_board hst

end Sys2Proof.Settled
end

section
/-! PROOFS. Cells (R298 to R301, R307): the start of a replacement, the start and the end of a test, and what CELL
commands do at their boundary. -/

namespace Sys2Proof.Safety

theorem Kept.cell {s t : Machine.State} (h : Kept s t) (c : Nat) : t.cell c = s.cell c := by
  simp [Machine.State.cell, h.board]

end Sys2Proof.Safety

namespace Sys2Proof.Machine

variable (s : State) {c n : Nat}

theorem State.setBoard_cell {f : Board → Board} (hf : (f s.board).cells = s.board.cells) (k : Nat) :
    (s.setBoard f).cell k = s.cell k := by
  simp [State.cell, hf]

/-! ### Replacements (R298, R299) -/

@[simp] theorem State.replace_cell (leaving : Option (Nat × Nat)) (k : Nat) :
    (s.replace n leaving).cell k = s.cell k := by
  unfold State.replace
  split
  · rfl
  · split <;> rfl

/-- With none in progress, a replacement of a logical cell starts with the spare that is free for it. -/
theorem State.replace_repl {leaving : Option (Nat × Nat)} {k : Nat} (hnone : s.board.repl = [])
    (hspare : s.spareFor n = some k) :
    (s.replace n leaving).board.repl = [{ spare := k, logical := n, copying := false, leaving }] := by
  simp [State.replace, hnone, hspare]

@[simp] theorem State.leaveRepl_cell (k : Nat) : (s.leaveRepl c).cell k = s.cell k := by
  unfold State.leaveRepl
  dsimp only
  split
  · exact State.replace_cell _ _ _
  · rfl

/-! ### Tests (R298) -/

@[simp] theorem State.cellTo_cell (st : CState) : (s.cellTo c st).cell c = { s.cell c with state := st } := by
  simp [State.cellTo]

theorem State.startCellTest_cell : (s.startCellTest c).cell c = { s.cell c with
    state := .testing, logical := 31, testLeft := 64, testResult := 0, imem := [], dmem := [] } := by
  simp [State.startCellTest]

section
variable (htest : (s.cell c).state = .testing)
include htest

/-- A good cell becomes SPARE with its memories cleared; the replacement of the second twin that may follow it touches
no cell yet. -/
theorem State.cellTestDone_passed : (s.cellTestDone c true).cell c = { s.cell c with
    state := .spare, testLeft := 0, testResult := 1, imem := [], dmem := [] } := by
  unfold State.cellTestDone
  rw [if_pos htest]
  simp only [if_true]
  repeat' split
  all_goals simp [State.setBoard_cell]

/-- A bad cell is FENCED. -/
theorem State.cellTestDone_failed (hnative : s.fault.compat = false) : (s.cellTestDone c false).cell c = { s.cell c with
    state := .fenced, testLeft := 0, testResult := 2, imem := [], dmem := [], lastCause := 8 } := by
  unfold State.cellTestDone
  rw [if_pos htest]
  simp only [reduceCtorEq, if_false]
  rw [State.report_cell (by simpa [State.cellTo] using hnative)]
  simp [State.setBoard_cell]

end

/-! ### CELL commands (R301) -/

/-- A waiting command takes effect when neither lock nor role nor state speaks against it (R507). -/
theorem Checks.again_eq_zero {ck : Checks} :
    ck.again = 0 ↔ ck.lock = false ∧ ck.role = false ∧ ck.state = false := by
  unfold Checks.again
  repeat' split
  all_goals simp_all

/-- The replacement of scheduled cell `c` may start: a permitted spare is free, and none is in progress. -/
def State.MayReplace (s : State) (c : Nat) : Prop := s.spareFor (s.cell c).logical ≠ none ∧ s.board.repl = []

section
variable {a : Word} (hst : (s.cell (bits a 4 0)).state = .scheduled) (hroom : s.MayReplace (bits a 4 0))
include hst hroom

theorem State.cellChecks_spareIn : (s.cellChecks 1 a).state = false := by
  obtain ⟨hspare, hnone⟩ := hroom
  simp [State.cellChecks, hst, Option.isSome_iff_ne_none.mpr hspare, hnone]

theorem State.cellChecks_testScheduled (hrun : s.board.state ≠ .activating) : (s.cellChecks 2 a).state = false := by
  obtain ⟨hspare, hnone⟩ := hroom
  simp [State.cellChecks, hst, Option.isSome_iff_ne_none.mpr hspare, hnone, hrun]

end

theorem State.cellChecks_test {a : Word}
    (hst : (s.cell (bits a 4 0)).state = .spare ∨ (s.cell (bits a 4 0)).state = .fenced)
    (hrun : s.board.state ≠ .activating) : (s.cellChecks 2 a).state = false := by
  rcases hst with hst | hst <;> simp [State.cellChecks, hst, hrun]

/-- What a CELL command does: a scheduled cell is replaced, SPARE_IN leaving it SPARE and CELL_TEST to a test; another
cell is tested. -/
def State.cellEffect (q : CmdPend) (s : State) : State :=
  let c := bits q.arg 4 0
  if (s.cell c).state = .scheduled then s.replace (s.cell c).logical (some (c, q.code - 1))
  else (s.startCellTest c).leaveRepl c

/-- A pending CELL command of a host takes effect when the checks made again pass (R507). -/
theorem State.cellApply_pending {q : CmdPend} (hpend : (s.page 0xC8).pend = some q) (hhost : q.data = [])
    (hagain : (s.cellChecks q.code q.arg).again = 0) :
    ∃ g, s.cellApply = State.cellEffect q { s with pages := g } := by
  obtain ⟨v, hv, g, rfl⟩ := Stated.settle_of (f := State.cellEffect) hpend hagain
  refine ⟨g, Eq.trans ?_ hv⟩
  unfold State.cellApply
  simp only [hpend, hhost, beq_self_eq_true, Bool.and_true]
  rfl

/-- The effect on a scheduled cell that may be replaced. -/
theorem State.cellEffect_scheduled {q : CmdPend} {k : Nat} (hst : (s.cell (bits q.arg 4 0)).state = .scheduled)
    (hnone : s.board.repl = []) (hspare : s.spareFor (s.cell (bits q.arg 4 0)).logical = some k) :
    (State.cellEffect q s).board.repl = [{
      spare := k, logical := (s.cell (bits q.arg 4 0)).logical, copying := false
      leaving := some (bits q.arg 4 0, q.code - 1) }] := by
  rw [State.cellEffect, if_pos hst, s.replace_repl hnone hspare]

/-- The effect on a spare or fenced cell. -/
theorem State.cellEffect_tested {q : CmdPend}
    (hst : (s.cell (bits q.arg 4 0)).state = .spare ∨ (s.cell (bits q.arg 4 0)).state = .fenced) :
    let x := (State.cellEffect q s).cell (bits q.arg 4 0)
    x.state = .testing ∧ x.testLeft = 64 ∧ x.dmem = [] := by
  have hloose : (s.cell (bits q.arg 4 0)).state ≠ .scheduled := by rcases hst with hst | hst <;> simp [hst]
  rw [State.cellEffect, if_neg hloose, State.leaveRepl_cell, State.startCellTest_cell]
  exact ⟨rfl, rfl, rfl⟩

end Sys2Proof.Machine

namespace Sys2Proof.Stated

open Machine

variable {s : State} {c : Instr} {m : Master}

/-- A CELL command waits in a state that allows it, and takes effect at the boundary of a state that allows it: an idle
page and a known code are asked for at its write alone. -/
theorem waits_cell {code : Nat} {legal : State → Prop} {effect : State → State → Prop} (hr : Ready s 0xC8 m)
    (hidle : Idle s 0xC8) (he : exec c s = finish (s.cellCommand m code)) (hcode : code = 1 ∨ code = 2) (hs : legal s)
    (hlegal : ∀ u, legal u → (u.cellChecks code (s.arg 0xC8 (masterCode m))).again = 0)
    (hb : ∀ u g, legal u →
      effect u (State.cellEffect (waiting s 0xC8 m code (s.arg 0xC8 (masterCode m))) { u with pages := g })) :
    Waits c s 0xC8 m code (s.arg 0xC8 (masterCode m)) State.cellApply legal effect := by
  have hresult : (s.cellChecks code (s.arg 0xC8 (masterCode m))).result = 0 := by
    have hbusy : s.busy 0xC8 = false := congrArg Option.isSome hidle
    obtain ⟨hlock, hrole, hstate⟩ := Checks.again_eq_zero.mp (hlegal s hs)
    rw [Checks.result_eq_zero]
    rcases hcode with rfl | rfl <;> exact ⟨rfl, hbusy, hlock, hrole, rfl, hstate⟩
  refine waits_submit hr he rfl hresult (by omega) fun u hpend hu => ?_
  obtain ⟨g, happly⟩ := u.cellApply_pending hpend rfl (hlegal u hu)
  exact happly ▸ hb u g hu

end Sys2Proof.Stated
end

section
/-! PROOFS. The obligation on cells. -/

namespace Sys2Proof.Settled

open Machine Stated

variable {s : State}

/-- What the scrub reports of a word of the store is of class C, and touches no unit (R307, R422). -/
theorem kept_raise_scrub (u : State) : Safety.Kept u (u.raise 0x01 5) := Safety.Kept.report_corrected u rfl

theorem exec_storeScrub_pending (hst : s.board.bookState = .loading ∨ s.board.bookState = .loaded ∨
    s.board.bookState = .verifying ∨ s.board.bookState = .verified) :
    exec (.storeScrub .uncorrectable) s =
      finish (((s.setBoard fun b => { b with scrub := 0 }).bookRefuse 15 0).raise 0x01 5) := by
  change execStoreScrub .uncorrectable s = _
  rcases hst with hst | hst | hst | hst <;> simp [execStoreScrub, hst]

theorem exec_storeScrub_installed (hst : s.board.bookState = .installed) :
    exec (.storeScrub .uncorrectable) s = finish ((s.setBoard fun b => { b with
      scrub := 0, bookState := .empty, store := [], storedRead := false, stored := .zero }).raise 0x01 5) := by
  change execStoreScrub .uncorrectable s = _
  simp only [execStoreScrub, State.setBoard_board, hst]
  rfl

/-- Settles O22: each CELL command is legal where R301 has it so, and a scheduled cell is replaced where another is
tested; the end of a test writes its cell, and the scrub the board. That a replacement is entered at the boundary of the
command's effect is log entry 69. -/
theorem cellCommandsTakeEffect : Obligations.CellCommandsTakeEffect := by
  unfold Obligations.CellCommandsTakeEffect
  intro m n s a c swap room
  refine ⟨fun hr hidle => ⟨fun hlock hst hroom => ?spareIn,
      fun hrun => ⟨fun hst => ?test, fun hst hroom => ?testScheduled⟩⟩,
    fun htest => ⟨?passed, fun hnative => ?failed⟩, ?clean, ?corrected, fun hst => ?installed,
    fun hst => ?pending⟩
  case spareIn =>
    exact waits_cell hr hidle rfl (.inl rfl) ⟨hlock, hst, hroom⟩
      (fun u ⟨hlock, hst, hroom⟩ => Checks.again_eq_zero.mpr ⟨hlock, rfl, u.cellChecks_spareIn hst hroom⟩)
      fun u g ⟨_, hst, _, hnone⟩ k hspare => State.cellEffect_scheduled _ hst hnone hspare
  case test =>
    exact waits_cell hr hidle rfl (.inr rfl) ⟨hrun, hst⟩
      (fun u ⟨hrun, hst⟩ => Checks.again_eq_zero.mpr ⟨rfl, rfl, u.cellChecks_test hst hrun⟩)
      fun u g ⟨_, hst⟩ => State.cellEffect_tested _ hst
  case testScheduled =>
    exact waits_cell hr hidle rfl (.inr rfl) ⟨hrun, hst, hroom⟩
      (fun u ⟨hrun, hst, hroom⟩ =>
        Checks.again_eq_zero.mpr ⟨rfl, rfl, u.cellChecks_testScheduled hst hroom hrun⟩)
      fun u g ⟨_, hst, _, hnone⟩ k hspare => State.cellEffect_scheduled _ hst hnone hspare
  case passed =>
    refine completes_of (w := s.cellTestDone n true) rfl fun t hkept => ?_
    rw [hkept.cell, s.cellTestDone_passed htest]
    exact ⟨rfl, rfl, rfl, rfl⟩
  case failed =>
    refine completes_of (w := s.cellTestDone n false) rfl fun t hkept => ?_
    rw [hkept.cell, s.cellTestDone_failed htest hnative]
    exact ⟨rfl, rfl⟩
  case clean => exact does_of rfl (Safety.Same.refl _)
  case corrected => exact does_of rfl (kept_raise_scrub _).same
  case installed => exact does_of (exec_storeScrub_installed hst) (kept_raise_scrub _).same
  case pending =>
    exact does_of (exec_storeScrub_pending hst) ((event_same 0x01 1 []).trans (kept_raise_scrub _).same)

end Sys2Proof.Settled
end

section
/-! PROOFS. What every step shares: the front command runs and ends in `finish`, so that it answers a next state with the
requests settled (R411, R414, R417). -/

namespace Sys2Proof.Machine

/-- Every command ends in `finish`, on each of its branches. -/
theorem exec_eq_finish (c : Instr) (s : State) : ∃ w, exec c s = finish w := by
  cases c
  case moveSwitch j =>
    change ∃ w, execMoveSwitch j s = finish w
    unfold execMoveSwitch; split <;> exact ⟨_, rfl⟩
  case uartMessage u bytes after before =>
    change ∃ w, execUartMessage u bytes after before s = finish w
    unfold execUartMessage; dsimp only
    split
    · split
      · split
        · exact ⟨_, rfl⟩
        · split <;> exact ⟨_, rfl⟩
      · exact ⟨_, rfl⟩
    · split
      · split <;> exact ⟨_, rfl⟩
      · exact ⟨_, rfl⟩
  case ppsPulse t =>
    change ∃ w, execPpsPulse t s = finish w
    unfold execPpsPulse; dsimp only; split <;> exact ⟨_, rfl⟩
  case trgFired g =>
    change ∃ w, execTrgFired g s = finish w
    unfold execTrgFired; dsimp only; split <;> exact ⟨_, rfl⟩
  case timedSwapDue =>
    change ∃ w, execTimedSwapDue s = finish w
    unfold execTimedSwapDue; split <;> exact ⟨_, rfl⟩
  case storeScrub err => cases err <;> exact ⟨_, rfl⟩
  case bridgeTimeout m addr wr =>
    change ∃ w, execBridgeTimeout m addr wr s = finish w
    unfold execBridgeTimeout; dsimp only
    split
    · exact ⟨_, rfl⟩
    · split <;> exact ⟨_, rfl⟩
  case tapInstruction q => cases q <;> exact ⟨_, rfl⟩
  case resetRelease size =>
    change ∃ w, execResetRelease size s = finish w
    unfold execResetRelease; split <;> exact ⟨_, rfl⟩
  case sclkRecalibrate locks => cases locks <;> exact ⟨_, rfl⟩
  all_goals exact ⟨_, rfl⟩

/-- A step runs the front command on the rest of the queue. -/
theorem step_cons {c : Instr} {cs : List Instr} {s : State} (h : s.pending = c :: cs) :
    step s = exec c { s with pending := cs } := by simp [step, h]

/-- A step of an empty queue idles (log entry 1). -/
theorem step_nil {s : State} (h : s.pending = []) : step s = .next s := by simp [step, h]

end Sys2Proof.Machine

namespace Sys2Proof.Stated

open Machine

/-- Every command leaves the requests and lines what the eligible sources make them. -/
theorem exec_follows {c : Instr} {s t : State} (h : exec c s = .next t) : Safety.RequestsFollow t := by
  obtain ⟨w, hw⟩ := exec_eq_finish c s
  rw [hw, finish_next] at h
  obtain rfl : _ = t := Host.Outcome.next.inj h
  exact Safety.settle_follows _ _

end Sys2Proof.Stated
end

section
/-! PROOFS. The statements on every step (chapters 00 and 15): O1, O2 and O3. -/

namespace Sys2Proof.Settled

open Machine Stated

/-- Settles O1: the queue with a command at the front, and the empty one. -/
theorem stepRunsTheFrontCommand : Obligations.StepRunsTheFrontCommand := by
  unfold Obligations.StepRunsTheFrontCommand
  exact ⟨fun _ _ => step_cons rfl, fun _ => step_nil⟩

/-- Settles O2: every command ends in `finish`, and a step runs a command or idles. -/
theorem everyCommandIsAnswered : Obligations.EveryCommandIsAnswered := by
  unfold Obligations.EveryCommandIsAnswered
  have answered (c : Instr) (s : State) : ∃ t, exec c s = .next t := by
    obtain ⟨w, hw⟩ := exec_eq_finish c s
    exact ⟨_, hw.trans (finish_next w)⟩
  refine ⟨answered, fun s => ?_⟩
  unfold Safety.Continues
  cases hq : s.pending with
  | nil => exact ⟨s, step_nil hq⟩
  | cons c cs => rw [step_cons hq]; exact answered c _

/-- Settles O3, by the queue: idling changes nothing, so the requests must have followed before; a command that runs
establishes them in its end. -/
theorem stepsKeepRequests : Obligations.StepsKeepRequests := by
  unfold Obligations.StepsKeepRequests
  intro s t hstep hbefore
  cases hq : s.pending with
  | nil =>
    rw [step_nil hq] at hstep
    obtain rfl := Host.Outcome.next.inj hstep
    exact hbefore.resolve_right fun h => h hq
  | cons c cs =>
    rw [step_cons hq] at hstep
    exact exec_follows hstep

end Sys2Proof.Settled
end

section
/-! PROOFS. What no record, reaction or fencing takes back: PAGE_FAULT bits (R408), and the interrupts that are latched or
in service (R411, R418). -/

namespace Sys2Proof.Safety

open Machine

/-- What stands in `s` stands in `t`: PAGE_FAULT bits, interrupts latched and in service, FATAL. -/
structure Stands (s t : State) : Prop where
  fault : ∀ p b, (s.page p).fault.getLsbD b = true → (t.page p).fault.getLsbD b = true
  latched : ∀ n, s.irq.latched.contains n = true → t.irq.latched.contains n = true
  fatalC : s.irq.fatalC = true → t.irq.fatalC = true
  fatalG : s.irq.fatalG = true → t.irq.fatalG = true
  insvcC : t.irq.insvcC = s.irq.insvcC
  insvcG : t.irq.insvcG = s.irq.insvcG

theorem Stands.trans {s t u : State} (h : Stands s t) (g : Stands t u) : Stands s u where
  fault p b hb := g.fault p b (h.fault p b hb)
  latched n hn := g.latched n (h.latched n hn)
  fatalC hc := g.fatalC (h.fatalC hc)
  fatalG hc := g.fatalG (h.fatalG hc)
  insvcC := g.insvcC.trans h.insvcC
  insvcG := g.insvcG.trans h.insvcG

theorem Stands.settle (s : State) (b : Bool) : Stands s (s.settle b) := by
  constructor <;> simp [State.page]

/-- What stands stays, and so does where each source is judged (R417). -/
structure Stays (s t : State) : Prop extends Stands s t where
  moved : t.irq.moved = s.irq.moved

variable {s t u : State}

/-- What a unit's own transitions leave alone: the collector, interrupt delivery, the NV store and PAGE_FAULT. -/
structure Quiet (s t : State) : Prop where
  flags : ∀ p, (t.page p).fault = (s.page p).fault
  irq : t.irq = s.irq
  fault : t.fault = s.fault
  nv : t.nv = s.nv

namespace Quiet

theorem stays (h : Quiet s t) : Stays s t where
  fault p b hb := by rwa [h.flags]
  latched n hn := by rwa [h.irq]
  fatalC hc := by rwa [h.irq]
  fatalG hc := by rwa [h.irq]
  insvcC := by rw [h.irq]
  insvcG := by rw [h.irq]
  moved := by rw [h.irq]

theorem of_eq (hp : t.pages = s.pages) (hi : t.irq = s.irq) (hf : t.fault = s.fault) (hn : t.nv = s.nv) : Quiet s t :=
  ⟨fun p => by simp [State.page, hp], hi, hf, hn⟩

theorem refl (s : State) : Quiet s s := of_eq rfl rfl rfl rfl

theorem trans (h : Quiet s t) (g : Quiet t u) : Quiet s u :=
  ⟨fun p => (g.flags p).trans (h.flags p), g.irq.trans h.irq, g.fault.trans h.fault, g.nv.trans h.nv⟩

theorem foldl {α : Type} {f : State → α → State} (hf : ∀ u a, Quiet u (f u a)) (l : List α) (s : State) :
    Quiet s (l.foldl f s) := by
  induction l generalizing s with
  | nil => exact refl s
  | cons a l ih => exact (hf s a).trans (ih _)

theorem event (s : State) (p b : Nat) : Quiet s (s.event p b) :=
  ⟨fun q => by simp only [State.event, State.setPage_page]; split <;> simp_all, rfl, rfl, rfl⟩

theorem eventIf (c : Bool) (p b : Nat) (s : State) : Quiet s (State.eventIf c p b s) := by
  unfold State.eventIf; split
  · exact event s p b
  · exact refl s

theorem bump (s : State) (p o : Nat) : Quiet s (s.bump p o) := of_eq rfl rfl rfl rfl
theorem nextFree (s : State) : Quiet s s.nextFree := of_eq rfl rfl rfl rfl
theorem setOut (s : State) (j : Nat) (f : Out → Out) : Quiet s (s.setOut j f) := of_eq rfl rfl rfl rfl
theorem setDom (s : State) (d : Nat) (f : Dom → Dom) : Quiet s (s.setDom d f) := of_eq rfl rfl rfl rfl
theorem setQual (s : State) (i : Nat) (f : Qual → Qual) : Quiet s (s.setQual i f) := of_eq rfl rfl rfl rfl
theorem setPair (s : State) (f : PairUnit → PairUnit) : Quiet s (s.setPair f) := of_eq rfl rfl rfl rfl
theorem setSvc (s : State) (f : Service → Service) : Quiet s (s.setSvc f) := of_eq rfl rfl rfl rfl
theorem setHarvest (s : State) (f : Harvest → Harvest) : Quiet s (s.setHarvest f) := of_eq rfl rfl rfl rfl
theorem andBump {p o : Nat} (h : Quiet s t) : Quiet s (t.bump p o) := h.trans (bump _ _ _)
theorem andEvent {p b : Nat} (h : Quiet s t) : Quiet s (t.event p b) := h.trans (event _ _ _)

/-! ### Fencing (R436) -/

theorem setChan (s : State) (k : Nat) (f : Chan → Chan) : Quiet s (s.setChan k f) := of_eq rfl rfl rfl rfl
theorem setTim (s : State) (i : Nat) (f : Tim → Tim) : Quiet s (s.setTim i f) := of_eq rfl rfl rfl rfl
theorem setSyn (s : State) (k : Nat) (f : Syn → Syn) : Quiet s (s.setSyn k f) := of_eq rfl rfl rfl rfl
theorem setLink (s : State) (v : Nat) (f : Link → Link) : Quiet s (s.setLink v f) := of_eq rfl rfl rfl rfl
theorem setPort (s : State) (p : Nat) (f : Port → Port) : Quiet s (s.setPort p f) := of_eq rfl rfl rfl rfl
theorem setTdom (s : State) (t : Nat) (f : TimeDom → TimeDom) : Quiet s (s.setTdom t f) := of_eq rfl rfl rfl rfl
theorem setBoard (s : State) (f : Board → Board) : Quiet s (s.setBoard f) := of_eq rfl rfl rfl rfl

theorem chTo (s : State) (k : Nat) (st : ChState) : Quiet s (s.chTo k st) := by
  have aborted : Quiet s (s.abortTest k) := by
    unfold State.abortTest; split
    · exact ((setChan s k _).andEvent (p := stampPage k) (b := 4)).trans (of_eq rfl rfl rfl rfl)
    · exact refl s
  unfold State.chTo; split
  · exact refl s
  · exact aborted.andEvent.trans (setChan _ _ _)

theorem timTo (s : State) (i : Nat) (st : TimState) : Quiet s (s.timTo i st) := by
  unfold State.timTo; split
  · exact refl s
  · exact (setTim _ _ _).andEvent

theorem linkTo (s : State) (v : Nat) (st : LState) : Quiet s (s.linkTo v st) :=
  (eventIf _ _ _ s).trans (setLink _ _ _)

theorem linkOf (s : State) (j : Nat) : Quiet s (s.linkOf j) := by
  unfold State.linkOf State.linkSync; dsimp only
  split
  · split
    · split
      · exact refl s
      · exact linkTo _ _ _
    · split
      · split
        · exact ((linkTo _ _ _).trans (setLink _ _ _)).trans (nextFree _)
        · exact refl s
      · split
        · exact linkTo _ _ _
        · exact refl s
  · exact refl s

theorem setOutState (s : State) (j : Nat) (st : OState) (held : Bool) : Quiet s (s.setOutState j st held) := by
  unfold State.setOutState; dsimp only
  split
  · exact (((eventIf _ _ _ s).trans (eventIf _ _ _ _)).trans (setOut _ _ _)).trans (linkOf _ _)
  · exact ((eventIf _ _ _ s).trans (setOut _ _ _)).trans (linkOf _ _)

theorem fenceOut (s : State) (j : Nat) : Quiet s (s.fenceOut j) := by
  unfold State.fenceOut; split
  · exact setOutState _ _ _ _
  · exact setOutState _ _ _ _
  · exact setOutState _ _ _ _
  · exact refl s

theorem squelchSyn (s : State) (k : Nat) : Quiet s (s.squelchSyn k) := by
  refine foldl (fun u j => ?_) _ _
  unfold State.squelch; split
  · exact (setOutState _ _ _ _).andBump
  · exact refl u

theorem unsquelchSyn (s : State) (k : Nat) : Quiet s (s.unsquelchSyn k) := by
  unfold State.unsquelchSyn; split
  · exact foldl (fun u j => setOutState u j _ _) _ _
  · exact refl s

theorem holdPort (s : State) (k p : Nat) : Quiet s (State.holdPort k s p) := by
  unfold State.holdPort; dsimp only
  split
  · exact (eventIf _ _ _ s).trans (setPort _ _ _)
  · exact refl s

theorem synTo (s : State) (k : Nat) (st : SynState) : Quiet s (s.synTo k st) := by
  have moved (f : Syn → Syn) : Quiet s ((s.event (synPage k) 0).setSyn k f) := (event _ _ _).trans (setSyn _ _ _)
  unfold State.synTo; dsimp only
  split
  · exact refl s
  · split
    · exact (moved _).trans (unsquelchSyn _ _)
    · split
      · exact ((moved _).trans (squelchSyn _ _)).trans (foldl (fun u p => holdPort u k p) _ _)
      · exact moved _

theorem replace (s : State) (n : Nat) (leaving : Option (Nat × Nat)) : Quiet s (s.replace n leaving) := by
  unfold State.replace; split
  · exact refl s
  · split
    · exact setBoard _ _
    · exact refl s

/-- Fencing takes no fault bit and no interrupt back, whichever unit it fences. -/
theorem fence (s : State) (page b ctx pair : Nat) : Quiet s (s.fence page b ctx pair) := by
  unfold State.fence; dsimp only
  split
  · split
    · exact chTo _ _ _
    · exact refl s
  · split
    · exact (setTim _ _ _).trans (timTo _ _ _)
    · exact refl s
  · exact of_eq rfl rfl rfl rfl
  · split
    · exact setDom _ _ _
    · split
      · exact setDom _ _ _
      · split
        · exact setDom _ _ _
        · exact refl s
  · split
    · exact refl s
    · split
      · exact refl s
      · exact (synTo _ _ _).trans (squelchSyn _ _)
  · split
    · exact refl s
    · exact fenceOut _ _
  · split
    · exact refl s
    · exact (setTdom _ _ _).andEvent
  · split
    · exact refl s
    · exact fenceOut _ _
  · split
    · exact of_eq rfl rfl rfl rfl
    · exact refl s
  · split
    · split
      · exact (replace _ _ _).trans (of_eq rfl rfl rfl rfl)
      · exact refl s
    · exact refl s
  · split
    · exact refl s
    · exact of_eq rfl rfl rfl rfl
  · exact of_eq rfl rfl rfl rfl
  · exact refl s

end Quiet

/-- A relation that every operation of the collector keeps. -/
structure Collects (R : State → State → Prop) : Prop where
  refl : ∀ s, R s s
  trans : ∀ {s t u}, R s t → R t u → R s u
  record : ∀ s f, R s { s with fault := f }
  event : ∀ s p b, R s (s.event p b)
  faultBit : ∀ s p b, R s (s.faultBit p b)
  bump : ∀ s p o, R s (s.bump p o)
  nextFree : ∀ s, R s s.nextFree
  latchIrq : ∀ s n, R s (s.latchIrq n)
  latchFatal : ∀ s, R s s.latchFatal
  logEntry : ∀ s l, R s { s with nv := { s.nv with logWait := l } }
  nvWrite : ∀ s a ws, R s (s.nvWrite a ws)
  ctrInvalid : ∀ s, R s { s with nv := { s.nv with ctrResult := 3, ctrDue := true } }
  ctrReported : ∀ s, R s { s with nv := { s.nv with ctrDue := false } }
  setOut : ∀ s j f, R s (s.setOut j f)
  setDom : ∀ s d f, R s (s.setDom d f)
  setPair : ∀ s p, R s { s with pair := p }
  setPort : ∀ s p f, R s (s.setPort p f)
  fence : ∀ s p b c q, R s (s.fence p b c q)

namespace Collects

variable {R : State → State → Prop} (h : Collects R)
include h

theorem foldl {α : Type} {f : State → α → State} (hf : ∀ u a, R u (f u a)) (l : List α) (s : State) :
    R s (l.foldl f s) := by
  induction l generalizing s with
  | nil => exact h.refl s
  | cons a l ih => exact h.trans (hf s a) (ih _)

theorem counted (s : State) (p o q b : Nat) : R s ((s.bump p o).event q b) := h.trans (h.bump _ _ _) (h.event _ _ _)

theorem storeRec (s : State) (r : FaultRec) : R s (s.storeRec r) := by
  have noted : R s (({ s with fault := { s.fault with rseq := (s.fault.rseq + 1) % 65536 } }.bump 0x03
    (0xA00 + 8 * r.cls)).event 0x03 0) := h.trans (h.record s _) (h.counted _ _ _ _ _)
  unfold State.storeRec; dsimp only
  split
  · exact h.trans noted (h.record _ _)
  · split
    · exact h.trans (h.trans noted (h.record _ _)) (h.counted _ _ _ _ _)
    · exact h.trans noted (h.record _ _)

theorem collectC (s : State) (e : Event) : R (s.faultBit e.page e.bit) (s.collectC e) := by
  unfold State.collectC; dsimp only
  split
  · exact h.bump _ _ _
  · exact h.trans (h.trans (h.storeRec _ _) (h.nextFree _)) (h.latchIrq _ _)

theorem logRecord (s : State) (r : FaultRec) : R s (s.logRecord r) := by
  unfold State.logRecord; dsimp only
  split
  · split
    · exact h.logEntry _ _
    · exact h.bump _ _ _
  · exact h.refl s

theorem nvIncrement (s : State) (a : Nat) : R s (s.nvIncrement a) := by
  unfold State.nvIncrement
  split
  · exact h.nvWrite _ _ _
  · exact h.nvWrite _ _ _
  · exact h.ctrInvalid s

theorem protectWrite (s : State) (m c a : Nat) : R s (s.protectWrite m c a) :=
  h.trans (h.trans (h.bump _ _ _) (h.faultBit _ _ _)) (h.collectC _ _)

theorem deviceCounter (s : State) (k : Nat) : R s (s.deviceCounter k) := by
  unfold State.deviceCounter; dsimp only
  split
  · split
    · exact h.protectWrite _ _ _ _
    · exact h.nvIncrement _ _
  · exact h.refl s

theorem castleRequest (s : State) (c : Nat) : R s (s.castleRequest c) := by
  unfold State.castleRequest
  split
  · exact h.refl s
  · split <;> exact h.setPair _ _

theorem fReaction (s : State) (id d : Nat) : R s (s.fReaction id d) := by
  unfold State.fReaction
  split
  · exact h.refl s
  · exact h.trans (h.trans (h.foldl (fun u j => h.setOut u j _) _ _) (h.setDom _ _ _)) (h.castleRequest _ _)

theorem fatal (s : State) (e : Event) (b : Bool) : R s (s.fatal e b) := by
  unfold State.fatal State.fReactions
  exact h.trans (h.trans (h.trans (h.trans (h.trans (h.storeRec _ _) (h.nextFree _)) (h.latchFatal _)) (h.logRecord _ _))
    (h.deviceCounter _ _)) (h.foldl (fun u d => h.fReaction u _ d) _ _)

theorem escalateExtra (s : State) (p b : Nat) : R s (s.escalateExtra p b) := by
  unfold State.escalateExtra
  split
  · exact h.setPort _ _ _
  · split
    · exact h.castleRequest _ _
    · exact h.refl s
  · exact h.refl s

theorem escalate (s : State) (e : Event) : R s (s.escalate e) :=
  h.trans (h.trans (h.counted _ _ _ _ _) (h.fatal _ _ _)) (h.escalateExtra _ _ _)

theorem check (s : State) (e : Event) : R s (s.check e) := by
  unfold State.check; dsimp only
  split
  · exact h.record s _
  · split
    · exact h.record s _
    · exact h.trans (h.counted _ _ _ _ _) (h.escalate _ _)

theorem collectU (s : State) (e : Event) : R (s.faultBit e.page e.bit) (s.collectU e) := by
  have recorded (u : State) (r : FaultRec) : R u (((u.storeRec r).nextFree).logRecord r) :=
    h.trans (h.trans (h.storeRec _ _) (h.nextFree _)) (h.logRecord _ _)
  unfold State.collectU; dsimp only
  split
  · exact h.trans (recorded _ _) (h.fence _ _ _ _ _)
  · split
    · exact recorded _ _
    · exact h.trans (recorded _ _) (h.check _ _)

theorem collectF (s : State) (e : Event) : R ((s.faultBit e.page e.bit).fatal e false) (s.collectF e) := by
  unfold State.collectF; dsimp only
  split
  · refine h.foldl (fun u i => ?_) _ _
    split
    · exact h.trans (h.record _ _) (h.escalate _ _)
    · exact h.refl u
  · exact h.refl _

theorem report (s : State) (e : Event) : R s (s.report e) := by
  unfold State.report; split
  · exact h.trans (h.faultBit _ _ _) (h.collectC _ _)
  · exact h.trans (h.faultBit _ _ _) (h.collectU _ _)
  · exact h.trans (h.trans (h.faultBit _ _ _) (h.fatal _ _ _)) (h.collectF _ _)
  · exact h.refl s

theorem nvDue (s : State) : R s s.nvDue := by
  unfold State.nvDue; split
  · exact h.trans (h.ctrReported s) (h.report _ _)
  · exact h.refl s

end Collects

namespace Stays

/-- A change of neither pages nor delivery. -/
theorem of_eq (hp : t.pages = s.pages) (hi : t.irq = s.irq) : Stays s t where
  toStands := by constructor <;> simp [State.page, hp, hi]
  moved := by rw [hi]

theorem refl (s : State) : Stays s s := of_eq rfl rfl

theorem trans (h : Stays s t) (g : Stays t u) : Stays s u where
  toStands := h.toStands.trans g.toStands
  moved := g.moved.trans h.moved

theorem faultBit (s : State) (p b : Nat) : Stays s (s.faultBit p b) where
  fault q i hi := by simp only [State.faultBit, State.setPage_page]; split <;> simp_all
  latched _ h := h
  fatalC h := h
  fatalG h := h
  insvcC := rfl
  insvcG := rfl
  moved := rfl

theorem latchIrq (s : State) (n : Nat) : Stays s (s.latchIrq n) where
  fault _ _ h := h
  latched m h := by
    unfold State.latchIrq; dsimp only
    split
    · exact h
    · rw [List.contains_iff_mem] at h ⊢
      simp only [List.mem_append, List.mem_filter, List.mem_singleton, decide_eq_true_eq]
      rcases Nat.lt_trichotomy m n with hlt | rfl | hgt
      · exact .inl (.inl ⟨h, hlt⟩)
      · exact .inl (.inr rfl)
      · exact .inr ⟨h, hgt⟩
  fatalC h := h
  fatalG h := h
  insvcC := rfl
  insvcG := rfl
  moved := rfl

theorem latchFatal (s : State) : Stays s s.latchFatal where
  fault _ _ h := h
  latched _ h := h
  fatalC _ := rfl
  fatalG _ := rfl
  insvcC := rfl
  insvcG := rfl
  moved := rfl

theorem nvWrite (s : State) (a : Nat) (l : List Nat) : Stays s (s.nvWrite a l) := by
  unfold State.nvWrite
  split
  · exact of_eq rfl rfl
  · exact refl s

/-- No operation of the collector takes anything back. -/
theorem collects : Collects Stays where
  refl := refl
  trans := trans
  record _ _ := of_eq rfl rfl
  event s p b := (Quiet.event s p b).stays
  faultBit := faultBit
  bump _ _ _ := of_eq rfl rfl
  nextFree _ := of_eq rfl rfl
  latchIrq := latchIrq
  latchFatal := latchFatal
  logEntry _ _ := of_eq rfl rfl
  nvWrite := nvWrite
  ctrInvalid _ := of_eq rfl rfl
  ctrReported _ := of_eq rfl rfl
  setOut _ _ _ := of_eq rfl rfl
  setDom _ _ _ := of_eq rfl rfl
  setPair _ _ := of_eq rfl rfl
  setPort _ _ _ := of_eq rfl rfl
  fence s p b c q := (Quiet.fence s p b c q).stays

theorem report (s : State) (e : Event) : Stays s (s.report e) := collects.report s e
theorem nvDue (s : State) : Stays s s.nvDue := collects.nvDue s

end Stays

end Sys2Proof.Safety

namespace Sys2Proof.Machine

open Safety

variable (s : State)

theorem getLsbD_word (n b : Nat) : (word n).getLsbD b = (decide (b < 32) && n.testBit b) := BitVec.getLsbD_ofNat 32 n b

/-- A source that reports sets its PAGE_FAULT bit. -/
theorem State.report_fault {e : Event} {p b : Nat} (hp : e.page = p) (hb : e.bit = b) (hbit : b < 32)
    (hclass : hasSource p b = true) : ((s.report e).page p).fault.getLsbD b = true := by
  subst hp hb
  have set_ : ((s.faultBit e.page e.bit).page e.page).fault.getLsbD e.bit = true := by
    simp only [State.faultBit, State.setPage_page_self, BitVec.getLsbD_or, getLsbD_word, Nat.testBit_two_pow_self]
    simp [hbit]
  unfold State.report
  split
  · exact (Stays.collects.collectC _ _).fault _ _ set_
  · exact (Stays.collects.collectU _ _).fault _ _ set_
  · exact ((Stays.collects.fatal _ _ _).trans (Stays.collects.collectF _ _)).fault _ _ set_
  case h_4 hnone => simp [hasSource, hnone] at hclass

/-- A source of class F raises FATAL on both targets. -/
theorem State.report_fatalStands {e : Event} (hclass : faultClass (pageKind e.page) e.page e.bit = some 2) :
    (s.report e).fatalStands = true := by
  have h := Stays.collects.collectF s e
  simp only [State.report, hclass]
  rw [State.fatalStands_iff]
  have raised := (s.faultBit e.page e.bit).fatal_fatalStands e false
  rw [State.fatalStands_iff] at raised
  exact ⟨h.fatalC raised.1, h.fatalG raised.2⟩

end Sys2Proof.Machine

namespace Sys2Proof.Stated

open Machine

/-- A meaning that ends in `w` completes with what every state shows that is `w` but for records and requests, and in
which stands what stood in `w`. -/
theorem completes_standing {s w : State} {c : Instr} {P : State → Prop} (he : exec c s = finish w)
    (hp : ∀ t, Safety.Kept w t → Safety.Stands w t → P t) : Completes c s P :=
  ⟨_, he.trans (finish_next w), hp _ ((Safety.Kept.nvDue w).trans (Safety.Kept.settle _ _))
    ((Safety.Stays.nvDue w).toStands.trans (Safety.Stands.settle _ _))⟩

end Sys2Proof.Stated
end

section
/-! PROOFS. Interrupt delivery (chapter 15): what a claim, a completion and a move leave in service, latched and moved
(R412, R413, R417). -/

namespace Sys2Proof.Safety

/-- The re-evaluation at the end of a command keeps a moved source whose own target sleeps (R417). -/
theorem moved_finished {s : Machine.State} {n : Nat} (hmoved : s.irq.moved.contains n = true)
    (hasleep : s.asleep (s.ownG n) = true) : (s.nvDue.settle false).irq.moved.contains n = true := by
  have hk := Kept.nvDue s
  have hstill : s.nvDue.asleep (s.nvDue.ownG n) = true := by
    simp only [Machine.State.asleep, Machine.State.ownG, Machine.State.srcCfg, Machine.State.msiMode, Machine.State.cfg,
      Machine.State.dir, hk.sys, hk.active, hk.direct] at hasleep ⊢
    exact hasleep
  have hm : n ∈ s.nvDue.irq.moved := by rw [(Stays.nvDue s).moved]; simpa using hmoved
  have hafter : (s.nvDue.settle false).irq.moved = s.nvDue.irq.moved.filter fun n =>
      (s.nvDue.irq.insvcC ++ s.nvDue.irq.insvcG).contains n || s.nvDue.asleep (s.nvDue.ownG n) := by
    unfold Machine.State.settle; dsimp only
    split <;> rfl
  rw [hafter, List.contains_iff_mem, List.mem_filter, hstill, Bool.or_true]
  exact ⟨hm, rfl⟩

end Sys2Proof.Safety

namespace Sys2Proof.Machine

variable (s : State)

/-- A claim by a host of an eligible source takes it into service on that host's target (R412). -/
theorem State.claim_takes {m : Nat} (hhost : m < 2) (hn : s.nextIrq (m == 1) ≠ 0) :
    s.claim m = (pack [(s.nextIrq (m == 1), 0), (s.prio (s.nextIrq (m == 1)), 8)],
      (s.setIrq fun q => q.take (m == 1) (s.nextIrq (m == 1))).bump irqPage (if m == 1 then 0xA08 else 0xA00)) := by
  unfold State.claim
  rw [if_neg (by omega)]
  exact if_neg hn

/-- A claim that finds nothing, or of another master, answers 0 and takes nothing (R412). -/
theorem State.claim_none {m : Nat} (h : 2 ≤ m ∨ s.nextIrq (m == 1) = 0) :
    (s.claim m).1 = 0 ∧ (s.claim m).2.irq = s.irq := by
  unfold State.claim
  split
  · exact ⟨rfl, rfl⟩
  · rw [if_pos (h.resolve_left ‹_›)]
    exact ⟨rfl, rfl⟩

theorem Irq.take_insvcC (q : Irq) (n : Nat) :
    (q.take false n).insvcC = q.insvcC ++ [n] ∧ (q.take false n).insvcG = q.insvcG := by
  unfold Irq.take; split <;> exact ⟨rfl, rfl⟩

theorem Irq.take_insvcG (q : Irq) (n : Nat) :
    (q.take true n).insvcG = q.insvcG ++ [n] ∧ (q.take true n).insvcC = q.insvcC := by
  unfold Irq.take; split <;> exact ⟨rfl, rfl⟩

theorem State.completeIrq_control {v : Word} (h : s.irq.insvcC.contains (bits v 7 0) = true) :
    (s.completeIrq 0 v).irq.insvcC = s.irq.insvcC.filter (· != bits v 7 0) ∧
      (s.completeIrq 0 v).irq.insvcG = s.irq.insvcG := by
  unfold State.completeIrq
  rw [if_pos ⟨rfl, h⟩, State.settle_insvcC, State.settle_insvcG]
  exact ⟨rfl, rfl⟩

theorem State.completeIrq_guardian {v : Word} (h : s.irq.insvcG.contains (bits v 7 0) = true) :
    (s.completeIrq 1 v).irq.insvcG = s.irq.insvcG.filter (· != bits v 7 0) ∧
      (s.completeIrq 1 v).irq.insvcC = s.irq.insvcC := by
  unfold State.completeIrq
  rw [if_neg (fun hm => absurd hm.1 (by decide)), if_pos ⟨rfl, h⟩]
  exact ⟨rfl, rfl⟩

/-- A number that is not in service on the master's target completes nothing (R413). -/
theorem State.completeIrq_bad {m : Nat} {v : Word}
    (h : (m = 0 ∧ s.irq.insvcC.contains (bits v 7 0) = false) ∨ (m = 1 ∧ s.irq.insvcG.contains (bits v 7 0) = false) ∨
      2 ≤ m) : s.completeIrq m v = s.badComplete := by
  unfold State.completeIrq
  dsimp only
  rcases h with ⟨rfl, hc⟩ | ⟨rfl, hg⟩ | hm
  · rw [if_neg fun h => Bool.noConfusion (hc.symm.trans h.2), if_neg fun h => absurd h.1 (by decide)]
  · rw [if_neg fun h => absurd h.1 (by decide), if_neg fun h => Bool.noConfusion (hg.symm.trans h.2)]
  · rw [if_neg (by omega), if_neg (by omega)]

theorem State.latchIrq_contains (n : Nat) : (s.latchIrq n).irq.latched.contains n = true := by
  unfold State.latchIrq; dsimp only
  split
  · assumption
  · simp

/-- SW_SET latches the source of each bit that is set (R409). -/
theorem State.swSet_latched {v : Word} {i : Nat} (hi : i < 8) (hv : bit v i = true) :
    (s.swSet v).irq.latched.contains (248 + i) = true := by
  have latches : ∀ (l : List Nat) (u : State), i ∈ l →
      (l.foldl (fun s i => s.latchIrq (248 + i)) u).irq.latched.contains (248 + i) = true := by
    intro l
    induction l with
    | nil => intro u h; exact absurd h List.not_mem_nil
    | cons j l ih =>
      intro u h
      rcases List.mem_cons.mp h with rfl | h
      · exact (Safety.Stays.collects.foldl (fun u j => Safety.Stays.latchIrq u (248 + j)) l _).latched _ (u.latchIrq_contains _)
      · exact ih _ h
  exact latches _ s (List.mem_filter.mpr ⟨List.mem_range.mpr hi, hv⟩)

end Sys2Proof.Machine

namespace Sys2Proof.Stated

open Machine

variable {s : State} {m : Master}

/-- What a state shows that a command is known to end in. -/
theorem kept_of_completes {c : Instr} {w : State} {P : State → Prop} (he : exec c s = finish w) (h : Completes c s P) :
    ∃ t, Safety.Kept w t ∧ P t := by
  obtain ⟨t, ht, hp⟩ := h
  obtain ⟨t', ht', hk⟩ := Safety.finish_kept w
  rw [he, ht'] at ht
  obtain rfl := Host.Outcome.next.inj ht
  exact ⟨_, hk, hp⟩

theorem exec_claim (ha : Answers s 0x04 m) : exec (.claim m) s =
    finish { (s.claim (masterCode m)).2 with
      sys := { (s.claim (masterCode m)).2.sys with reply := [(s.claim (masterCode m)).1] } } := by
  change finish (s.onRead 0x04 (masterCode m) _) = _
  rw [answers_read ha]

theorem exec_complete {v : Word} (hr : Ready s 0x04 m) :
    exec (.complete m v) s = finish (s.completeIrq (masterCode m) v) := by
  change finish (s.onWrite 0x04 (masterCode m) _) = _
  rw [ready_write hr]

theorem exec_swSet {v : Word} (hr : Ready s 0x04 m) : exec (.swSet m v) s = finish (s.swSet v) := by
  change finish (s.onWrite 0x04 (masterCode m) _) = _
  rw [ready_write hr]

theorem exec_tgtCtrl {v : Word} (hr : Ready s 0x04 m) : exec (.tgtCtrl m v) s = finish (s.writeTgt v) := by
  change finish (s.onWrite 0x04 (masterCode m) _) = _
  rw [ready_write hr]

end Sys2Proof.Stated
end

section
/-! PROOFS. The obligations on interrupt delivery (chapter 15). -/

namespace Sys2Proof.Settled

open Machine Stated

/-- Settles O39: a claim moves one number into service, a completion takes one out, and neither the NV report nor the
re-evaluation at the end of a command touches what is in service or latched. -/
theorem interruptCommandsTakeEffect : Obligations.InterruptCommandsTakeEffect := by
  unfold Obligations.InterruptCommandsTakeEffect
  intro v n m s k c g
  refine ⟨fun ha hm hc => ?claimControl, fun ha hm hg => ?claimGuardian, fun ha hnone => ?claimNone,
    fun hr => ⟨fun hm hin => ?completeControl, fun hm hin => ?completeGuardian, fun hbad => ?completeBad, ?swSet, ?tgtCtrl⟩,
    fun hmay => ?fallback⟩
  case claimControl =>
    refine completes_standing (exec_claim ha) fun t hk hs => ?_
    have hclaim := s.claim_takes (m := masterCode m) (by omega) (by simpa [hm] using hc)
    rw [hk.sys, hs.insvcC, hs.insvcG, hclaim]
    simp only [hm]
    exact ⟨rfl, (Irq.take_insvcC _ _).1, (Irq.take_insvcC _ _).2⟩
  case claimGuardian =>
    refine completes_standing (exec_claim ha) fun t hk hs => ?_
    have hclaim := s.claim_takes (m := masterCode m) (by omega) (by simpa [hm] using hg)
    rw [hk.sys, hs.insvcC, hs.insvcG, hclaim]
    simp only [hm]
    exact ⟨rfl, (Irq.take_insvcG _ _).1, (Irq.take_insvcG _ _).2⟩
  case claimNone =>
    refine completes_standing (exec_claim ha) fun t hk hs => ?_
    have hzero := s.claim_none (m := masterCode m) <| by
      rcases hnone with ⟨hm, hc⟩ | ⟨hm, hg⟩ | hm
      · exact .inr (by rw [hm]; exact hc)
      · exact .inr (by rw [hm]; exact hg)
      · exact .inl hm
    rw [hk.sys, hs.insvcC, hs.insvcG]
    exact ⟨by rw [← hzero.1], congrArg Irq.insvcC hzero.2, congrArg Irq.insvcG hzero.2⟩
  case completeControl =>
    refine completes_standing (exec_complete hr) fun t _ hs => ?_
    rw [hs.insvcC, hs.insvcG, hm]
    exact s.completeIrq_control hin
  case completeGuardian =>
    refine completes_standing (exec_complete hr) fun t _ hs => ?_
    rw [hs.insvcC, hs.insvcG, hm]
    exact s.completeIrq_guardian hin
  case completeBad =>
    refine completes_standing (exec_complete hr) fun t _ hs => ?_
    rw [hs.insvcC, hs.insvcG, s.completeIrq_bad hbad]
    exact ⟨rfl, rfl⟩
  case swSet =>
    exact completes_standing (exec_swSet hr) fun t _ hs i hi hv => hs.latched _ (s.swSet_latched hi hv)
  case tgtCtrl => exact does_of (exec_tgtCtrl hr) (Safety.Kept.settle _ _).same
  case fallback =>
    have hasleep : s.asleep (s.ownG n) = true := by
      unfold State.mayMove at hmay
      simp only [Bool.and_eq_true] at hmay
      exact hmay.1.1.2
    refine ⟨_, finish_next (s.moveIrq n), ?_⟩
    unfold State.moveIrq
    rw [if_pos hmay]
    exact Safety.moved_finished (by simp) hasleep

/-- An edge source of number 0, which no command latches, with a PRIO that its register does not hold. -/
def zeroLatched : State := { State.reset with
  irq := { State.reset.irq with latched := [5, 0, 6] }, active := [(0x4100, 3), (0x4114, 2), (0x4118, 1)] }

/-- Refutes O40: over all states a latched source of number 0 makes the choice forget what it has passed. The sources
5, 0 and 6 of PRIO 2, 3 and 1 are eligible, and 6 is taken. No command latches source 0, and its SRC_CFG holds no bits. -/
theorem not_claimTakesHighest : ¬ Obligations.ClaimTakesHighest := by
  unfold Obligations.ClaimTakesHighest
  intro h
  have hnext : zeroLatched.nextIrq false = 6 := by decide
  obtain ⟨_, _, _, hhighest⟩ := h false zeroLatched (by rw [hnext]; decide)
  rw [hnext] at hhighest
  exact absurd (hhighest 5 (by decide)) (by decide)

/-- Registers as after reset, but for SRC_CFG[1] in the active set. -/
def lowFatal : State := { State.reset with active := [(0x4104, 0)] }

/-- Refutes O53 in its clause on reading SRC_CFG[1]: a read shows the active copy, and a state may hold another value there
than the Reset value 0xF, which no write changes. -/
theorem not_sourcesHavePriorities : ¬ Obligations.SourcesHavePriorities := by
  unfold Obligations.SourcesHavePriorities
  intro h
  obtain ⟨_, _, _, hread, _⟩ := h .control false 0 0 lowFatal
  have ha : Answers lowFatal 0x04 .control := ⟨rfl, by decide, by decide, rfl⟩
  have he : exec (.snapshotRead .control 0x04 0x104) lowFatal =
      finish (lowFatal.setSys fun x => { x with reply := [0] }) := by
    have hr : lowFatal.regRead (masterCode .control) 0x04 0x104 = (0, lowFatal) := rfl
    rw [exec_snapshotRead, State.readAt_answers (page := 0x04) ha (by decide) (by decide)]
    exact congrArg finish (by rw [show ((0x04 : Fin 256) : Nat) = 0x04 from rfl, show ((0x104 : Fin 4096) : Nat) = 0x104 from rfl, hr])
  obtain ⟨t, hk, hreply⟩ := kept_of_completes he (hread ha rfl)
  rw [hk.sys] at hreply
  exact absurd hreply (by decide)

end Sys2Proof.Settled
end

section
/-! PROOFS. The first reactions of sources (R307, R425): the event that the collector takes names the same source, unless
a shared word redirects it, and the reactions of the blocks that a shared word belongs to make no record. -/

namespace Sys2Proof.Safety.Quiet

open Machine

variable (s : State)

theorem setSel (d : Nat) (f : Sel → Sel) : Quiet s (s.setSel d f) := setDom _ _ _

theorem domTo (d : Nat) (st : DState) : Quiet s (s.domTo d st) := by
  unfold State.domTo; split
  · exact refl s
  · exact (setDom _ _ _).andEvent

theorem acquire (d : Nat) (y : Int) : Quiet s (s.acquire d y) :=
  ((setDom _ _ _).trans (domTo _ _ _)).trans (setDom _ _ _)

theorem domReact (d b : Nat) : Quiet s (s.domReact d b) := by
  unfold State.domReact; dsimp only
  split
  · exact setDom _ _ _
  · split
    · have acquired (y f g) : Quiet s (((((s.setDom d f).rebuild d y).setDom d g).acquire d
          ((s.setDom d f).dom d).yout)) :=
        (((setDom _ _ _).trans (setSel _ _ _)).trans (setDom _ _ _)).trans (acquire _ _ _)
      split
      · exact (acquired _ _ _).andBump
      · exact acquired _ _ _
    · exact setDom _ _ _
  · exact setDom _ _ _
  · exact setDom _ _ _
  · exact setDom _ _ _
  · exact setSel _ _ _
  · exact setSel _ _ _
  · exact setSel _ _ _
  · exact refl s

theorem qualTo (i : Nat) (st : QState) (r : Nat) : Quiet s (s.qualTo i st r) := by
  unfold State.qualTo; dsimp only
  split
  · exact (setQual _ _ _).andBump
  · exact setQual _ _ _

theorem qualReact (i b : Nat) : Quiet s (s.qualReact i b) := by
  unfold State.qualReact
  split
  · split
    · exact refl s
    · exact setQual _ _ _
    · exact ((setQual _ _ _).trans (qualTo _ _ _ _)).trans (eventIf _ _ _ _)
  · split
    · exact setQual _ _ _
    · exact refl s

theorem setAligned (v : Bool) : Quiet s (s.setAligned v) := by
  unfold State.setAligned; exact (eventIf _ _ _ s).trans (setPair _ _)

theorem pairReact (b : Nat) : Quiet s (s.pairReact b) := by
  unfold State.pairReact; split
  · exact setPair _ _
  · exact (setAligned _ _).trans (setPair _ _)
  · exact (setAligned _ _).trans (setPair _ _)
  · exact setPair _ _
  · exact setPair _ _
  · exact refl s

theorem tsvcReact (b detail : Nat) : Quiet s (s.tsvcReact b detail) := by
  unfold State.tsvcReact; split
  · unfold State.ctrlWatchdog; dsimp only
    split
    · exact setSvc _ _
    · exact (setSvc _ _).trans ((setSvc _ _).andEvent)
  · split
    · exact setSvc _ _
    · exact refl s
  · split
    · exact of_eq rfl rfl rfl rfl
    · exact refl s
  · exact refl s

end Sys2Proof.Safety.Quiet

namespace Sys2Proof.Machine

open Safety

variable (s : State)

/-- A block that a shared word can belong to has its ECC source among its sources (R307). -/
theorem hasSource_eccBit {p b : Nat} (h : eccBit (pageKind p) = some b) : hasSource p b = true ∧ b < 32 := by
  unfold hasSource
  cases hk : pageKind p <;> rw [hk] at h <;> simp only [eccBit, Option.some.injEq, reduceCtorEq] at h <;> subst h <;>
    exact ⟨rfl, by decide⟩

/-- The owner of a shared word answers for it with its ECC source (R307). -/
theorem State.sharedUncorr_eccBit {w p b : Nat} (h : (s.sharedUncorr w).2 = some (p, b)) :
    eccBit (pageKind p) = some b := by
  have owned (o : Option Nat) (h : (o.bind fun p => (eccBit (pageKind p)).map fun b => (p, b)) = some (p, b)) :
      eccBit (pageKind p) = some b := by
    obtain ⟨q, _, hq⟩ := Option.bind_eq_some_iff.mp h
    obtain ⟨c, hc, hqc⟩ := Option.map_eq_some_iff.mp hq
    obtain ⟨rfl, rfl⟩ := Prod.mk.inj hqc
    exact hc
  unfold State.sharedUncorr at h
  dsimp only at h
  split at h
  · split at h
    · split at h
      · exact owned _ h
      · exact absurd h (by simp)
    · exact absurd h (by simp)
  · exact owned _ h

/-- The event as the collector takes it names the source that reported, but for a shared word that a block owns. -/
theorem State.react_source (e : Event) (h : e.forced = true ∨ ¬(pageKind e.page = .sched ∧ e.bit = 4)) :
    (s.react e).2.page = e.page ∧ (s.react e).2.bit = e.bit := by
  unfold State.react
  dsimp only
  split
  case h_11 hk =>
    split
    case h_3 hb =>
      rcases h with hf | hn
      · rw [if_pos hf]; exact ⟨rfl, rfl⟩
      · exact absurd ⟨hk, hb⟩ hn
    all_goals exact ⟨rfl, rfl⟩
  case h_1 => split <;> exact ⟨rfl, rfl⟩
  all_goals exact ⟨rfl, rfl⟩

/-- An uncorrectable shared word reports where its owner has the source, else as SCHED_SHARED_ECC_UNCORR (R307). -/
theorem State.react_shared {e : Event} (hp : e.page = 0x01) (hb : e.bit = 4) (hf : e.forced = false) :
    s.react e = ((s.sharedUncorr (e.detail % 65536)).1,
      match (s.sharedUncorr (e.detail % 65536)).2 with
      | some (q, b) => { e with page := q, bit := b, unit := unitOfBit q b, detail := 0 }
      | none => { e with detail := 0 }) := by
  have hk : pageKind e.page = .sched := by rw [hp]; rfl
  unfold State.react
  simp only [hk, hb, hf]
  cases (s.sharedUncorr (e.detail % 65536)).2 <;> rfl

/-- The reaction of a block to a lost word of its own makes no record. -/
theorem State.react_quiet {e : Event} (h : eccBit (pageKind e.page) = some e.bit) : Quiet s (s.react e).1 := by
  unfold State.react
  dsimp only
  cases hk : pageKind e.page <;> rw [hk] at h
  case tim =>
    dsimp only
    split
    · exact Quiet.setTim _ _ _
    · exact Quiet.refl s
  case harvest =>
    dsimp only
    split
    · exact Quiet.setHarvest _ _
    · exact Quiet.refl s
  case qual => exact Quiet.qualReact _ _ _
  case dom => exact Quiet.domReact _ _ _
  case time =>
    dsimp only
    split
    · exact Quiet.refl s
    · exact Quiet.setTdom _ _ _
  case pair => exact Quiet.pairReact _ _
  case tsvc =>
    have hreact : Quiet s (if e.forced = true ∧ e.bit = 3 then s else s.tsvcReact e.bit e.detail) := by
      split
      · exact Quiet.refl s
      · exact Quiet.tsvcReact _ _ _
    dsimp only
    split
    · exact hreact.trans (Quiet.setSvc _ _)
    · exact hreact
  all_goals exact absurd h (by simp [eccBit])

/-- What follows a report takes nothing back. -/
theorem State.afterReport_stays {e e' : Event} (h : e'.page ≠ e.page → eccBit (pageKind e'.page) = some e'.bit) :
    Stays s (s.afterReport e e') := by
  have redirected : Stays s (if e'.page ≠ e.page then (s.react { e' with detail := 0 }).1 else s) := by
    split
    case isTrue hne => exact (s.react_quiet (e := { e' with detail := 0 }) (h hne)).stays
    · exact Stays.refl s
  unfold State.afterReport
  dsimp only
  revert redirected
  generalize (if e'.page ≠ e.page then (s.react { e' with detail := 0 }).1 else s) = u
  intro redirected
  split
  · split
    · exact (redirected.trans (Quiet.setBoard u _).stays).trans (Stays.report _ _)
    · exact redirected
  · exact redirected

/-- A fault event sets the bit of the source as the collector takes it. -/
theorem State.detect_fault {e : Event} {p b : Nat} (hpage : (s.react e).2.page = p) (hbit : (s.react e).2.bit = b)
    (hb : b < 32) (hsource : hasSource p b = true) (hecc : p ≠ e.page → eccBit (pageKind p) = some b) :
    ((s.detect e).page p).fault.getLsbD b = true :=
  (((s.react e).1.report (s.react e).2).afterReport_stays (e := e) (e' := (s.react e).2) fun hne => by
    rw [hpage, hbit]; exact hecc (hpage ▸ hne)).fault _ _ (State.report_fault _ hpage hbit hb hsource)

/-- A source that reports sets its bit, and one of class F raises FATAL. -/
theorem State.detect_shows {e : Event} (hb : e.bit < 32) (hsource : hasSource e.page e.bit = true)
    (h : e.forced = true ∨ ¬(pageKind e.page = .sched ∧ e.bit = 4)) :
    ((s.detect e).page e.page).fault.getLsbD e.bit = true ∧
      (faultClass (pageKind e.page) e.page e.bit = some 2 → (s.detect e).irq.fatalC = true ∧ (s.detect e).irq.fatalG = true) := by
  obtain ⟨hpage, hbit⟩ := s.react_source e h
  refine ⟨s.detect_fault hpage hbit hb hsource fun hne => absurd rfl hne, fun hclass => ?_⟩
  have hafter := ((s.react e).1.report (s.react e).2).afterReport_stays (e := e) fun hne => absurd hpage hne
  have hstands := (s.react e).1.report_fatalStands (e := (s.react e).2) (by rw [hpage, hbit]; exact hclass)
  rw [State.fatalStands_iff] at hstands
  exact ⟨hafter.fatalC hstands.1, hafter.fatalG hstands.2⟩

/-- A lost shared word that a block owns sets that block's bit (R307). -/
theorem State.detect_owned {e : Event} (hp : e.page = 0x01) (hb : e.bit = 4) (hf : e.forced = false) {p b : Nat}
    (howner : (s.sharedUncorr (e.detail % 65536)).2 = some (p, b)) :
    ((s.detect e).page p).fault.getLsbD b = true := by
  have hreact := s.react_shared hp hb hf
  rw [howner] at hreact
  have hecc := s.sharedUncorr_eccBit howner
  obtain ⟨hsource, hlt⟩ := hasSource_eccBit hecc
  exact s.detect_fault (by rw [hreact]) (by rw [hreact]) hlt hsource fun _ => hecc

/-- A lost shared word that no block owns sets the bit of SCHED (R307). -/
theorem State.detect_unowned {e : Event} (hp : e.page = 0x01) (hb : e.bit = 4) (hf : e.forced = false)
    (hnone : (s.sharedUncorr (e.detail % 65536)).2 = none) : ((s.detect e).page 0x01).fault.getLsbD 4 = true := by
  have hreact := s.react_shared hp hb hf
  rw [hnone] at hreact
  exact s.detect_fault (by rw [hreact]; exact hp) (by rw [hreact]; exact hb) (by decide) (by decide)
    fun hne => absurd hp.symm hne

end Sys2Proof.Machine
end

section
/-! PROOFS. The collector's memory (R424 to R432): captures, queue and check slots. -/

namespace Sys2Proof.Machine

variable (s : State)

/-! ### Captures and the queue (R424, R428) -/

theorem displace_length {cls : Nat} {q t : List FaultRec} (h : displace cls q = some t) : t.length + 1 = q.length := by
  induction q generalizing t with
  | nil => exact absurd h (by simp [displace])
  | cons r q ih =>
    unfold displace at h
    split at h
    · obtain rfl := Option.some.inj h; rfl
    · obtain ⟨u, hu, rfl⟩ := Option.map_eq_some_iff.mp h
      rw [List.length_cons, List.length_cons, ih hu]

theorem FaultUnit.setCapture_capture (f : FaultUnit) (p q : Nat) (v : Option FaultRec) :
    (f.setCapture p v).capture q = if q = p then v else f.capture q := tget_tput

theorem pushRec_room {q : List FaultRec} {r : FaultRec} (h : q.length < 16) : pushRec q r = (q ++ [r], false) := if_pos h

/-- A record displaces another or is lost when the queue is full (R428). -/
theorem pushRec_length {q : List FaultRec} {r : FaultRec} (h : q.length ≤ 16) : (pushRec q r).1.length ≤ 16 := by
  have displaced {t : List FaultRec} {cls : Nat} (ht : displace cls q = some t) : (t ++ [r]).length ≤ 16 := by
    rw [List.length_append, List.length_singleton, displace_length ht]; exact h
  unfold pushRec
  split
  · simpa using ‹q.length < 16›
  · split
    · split
      · exact displaced ‹_›
      · split
        · exact displaced ‹_›
        · exact h
    · exact h

/-- The first record of a page fills its capture (R424). -/
theorem State.storeRec_first {r : FaultRec} (h : s.fault.capture r.page = none) : (s.storeRec r).fault =
    ({ s.fault with rseq := (s.fault.rseq + 1) % 65536 }).setCapture r.page (some r) := by
  have hf : ({ s.fault with rseq := (s.fault.rseq + 1) % 65536 } : FaultUnit).capture r.page = none := h
  simp only [State.storeRec, hf]

/-- A later record of a page goes to the queue (R424). -/
theorem State.storeRec_later {r c : FaultRec} (h : s.fault.capture r.page = some c) : (s.storeRec r).fault =
    { s.fault with
      rseq := (s.fault.rseq + 1) % 65536, queue := (pushRec s.fault.queue r).1
      queueOvf := s.fault.queueOvf || (pushRec s.fault.queue r).2 } := by
  have hf : ({ s.fault with rseq := (s.fault.rseq + 1) % 65536 } : FaultUnit).capture r.page = some c := h
  simp only [State.storeRec, hf]
  split <;> rfl

/-! ### Slots (R429, R430) -/

@[simp] theorem State.storeRec_slots (r : FaultRec) : (s.storeRec r).fault.slots = s.fault.slots := by
  cases h : s.fault.capture r.page with
  | none => rw [s.storeRec_first h]; rfl
  | some c => rw [s.storeRec_later h]

@[simp] theorem State.logRecord_fault (r : FaultRec) : (s.logRecord r).fault = s.fault := by
  unfold State.logRecord; dsimp only
  split
  · split <;> rfl
  · rfl

theorem FaultUnit.setSlot_slot (f : FaultUnit) (i j : Nat) (v : Option Slot) :
    (f.setSlot i v).slot j = if j = i then v else f.slot j := tget_tput

/-- A U event as it stands recorded, before its check (R422). -/
def State.recordU (s : State) (e : Event) : State :=
  (((s.faultBit e.page e.bit).storeRec ((s.faultBit e.page e.bit).mkRec e 1 false)).nextFree).logRecord
    ((s.faultBit e.page e.bit).mkRec e 1 false)

theorem State.recordU_slots (e : Event) : (s.recordU e).fault.slots = s.fault.slots := by simp [State.recordU]

theorem State.recordU_slot (e : Event) (i : Nat) : (s.recordU e).fault.slot i = s.fault.slot i := by
  simp [FaultUnit.slot, s.recordU_slots]

theorem State.recordU_slotOf (e : Event) (id : Nat) : (s.recordU e).fault.slotOf id = s.fault.slotOf id := by
  simp [FaultUnit.slotOf, s.recordU_slot]

theorem State.recordU_compat (e : Event) : (s.recordU e).fault.compat = s.fault.compat := (Safety.Kept.recordU s e).compat

theorem State.recordU_windowRounds (e : Event) (b : Bool) : (s.recordU e).windowRounds b = s.windowRounds b := by
  simp [State.windowRounds, State.checkMs, (Safety.Kept.recordU s e).cfg, State.recordU]

/-- A U source that escalates is recorded, then checked or fenced (R422, R436). -/
theorem State.report_checked {e : Event} (hclass : faultClass (pageKind e.page) e.page e.bit = some 1)
    (hesc : noEscalation e.page e.bit = false) : s.report e =
      if s.fault.compat = true then (s.recordU e).fence e.page e.bit e.ctx (e.pairs.headD 0) else (s.recordU e).check e := by
  have hrec : s.collectU e = if (s.recordU e).fault.compat = true
      then (s.recordU e).fence e.page e.bit e.ctx (e.pairs.headD 0)
      else if noEscalation e.page e.bit = true then s.recordU e else (s.recordU e).check e := rfl
  simp only [State.report, hclass, hrec, s.recordU_compat, hesc]
  rfl

/-- A U event whose identity a slot holds counts there (R429). -/
theorem State.check_repeats {e : Event} {i : Nat} (h : s.fault.slotOf (identity e.page e.bit e.unit) = some i) :
    (s.check e).fault = s.fault.setSlot i ((s.fault.slot i).map fun x => { x with
      repeats := if x.repeats < 15 then x.repeats + 1 else 15 }) := by
  unfold State.check
  unfold FaultUnit.slotOf at h
  dsimp only
  rw [h]

/-- The lowest free slot is the first that a search finds (R432). -/
theorem FaultUnit.find_free {f : FaultUnit} {i : Nat} (hi : i < 16) (hfree : f.slot i = none)
    (hlow : ∀ j < i, f.slot j ≠ none) : ((List.range 16).find? fun i => (f.slot i).isNone) = some i := by
  rw [List.find?_range_eq_some]
  refine ⟨by simp [hfree], List.mem_range.mpr hi, fun j hj => ?_⟩
  simpa [Option.isSome_iff_ne_none] using hlow j hj

/-- The slot that an event opens, with its window (R429). -/
def Event.opens (e : Event) (left : Nat) : Slot :=
  { page := e.page, bit := e.bit, unit := e.unit, detail := e.detail, pairs := e.pairs, repeats := 0, left }

/-- A U event that no slot holds takes the lowest free one (R429, R432). -/
theorem State.check_opens {e : Event} {i : Nat} (h : s.fault.slotOf (identity e.page e.bit e.unit) = none) (hi : i < 16)
    (hfree : s.fault.slot i = none) (hlow : ∀ j < i, s.fault.slot j ≠ none) :
    (s.check e).fault = s.fault.setSlot i (some (e.opens (s.windowRounds e.atBoundary))) := by
  unfold State.check
  unfold FaultUnit.slotOf at h
  dsimp only
  rw [h, FaultUnit.find_free hi hfree hlow]
  rfl

/-! ### Acknowledgement (R430) -/

theorem State.ack_matches {v : Word} {i : Nat} (hnative : s.fault.compat = false)
    (h : s.fault.slotOf (identityBits v.toNat) = some i) :
    s.ack v = (s.setFault fun f => f.setSlot i none).bump 0x03 0xA20 := by
  simp [State.ack, hnative, h, faultPage]

theorem State.ack_bad {v : Word} (hnative : s.fault.compat = false)
    (h : s.fault.slotOf (identityBits v.toNat) = none) : s.ack v = (s.bump 0x03 0xA28).event 0x03 2 := by
  simp [State.ack, hnative, h, faultPage]

theorem State.ack_ignored {v : Word} (h : s.fault.compat = true) : s.ack v = s := by simp [State.ack, h]

/-- U_ACK compares the bits of an identity alone (R430). -/
theorem identityBits_toNat (v : Word) : identityBits v.toNat = (v &&& 0xFF1FFF).toNat := by
  simp only [identityBits, BitVec.toNat_and]; rfl

end Sys2Proof.Machine

namespace Sys2Proof.Stated

open Machine

variable {s : State} {m : Master}

/-- With no NV report due, a command leaves what its meaning ends in, requests re-evaluated. -/
theorem completes_clear {c : Instr} {w : State} {P : State → Prop} (he : exec c s = finish w)
    (hd : w.nv.ctrDue = false) (hp : P (w.settle false)) : Completes c s P := ⟨_, he.trans (finish_clear _ hd), hp⟩

theorem exec_uAck {v : Word} (hr : Ready s 0x03 m) : exec (.uAck m v) s = finish (s.ack v) := by
  change finish (s.onWrite 0x03 (masterCode m) _) = _
  rw [ready_write hr]

theorem exec_recRelease {v : Word} (hr : Ready s 0x03 m) : exec (.recRelease m v) s = finish (s.release v) := by
  change finish (s.onWrite 0x03 (masterCode m) _) = _
  rw [ready_write hr]

theorem exec_pageForce {page : Fin 256} {v : Word} (hr : Ready s page m) (hk : pageKind page ≠ .none) :
    exec (.pageForce m page v) s = finish (s.force (masterCode m) 1 (page * 0x1000 + 0x018) page v) := by
  change finish (if pageKind page = .none then s else s.onWrite page (masterCode m) _) = _
  rw [if_neg hk, ready_write hr]

end Sys2Proof.Stated
end

section
/-! PROOFS. The obligations on the fault collector (chapter 16). -/

namespace Sys2Proof.Settled

open Machine Stated

/-- Settles O52: a record fills its page's capture or goes to the queue, which a full one displaces or loses. -/
theorem firstErrorIsCaptured : Obligations.FirstErrorIsCaptured := by
  unfold Obligations.FirstErrorIsCaptured
  intro r s t
  refine ⟨fun hnone => ?first, fun c hc => ?later, fun p hp => ?other, fun hlen => ?bounded, fun hsel => ?shown⟩
  case first =>
    rw [show t.fault = _ from s.storeRec_first hnone]
    exact ⟨by rw [FaultUnit.setCapture_capture, if_pos rfl], rfl⟩
  case later =>
    rw [show t.fault = _ from s.storeRec_later hc]
    exact ⟨hc, fun hroom => by rw [pushRec_room hroom]⟩
  case other =>
    cases hc : s.fault.capture r.page with
    | none => rw [show t.fault = _ from s.storeRec_first hc, FaultUnit.setCapture_capture, if_neg hp]; rfl
    | some c => rw [show t.fault = _ from s.storeRec_later hc]; rfl
  case bounded =>
    cases hc : s.fault.capture r.page with
    | none => rw [show t.fault = _ from s.storeRec_first hc]; exact hlen
    | some c => rw [show t.fault = _ from s.storeRec_later hc]; exact pushRec_length hlen
  case shown => simp only [State.shownRec, faultPage, hsel, if_true]

/-- Settles O55: the record of a U event leaves the slots alone, then its check takes one slot; fencing takes none. -/
theorem checkWindowsOpen : Obligations.CheckWindowsOpen := by
  unfold Obligations.CheckWindowsOpen
  intro e i x s t id fresh hclass hesc
  have hreport := s.report_checked hclass hesc
  refine ⟨fun hnative => ?native, fun hcompat j => ?compat⟩
  case native =>
    replace hreport : t = (s.recordU e).check e := by simpa [hnative] using hreport
    refine ⟨fun hnone hi hfree hlow => ?opens, fun hsome hx => ?repeats⟩
    case opens =>
      have hfault := (s.recordU e).check_opens (e := e) (i := i) ((s.recordU_slotOf e _).trans hnone) hi
        ((s.recordU_slot e i).trans hfree) fun j hj => by rw [s.recordU_slot]; exact hlow j hj
      rw [hreport, hfault, FaultUnit.setSlot_slot, if_pos rfl, s.recordU_windowRounds]
      exact ⟨rfl, fun j hj => by rw [FaultUnit.setSlot_slot, if_neg hj, s.recordU_slot]⟩
    case repeats =>
      have hfault := (s.recordU e).check_repeats (e := e) (i := i) ((s.recordU_slotOf e _).trans hsome)
      rw [hreport, hfault, FaultUnit.setSlot_slot, if_pos rfl, s.recordU_slot, hx, Option.map_some]
      congr 2
      split <;> omega
  case compat =>
    replace hreport : t = (s.recordU e).fence e.page e.bit e.ctx (e.pairs.headD 0) := by simpa [hcompat] using hreport
    rw [hreport, (Safety.Quiet.fence _ _ _ _ _).fault, s.recordU_slot]

/-- Settles O60: an acknowledgement is judged by its identity bits, frees its slot or is counted as bad, and makes no
record. -/
theorem acknowledgementsEndChecks : Obligations.AcknowledgementsEndChecks := by
  unfold Obligations.AcknowledgementsEndChecks
  intro m v s f acked hr hnative hdue
  refine ⟨fun w hw => ?bitsAlone, fun i hi => ?matched, fun hnone => ?bad, fun n hn => ?anyMaster⟩
  case bitsAlone => simp only [exec_uAck hr, State.ack, identityBits_toNat, hw]
  case matched =>
    have hack := s.ack_matches hnative (by rw [identityBits_toNat]; exact hi)
    refine completes_clear (exec_uAck hr) (by rw [hack]; exact hdue) ?_
    rw [hack]
    refine ⟨⟨?_, ?_, ?_⟩, ?_, fun j hj => ?_⟩
    · rw [State.settle_counter _ _ _ _ (by decide), State.bump_counter]; rfl
    · rw [State.settle_counter _ _ _ _ (by decide), State.bump_counter]; rfl
    · simp only [State.settle_fault, State.settle_fatalC, State.settle_fatalG]; exact ⟨rfl, rfl, rfl, rfl⟩
    · rw [State.settle_fault]; exact (FaultUnit.setSlot_slot _ _ _ _).trans (if_pos rfl)
    · rw [State.settle_fault]; exact (FaultUnit.setSlot_slot _ _ _ _).trans (if_neg hj)
  case bad =>
    have hack := s.ack_bad hnative (by rw [identityBits_toNat]; exact hnone)
    refine completes_clear (exec_uAck hr) (by rw [hack]; exact hdue) ?_
    rw [hack]
    refine ⟨⟨?_, ?_, ?_⟩, ?_, ?_⟩
    · rw [State.settle_counter _ _ _ _ (by decide), State.event_r_counter, State.bump_counter]; rfl
    · rw [State.settle_counter _ _ _ _ (by decide), State.event_r_counter, State.bump_counter]; rfl
    · simp only [State.settle_fault, State.settle_fatalC, State.settle_fatalG]; exact ⟨rfl, rfl, rfl, rfl⟩
    · rw [State.settle_fault]; rfl
    · simp [State.page, State.event, State.setPage, word]
  case anyMaster => rw [exec_uAck hr, exec_uAck hn]

end Sys2Proof.Settled
end

section
/-! PROOFS. Forced sources and the obligation on fault events (R408, R427, R431, R437). -/

namespace Sys2Proof.Machine

variable (s : State) {m access addr p : Nat}

/-- A source exists on a page of the map alone. -/
theorem pageKind_of_hasSource {b : Nat} (h : hasSource p b = true) : pageKind p ≠ .none := fun hk => by
  simp [hasSource, hk, faultClass] at h

theorem ite_ne_of_ne {α : Type} {c : Prop} [Decidable c] {a b x : α} (ha : a ≠ x) (hb : b ≠ x) :
    (if c then a else b) ≠ x := by split <;> assumption

/-- SCHED has one page (R390). -/
theorem page_of_sched (h : pageKind p = .sched) : p = 0x01 := by
  by_contra hp
  refine absurd h ?_
  unfold pageKind
  rw [if_neg hp]
  repeat' apply ite_ne_of_ne
  all_goals decide

/-- The bits of a word that has one bit set. -/
theorem filter_bit_word {b : Nat} (hb : b < 32) : ((List.range 32).filter fun i => bit (word (2 ^ b)) i) = [b] := by
  have hbit (i : Nat) (hi : i ∈ List.range 32) : bit (word (2 ^ b)) i = (i == b) := by
    rw [bit, getLsbD_word, Nat.testBit_two_pow, decide_eq_true (List.mem_range.mp hi), Bool.true_and, Bool.eq_iff_iff]
    simpa using eq_comm
  rw [List.filter_congr hbit, List.filter_beq, List.count_range]
  simp [hb]

/-- A word with one bit set forces that source, where force bits are accepted (R437). -/
theorem State.force_one {b : Nat} (hopen : s.forceOpen = true) (hb : b < 32) (hsource : hasSource p b = true) :
    s.force m access addr p (word (2 ^ b)) = s.detect {
      page := p, bit := b, unit := if namesCell p b then s.forcedCell else unitOfBit p b
      master := m, access, addr, forced := true } := by
  simp only [State.force, hopen, if_true, filter_bit_word hb, List.foldl_cons, List.foldl_nil, State.forceOne, hsource]

/-- Bits without a source force nothing. -/
theorem State.force_nothing {v : Word} (hopen : s.forceOpen = true)
    (hnone : ∀ k : Fin 32, bit v k = true → hasSource p k = false) : s.force m access addr p v = s := by
  simp only [State.force, hopen, if_true]
  refine List.foldlRecOn (motive := fun u => u = s) _ _ rfl fun u hu b hb => ?_
  obtain ⟨hlt, hbit⟩ := List.mem_filter.mp hb
  rw [State.forceOne, hnone ⟨b, List.mem_range.mp hlt⟩ hbit]
  exact hu

/-- Force bits that are not accepted are counted (R437). -/
theorem State.force_closed {v : Word} (h : s.forceOpen = false) :
    s.force m access addr p v = (s.bump faultPage 0xA58).event faultPage 5 := by simp [State.force, h]

theorem State.release_queue {v : Word} (hv : bit v 0 = true) (hsel : bit (s.dir 0x03 0x918) 8 = true) :
    s.release v = s.setFault fun f => { f with
      queue := f.queue.drop 1, queueOvf := f.queueOvf && decide (1 < f.queue.length) } := by
  simp [State.release, hv, faultPage, hsel]

theorem State.release_capture {v : Word} (hv : bit v 0 = true) (hsel : bit (s.dir 0x03 0x918) 8 = false) :
    s.release v = s.setFault fun f => f.setCapture (bits (s.dir 0x03 0x918) 7 0) none := by
  simp [State.release, hv, faultPage, hsel]

end Sys2Proof.Machine

namespace Sys2Proof.Stated

open Machine

variable {s : State} {page : Fin 256} {b : Fin 32} {unit : Fin 256} {detail : Word}

/-- The event of FAULT_EVENT. -/
def outside (page : Fin 256) (b : Fin 32) (unit : Fin 256) (detail : Word) : Event :=
  { page, bit := b, detail := detail.toNat, unit := if namesCell page b then unit.val % 32 else unitOfBit page b }

theorem exec_faultEvent (hrel : s.boot.released = true) (hsource : hasSource page b = true) :
    exec (.faultEvent page b unit detail) s = finish (s.detect (outside page b unit detail)) := by
  change finish (if s.boot.released = false ∨ hasSource page b = false then s else _) = _
  rw [if_neg (by simp [hrel, hsource])]
  rfl

/-- What stands when a command ends with a fault event. -/
theorem completes_shows {c : Instr} {w : State} {P : Prop} (he : exec c s = finish w)
    (hfault : (w.page page).fault.getLsbD b = true) (hfatal : P → w.irq.fatalC = true ∧ w.irq.fatalG = true) :
    Completes c s fun t => (t.page page).fault.getLsbD b = true ∧ (P → t.irq.fatalC = true ∧ t.irq.fatalG = true) :=
  completes_standing he fun _ _ hs =>
    ⟨hs.fault _ _ hfault, fun h => ⟨hs.fatalC (hfatal h).1, hs.fatalG (hfatal h).2⟩⟩

end Sys2Proof.Stated

namespace Sys2Proof.Settled

open Machine Stated

/-- Settles O41: the report sets the bit of the source as the collector takes the event, and neither what follows it nor
the end of the command takes that back. -/
theorem faultEventsTakeEffect : Obligations.FaultEventsTakeEffect := by
  unfold Obligations.FaultEventsTakeEffect
  intro m page b unit i detail v s cls sel shows
  refine ⟨fun hsource => ⟨fun hrel hnot => ?reported, fun hr hopen => ?forced⟩, fun hrel hp hb => ?shared,
    fun hnot => ?nothing, fun hclosed hr => ?closed, fun hopen hr hnone => ?sourceless, fun x hx => ?windowEnds,
    fun hr => ⟨fun hnative hslot hdue => ?acknowledged, fun hbad => ?notAcknowledged,
      fun hv hdue => ⟨fun hsel => ?fromQueue, fun hsel => ?fromCapture⟩⟩⟩
  case reported =>
    have hkind : ¬(pageKind page = .sched ∧ b.val = 4) := fun h => hnot ⟨page_of_sched h.1, h.2⟩
    have hdetect := s.detect_shows (e := outside page b unit detail) b.isLt hsource (.inr hkind)
    exact completes_shows (exec_faultEvent hrel hsource) hdetect.1 hdetect.2
  case forced =>
    have hforce := s.force_one (m := masterCode m) (access := 1) (addr := page * 0x1000 + 0x018) hopen b.isLt hsource
    have hdetect := s.detect_shows (e := {
      page := page, bit := b, unit := if namesCell page b then s.forcedCell else unitOfBit page b
      master := masterCode m, access := 1, addr := page * 0x1000 + 0x018, forced := true }) b.isLt hsource (.inl rfl)
    exact completes_shows ((exec_pageForce hr (pageKind_of_hasSource hsource)).trans (congrArg finish hforce))
      hdetect.1 hdetect.2
  case shared =>
    intro r
    have hsource : hasSource page b = true := by rw [hp, hb]; decide
    have hclass : cls ≠ some 2 := by simp only [cls, hp, hb]; decide
    refine completes_standing (exec_faultEvent hrel hsource) fun t _ hs => ⟨fun hr => ⟨?_, fun h => absurd h hclass⟩,
      fun p k hr => ?_⟩
    · rw [hp, hb]
      exact hs.fault _ _ (s.detect_unowned (e := outside page b unit detail) hp hb rfl hr)
    · exact hs.fault _ _ (s.detect_owned (e := outside page b unit detail) hp hb rfl hr)
  case nothing => exact does_of (congrArg finish (if_pos hnot)) (Safety.Same.refl _)
  case closed =>
    by_cases hk : pageKind page = .none
    · exact does_of (congrArg finish (if_pos hk)) (Safety.Same.refl _)
    · refine does_of (exec_pageForce hr hk) ?_
      rw [s.force_closed hclosed]
      exact ((Safety.Kept.bump _ _ _).trans (Safety.Kept.event _ _ _)).same
  case sourceless =>
    by_cases hk : pageKind page = .none
    · exact does_of (congrArg finish (if_pos hk)) (Safety.Same.refl _)
    · exact does_of ((exec_pageForce hr hk).trans (congrArg finish (s.force_nothing hopen hnone))) (Safety.Same.refl _)
  case windowEnds =>
    have hend : (s.windowEnd i).fatalStands = true := by
      simp only [State.windowEnd, hx]
      exact State.escalate_fatalStands _ _
    exact completes_fatal (c := .checkWindowEnd i) rfl hend fun t _ hf => t.fatalStands_iff.mp hf
  case acknowledged =>
    have hack := s.ack_matches hnative hslot
    refine completes_clear (exec_uAck hr) (by rw [hack]; exact hdue) ?_
    rw [hack, State.settle_fault]
    exact ⟨(FaultUnit.setSlot_slot _ _ _ _).trans (if_pos rfl), fun j hj =>
      (FaultUnit.setSlot_slot _ _ _ _).trans (if_neg fun h => hj (Fin.ext h))⟩
  case notAcknowledged =>
    refine does_of (exec_uAck hr) ?_
    by_cases hcompat : s.fault.compat = true
    · rw [s.ack_ignored hcompat]; exact Safety.Same.refl _
    · have hnative : s.fault.compat = false := by simpa using hcompat
      rw [s.ack_bad hnative (hbad.resolve_right hcompat)]
      exact ((Safety.Kept.bump _ _ _).trans (Safety.Kept.event _ _ _)).same
  case fromQueue =>
    have hrelease := s.release_queue hv hsel
    refine completes_clear (exec_recRelease hr) (by rw [hrelease]; exact hdue) ?_
    rw [hrelease, State.settle_fault]
    rfl
  case fromCapture =>
    have hrelease := s.release_capture hv hsel
    refine completes_clear (exec_recRelease hr) (by rw [hrelease]; exact hdue) ?_
    rw [hrelease, State.settle_fault]
    exact (FaultUnit.setCapture_capture _ _ _ _).trans (if_pos rfl)

end Sys2Proof.Settled
end

section
/-! PROOFS. Commands that wait and commands that are refused (R400, R401): both touch the common registers of their page
alone. -/

namespace Sys2Proof.Stated

open Machine

variable {s t : State} {m : Master} {p : Nat}

/-- What a command that waits for its boundary does when it is issued. -/
def Submits (c : Instr) (s : State) (m : Master) (p : Nat) : Prop :=
  ∃ (code : Nat) (arg : State → Word) (ck : State → Checks),
    exec c s = finish (s.onWrite p (masterCode m) fun u => u.submit p (masterCode m) code (arg u) (ck u))

/-- Issued, such a command touches its page alone. -/
theorem Submits.same {c : Instr} (h : Submits c s m p) (hr : Ready s p m) (ht : exec c s = .next t) :
    Safety.Same s t [p] := by
  obtain ⟨code, arg, ck, he⟩ := h
  obtain ⟨t', ht', hk⟩ := Safety.finish_kept (s.submit p (masterCode m) code (arg s) (ck s))
  rw [he, ready_write hr, ht'] at ht
  obtain rfl := Host.Outcome.next.inj ht
  exact (submit_same p (masterCode m) code (arg s) (ck s)).trans hk.same

section
variable {c : Instr} {code : Nat}

theorem submits_stamp {k : Nat} (he : exec c s = finish (s.stampCommand k m code)) : Submits c s m (stampPage k) :=
  ⟨code, _, _, he⟩

theorem submits_qual {i : Nat} (he : exec c s = finish (s.qualCommand i m code)) : Submits c s m (qualPage i) :=
  ⟨code, _, fun u => u.qualChecks i code false, he⟩

theorem submits_sel {d : Nat} (he : exec c s = finish (s.selCommand d m code)) : Submits c s m (domPage d) :=
  ⟨code, _, _, he⟩

theorem submits_dom {d : Nat} (he : exec c s = finish (s.domCommand d m code)) : Submits c s m (domPage d) :=
  ⟨code, _, _, he⟩

theorem submits_syn {k : Nat} (he : exec c s = finish (s.synCommand k m code)) : Submits c s m (synPage k) :=
  ⟨code, _, _, he⟩

theorem submits_out {j : Nat} (he : exec c s = finish (s.outCommand j m code)) : Submits c s m (outPage j) :=
  ⟨code, _, _, he⟩

theorem submits_tim {i : Nat} (he : exec c s = finish (s.timCommand i m code)) : Submits c s m (0xC0 + i) :=
  ⟨code, _, _, he⟩

theorem submits_fault (he : exec c s = finish (s.faultCommand (masterCode m) code)) : Submits c s m 0x03 :=
  ⟨code, _, _, he⟩

theorem submits_cell (he : exec c s = finish (s.cellCommand m code)) : Submits c s m 0xC8 := ⟨code, _, _, he⟩

theorem submits_ports (he : exec c s = finish (s.portCommand m code)) : Submits c s m 0x0C := ⟨code, _, _, he⟩

/-- Of the TIME commands TIME_REARM alone is a two-party command. -/
theorem submits_time (hcode : code ≠ 2) (he : exec c s = finish (s.timeCommand m code)) : Submits c s m 0x09 :=
  ⟨code, fun u => u.arg 0x09 (masterCode m), fun u => u.timeChecks code (u.arg 0x09 (masterCode m)), by
    simpa only [State.timeCommand, if_neg hcode] using he⟩

/-- Of the PAIR commands BIND and UNBIND are two-party commands. -/
theorem submits_pair (hcode : ¬(code = 1 ∨ code = 2)) (he : exec c s = finish (s.pairCommand m code)) :
    Submits c s m 0x07 :=
  ⟨code, fun u => u.arg 0x07 (masterCode m), fun u => u.pairChecks code [], by
    simpa only [State.pairCommand, pairPage, if_neg hcode] using he⟩

/-- Of the BUDGET commands WAKE acts at once. -/
theorem submits_budget (hcode : code ≠ 2) (he : exec c s = finish (s.budgetCommand (masterCode m) code)) :
    Submits c s m 0x02 :=
  ⟨code, fun u => u.arg 0x02 (masterCode m), fun u => u.budgetChecks code, by
    simpa only [State.budgetCommand, budPage, if_neg hcode] using he⟩

/-- Of the TSVC commands KEY_INSTALL clears KEY_DATA when it is refused. -/
theorem submits_tsvc (hcode : code ≠ 1) (he : exec c s = finish (s.tsvcCommand m code)) : Submits c s m 0x0B :=
  ⟨code, fun u => u.arg 0x0B (masterCode m), fun u => u.tsvcChecks code (u.arg 0x0B (masterCode m)) false, by
    simpa only [State.tsvcCommand, tsvcPage, hcode, false_and, if_false] using he⟩

end

end Sys2Proof.Stated

namespace Sys2Proof.Machine

variable (s : State) {p m code r : Nat}

/-! ### Refusals (R401) -/

theorem State.noteRefusal_page (q : Nat) : ∃ w, (s.noteRefusal p code).page q = { s.page q with event := w } ∧
    (q = p → w.getLsbD (pageKind p).refusedBit = true) := by
  have hlt : (pageKind p).refusedBit < 32 := by cases pageKind p <;> decide
  have hset (w : Word) : (w ||| word (2 ^ (pageKind p).refusedBit)).getLsbD (pageKind p).refusedBit = true := by
    rw [BitVec.getLsbD_or, getLsbD_word, decide_eq_true hlt, Nat.testBit_two_pow_self]
    exact Bool.or_true _
  unfold State.noteRefusal
  dsimp only
  by_cases hq : q = p
  · subst hq
    split
    · refine ⟨_, by simp only [State.event, State.setPage_page_self]; rfl, fun _ => ?_⟩
      rw [BitVec.getLsbD_or, hset, Bool.true_or]
    · exact ⟨_, by simp only [State.event, State.setPage_page_self]; rfl, fun _ => hset _⟩
  · refine ⟨(s.page q).event, ?_, fun h => absurd h hq⟩
    split <;> simp only [State.event, State.setPage_page, if_neg hq] <;> rfl

theorem State.noteRefusal_counter (q o : Nat) : (s.noteRefusal p code).counter q o =
    (s.bump p (pageKind p).refusals).counter q o := by
  unfold State.noteRefusal; dsimp only
  split <;> rfl

/-- What a refusal leaves on its page beside events: the answer. -/
theorem State.refuse_page (q : Nat) : ∃ w, (s.refuse p m code r).page q =
    { (s.answer p m code r false).page q with event := w } ∧ (q = p → w.getLsbD (pageKind p).refusedBit = true) :=
  State.noteRefusal_page _ q

theorem State.answer_pend (fin : Bool) : ((s.answer p m code r fin).page p).pend = (s.page p).pend := by
  rw [s.answer_page]; rfl

theorem State.answer_status_other (fin : Bool) {k : Nat} (h : k ≠ m) :
    (s.answer p m code r fin).cmdStatus p k = s.cmdStatus p k := by
  unfold State.cmdStatus
  rw [s.answer_page]
  exact tget_tput_other h

end Sys2Proof.Machine
end

section
/-! PROOFS. The obligations on waiting and refused commands. -/

namespace Sys2Proof.Settled

open Machine Stated

/-- Settles O54: the checks are looked at in the order of R401; a refusal answers, counts and raises one event. -/
theorem refusalsChangeNothing : Obligations.RefusalsChangeNothing := by
  unfold Obligations.RefusalsChangeNothing
  intro p m code arg c s t
  refine ⟨?order, ?argument, ?busy, ?lock, ?role, ?party, fun hrefused => ?frame⟩
  case order =>
    rw [Checks.result_eq_zero]
    constructor
    · obtain ⟨a, b, l, r, y, x⟩ := c
      rintro ⟨rfl, rfl, rfl, rfl, rfl, rfl⟩
      rfl
    · rintro rfl
      exact ⟨rfl, rfl, rfl, rfl, rfl, rfl⟩
  case argument => exact fun ha => by simp [Checks.result, ha]
  case busy => exact fun ha hb => by simp [Checks.result, ha, hb]
  case lock => exact fun ha hb hl => by simp [Checks.result, ha, hb, hl]
  case role => exact fun ha hb hl hr => by simp [Checks.result, ha, hb, hl, hr]
  case party => exact fun ha hb hl hr hp => by simp [Checks.result, ha, hb, hl, hr, hp]
  case frame =>
    have ht : t = s.refuse p m code c.result := s.submit_refuses hrefused
    obtain ⟨w, hpage, hevent⟩ := s.refuse_page (p := p) (m := m) (code := code) (r := c.result) p
    have hstatus (k : Nat) : (s.refuse p m code c.result).cmdStatus p k =
        (s.answer p m code c.result false).cmdStatus p k := by
      unfold State.cmdStatus; rw [hpage]
    rw [ht]
    refine ⟨refuse_same _ _ _ _, ?_, (hstatus m).trans (s.answer_status _ _ _ _ _), fun k hk =>
      (hstatus k).trans (s.answer_status_other false hk), ?_, ?_⟩
    · rw [hpage]; exact s.answer_pend false
    · rw [State.refuse, State.noteRefusal_counter, State.bump_counter, if_pos rfl]; rfl
    · rw [hpage]; exact hevent rfl

/-- Settles O57: each of these commands is one `submit` on its page. -/
theorem waitingCommandsFrame : Obligations.WaitingCommandsFrame := by
  unfold Obligations.WaitingCommandsFrame
  intro m ch i d k j p s t keeps
  have submitted {c : Instr} {p : Nat} (h : Submits c s m p) : keeps c p := fun hr ht => h.same hr ht
  refine ⟨?stamp, ?qual, ?dom, ?syn, ?out, ?tim, submitted (submits_time (by decide) rfl),
    submitted (submits_pair (by decide) rfl), submitted (submits_budget (by decide) rfl), submitted (submits_fault rfl),
    submitted (submits_fault rfl), submitted (submits_fault rfl), submitted (submits_cell rfl),
    submitted (submits_cell rfl), submitted (submits_tsvc (by decide) rfl), submitted (submits_tsvc (by decide) rfl),
    submitted (submits_tsvc (by decide) rfl), submitted (submits_tsvc (by decide) rfl), submitted (submits_ports rfl)⟩
  all_goals
    intro c hc
    simp only [List.mem_cons, List.not_mem_nil, or_false] at hc
  case stamp => rcases hc with rfl | rfl | rfl | rfl | rfl | rfl <;> exact submitted (submits_stamp rfl)
  case qual => rcases hc with rfl | rfl | rfl | rfl | rfl | rfl <;> exact submitted (submits_qual rfl)
  case dom =>
    rcases hc with h | h | h | h | h | h | hc
    case inr.inr.inr.inr.inr.inr =>
      rcases hc with rfl | rfl | rfl | rfl | rfl | rfl | rfl <;> exact submitted (submits_dom rfl)
    all_goals subst h; exact submitted (submits_sel rfl)
  case syn => rcases hc with rfl | rfl <;> exact submitted (submits_syn rfl)
  case out => rcases hc with rfl | rfl | rfl <;> exact submitted (submits_out rfl)
  case tim => rcases hc with rfl | rfl | rfl <;> exact submitted (submits_tim rfl)

end Sys2Proof.Settled
end

section
/-! PROOFS. What records do to the NV unit (R457 to R459): they program the store, which keeps its form, and let counters
and log entries wait; nothing else of the unit changes. -/

namespace Sys2Proof.Safety

open Machine

/-- The NV unit but for the store, the counter that could not count, the entries that wait and the words in flight. -/
def nvRest (v : NvUnit) : NvUnit :=
  { v with mem := [], bad := [], ctrDue := false, ctrResult := 0, logWait := [], flight := [] }

/-- What records may do to the NV unit. -/
structure Logged (s t : State) : Prop where
  rest : nvRest t.nv = nvRest s.nv
  form : twf (fun _ => (0 : BitVec 8)) s.nv.mem = true → twf (fun _ => (0 : BitVec 8)) t.nv.mem = true

namespace Logged

variable {s t u : State}

theorem of_nv (h : t.nv = s.nv) : Logged s t := ⟨by rw [h], by rw [h]; exact id⟩
theorem refl (s : State) : Logged s s := of_nv rfl
theorem trans (h : Logged s t) (g : Logged t u) : Logged s u := ⟨g.rest.trans h.rest, fun hm => g.form (h.form hm)⟩

theorem lastUncorr (h : Logged s t) : t.nv.lastUncorr = s.nv.lastUncorr := by
  simpa [nvRest] using congrArg NvUnit.lastUncorr h.rest
theorem holdupOk (h : Logged s t) : t.nv.holdupOk = s.nv.holdupOk := by
  simpa [nvRest] using congrArg NvUnit.holdupOk h.rest

theorem nvWrite (s : State) (a : Nat) (ws : List Nat) : Logged s (s.nvWrite a ws) := by
  unfold State.nvWrite
  split
  · exact ⟨rfl, wf_setNvWords ws⟩
  · exact refl s

/-- No operation of the collector does more to the NV unit. -/
theorem collects : Collects Logged where
  refl := refl
  trans := trans
  record _ _ := of_nv rfl
  event _ _ _ := of_nv rfl
  faultBit _ _ _ := of_nv rfl
  bump _ _ _ := of_nv rfl
  nextFree _ := of_nv rfl
  latchIrq _ _ := of_nv rfl
  latchFatal _ := of_nv rfl
  logEntry _ _ := ⟨rfl, id⟩
  nvWrite := nvWrite
  ctrInvalid _ := ⟨rfl, id⟩
  ctrReported _ := ⟨rfl, id⟩
  setOut _ _ _ := of_nv rfl
  setDom _ _ _ := of_nv rfl
  setPair _ _ := of_nv rfl
  setPort _ _ _ := of_nv rfl
  fence s p b c q := of_nv (Quiet.fence s p b c q).nv

theorem report (s : State) (e : Event) : Logged s (s.report e) := collects.report s e

/-- The end of a command. -/
theorem finished (s : State) : Logged s (s.nvDue.settle false) :=
  (collects.nvDue s).trans (of_nv (State.settle_nv _ _))

end Logged

end Sys2Proof.Safety

namespace Sys2Proof.Machine

open Safety

variable (s : State)

/-! ### Counters (R456, R457) -/

theorem nvCopyWords_length (v : Nat) : (nvCopyWords v).length = 3 := rfl

/-- A word outside the words written reads as before. -/
theorem nvWord_setNvWords_other {m : List Host.Cell} {a b : Nat} (l : List Nat) (h : b + 4 ≤ a ∨ a + 4 * l.length ≤ b) :
    nvWord (setNvWords m a l) b = nvWord m b := by
  unfold nvWord
  rw [nvByte_setNvWords_other l (by omega), nvByte_setNvWords_other l (by omega), nvByte_setNvWords_other l (by omega),
    nvByte_setNvWords_other l (by omega)]

/-- The words written read back. -/
theorem nvWord_setNvWords {m : List Host.Cell} {a : Nat} (l : List Nat) (hl : ∀ w ∈ l, w < 2 ^ 32) {i w : Nat}
    (hi : l[i]? = some w) : nvWord (setNvWords m a l) (a + 4 * i) = w := by
  induction l generalizing m a i with
  | nil => exact absurd hi (by simp)
  | cons x l ih =>
    cases i with
    | zero =>
      obtain rfl : x = w := by simpa using hi
      rw [setNvWords, Nat.mul_zero, Nat.add_zero, nvWord_setNvWords_other l (.inl (by omega))]
      exact nvWord_setNvWord (hl x (by simp))
    | succ i =>
      rw [setNvWords, show a + 4 * (i + 1) = a + 4 + 4 * i by omega]
      exact ih (fun w hw => hl w (by simp [hw])) (by simpa using hi)

theorem nvCopyWords_lt (v : Nat) : ∀ w ∈ nvCopyWords v, w < 2 ^ 32 := by
  intro w hw
  simp only [nvCopyWords, List.mem_cons, List.not_mem_nil, or_false] at hw
  rcases hw with rfl | rfl | rfl <;> omega

/-- The store with a counter's copy written, and its bad words readable again. -/
def NvUnit.withCopy (v : NvUnit) (a n : Nat) : NvUnit :=
  { v with
    mem := setNvWords v.mem a (nvCopyWords n)
    bad := v.bad.filter fun w => decide (w < a) || decide (a + 12 ≤ w) }

section
variable (v : NvUnit) {a b n : Nat}

/-- A copy just written holds its value and is valid (R456). -/
theorem NvUnit.withCopy_self (hn : n < 2 ^ 64) (ha : a % 4 = 0) (hbad : ∀ x ∈ v.bad, x % 4 = 0) :
    (v.withCopy a n).copyValue a = n ∧ (v.withCopy a n).copyValid a = true := by
  have word (i w : Nat) (hi : (nvCopyWords n)[i]? = some w) : nvWord (v.withCopy a n).mem (a + 4 * i) = w :=
    nvWord_setNvWords _ (nvCopyWords_lt n) hi
  have hlo := word 0 _ rfl
  have hhi := word 1 _ rfl
  have hchk := word 2 _ rfl
  simp only [Nat.mul_zero, Nat.mul_one, Nat.add_zero, show 4 * 2 = 8 from rfl] at hlo hhi hchk
  have hgood : (v.withCopy a n).badIn a 12 = false := by
    simp only [NvUnit.badIn, List.any_eq_false, NvUnit.withCopy, List.mem_filter]
    rintro x ⟨hx, hout⟩
    have hx4 := hbad x hx
    simp only [Bool.or_eq_true, decide_eq_true_eq] at hout
    simp only [Bool.and_eq_true, decide_eq_true_eq]
    omega
  refine ⟨?_, ?_⟩
  · unfold NvUnit.copyValue
    rw [hlo, hhi]
    omega
  · unfold NvUnit.copyValid
    rw [hlo, hhi, hchk, hgood]
    simp

/-- The other copy keeps its value, and its validity. -/
theorem NvUnit.withCopy_other (hsep : b + 12 ≤ a ∨ a + 12 ≤ b) (hvalid : v.copyValid b = true) :
    (v.withCopy a n).copyValue b = v.copyValue b ∧ (v.withCopy a n).copyValid b = true := by
  have word (i : Nat) (hi : i < 3) : nvWord (v.withCopy a n).mem (b + 4 * i) = nvWord v.mem (b + 4 * i) :=
    nvWord_setNvWords_other _ (by rw [nvCopyWords_length]; omega)
  have hlo := word 0 (by decide)
  have hhi := word 1 (by decide)
  have hchk := word 2 (by decide)
  simp only [Nat.mul_zero, Nat.mul_one, Nat.add_zero, show 4 * 2 = 8 from rfl] at hlo hhi hchk
  unfold NvUnit.copyValid at hvalid ⊢
  rw [Bool.and_eq_true, Bool.not_eq_true'] at hvalid
  refine ⟨by unfold NvUnit.copyValue; rw [hlo, hhi], ?_⟩
  rw [hlo, hhi, hchk, hvalid.1, Bool.true_and, Bool.not_eq_true']
  have hgood := hvalid.2
  simp only [NvUnit.badIn, List.any_eq_false] at hgood ⊢
  exact fun x hx => hgood x (List.mem_of_mem_filter hx)

end

theorem State.nvWrite_copy {a n : Nat} (h : s.nvWritable = true) :
    (s.nvWrite a (nvCopyWords n)).nv = { s.nv.withCopy a n with flight := (s.nvWrite a (nvCopyWords n)).nv.flight } := by
  simp only [State.nvWrite, h, if_true]
  rfl

end Sys2Proof.Machine
end

section
/-! PROOFS. How LOG_APPEND behaves (R459): an equation per case. -/

namespace Sys2Proof.Machine

variable (s : State)

/-- The log slot that takes the next entry. -/
def State.logIndex : Nat := if s.logSlots = 0 then 0 else s.nv.logSlot % s.logSlots

/-- The byte address of that slot. -/
def State.logAt : Nat := s.logBase + 32 * s.logIndex

/-- The oldest entry is taken from those that wait, which leaves `l`. -/
def State.logTaken (l : List FaultRec) : State := s.setNv fun n => { n with logWait := l }

/-- The event of a ring that begins again is raised. -/
def State.logStarted (l : List FaultRec) : State :=
  (s.logTaken l).eventIf (s.logIndex == 0 && (s.logSlotSeq 0).isSome) 0x05 1

/-- The entry is written: sequence number, record, commit word. -/
def State.logWritten (r : FaultRec) (l : List FaultRec) : State :=
  (((s.logStarted l).nvWrite (s.logAt + 20) [s.nv.logSeq]).nvWrite s.logAt r.words).nvWrite (s.logAt + 24)
    [0, 0xFFFFFFFF - s.nv.logSeq]

theorem State.kept_logStarted (l : List FaultRec) : Safety.Kept s (s.logStarted l) := by
  have htaken : Safety.Kept s (s.logTaken l) := Safety.Kept.of_fields rfl
  unfold State.logStarted State.eventIf
  split
  · exact htaken.trans (Safety.Kept.event _ _ _)
  · exact htaken

theorem State.kept_logWritten (r : FaultRec) (l : List FaultRec) : Safety.Kept s (s.logWritten r l) :=
  (((s.kept_logStarted l).trans
    (Safety.Kept.nvWrite _ _ _)).trans (Safety.Kept.nvWrite _ _ _)).trans (Safety.Kept.nvWrite _ _ _)

theorem State.logAppend_idle (h : s.nv.logWait = []) : s.logAppend = s := by simp [State.logAppend, h]

theorem State.logAppend_waits {r : FaultRec} {l : List FaultRec} (h : s.nv.logWait = r :: l) : s.logAppend =
    if s.logOk = false ∨ s.nvWritable = false then (s.logTaken l).bump 0x05 0xA20
    else if s.nvProtected s.logAt then ((s.logTaken l).bump 0x05 0xA20).protectWrite 3 7 0
    else ((s.logWritten r l).setNv fun n =>
      { n with logSlot := (s.logIndex + 1) % s.logSlots, logSeq := (s.nv.logSeq + 1) % 2 ^ 32 }).bump 0x05 0xA18 := by
  have hslots : (s.logWritten r l).logSlots = s.logSlots := congrArg (bits · 15 0) ((s.kept_logWritten r l).cfg 5 8)
  rw [← hslots]
  unfold State.logAppend
  simp only [h]
  rfl

end Sys2Proof.Machine
end

section
/-! PROOFS. The window and the commands of the NV store (R451, R452, R457, R461). -/

namespace Sys2Proof.Safety

open Machine

/-- The store keeps its canonical form. -/
def Formed (s t : State) : Prop := Memory.wf s.nv.mem = true → Memory.wf t.nv.mem = true

namespace Formed

variable {s t u : State}

theorem of_mem (h : t.nv.mem = s.nv.mem) : Formed s t := fun hm => h ▸ hm
theorem refl (s : State) : Formed s s := id
theorem trans (h : Formed s t) (g : Formed t u) : Formed s u := fun hm => g (h hm)

theorem of_logged (h : Logged s t) : Formed s t := h.form

/-- What follows leaves the store alone. -/
theorem same_mem (h : Formed s t) (hu : u.nv.mem = t.nv.mem) : Formed s u := h.trans (of_mem hu)

theorem tpDenied (s : State) : Formed s s.tpDenied := of_mem rfl

theorem access (s : State) (m : Nat) : Formed s (s.access m) := by
  unfold State.access
  split
  · exact refl s
  · exact of_mem (congrArg NvUnit.mem (State.collectC_nv _ _))

/-- A write that may not reach its page leaves the store as it is. -/
theorem onWrite (p m : Nat) {f : State → State} (hf : ∀ u, Formed u (f u)) (s : State) : Formed s (s.onWrite p m f) := by
  unfold State.onWrite
  split
  · exact refl s
  · split
    · exact tpDenied s
    · split
      · exact (access s m).trans (hf _)
      · exact access s m

theorem refuse (s : State) (p m code r : Nat) : Formed s (s.refuse p m code r) := by
  unfold State.refuse State.noteRefusal
  dsimp only
  split <;> exact of_mem rfl

/-- A command that acts at once keeps the form that its effect keeps. -/
theorem immediate (s : State) (p m code : Nat) (ck : Checks) {f : State → State} (hf : ∀ u, Formed u (f u)) :
    Formed s (s.immediate p m code ck f) := by
  unfold State.immediate
  split
  · exact (of_mem (t := s.answer p m code 0 true) rfl).trans (hf _)
  · exact refuse s p m code _

theorem writeWin (s : State) (m w : Nat) (v : Word) : Formed s (s.writeWin m w v) := by
  unfold State.writeWin
  dsimp only
  split
  · exact of_logged (Logged.collects.protectWrite s _ _ _)
  · exact (of_logged (Logged.nvWrite s _ _)).same_mem rfl

theorem countRead (s : State) : Formed s s.countRead := by
  unfold State.countRead
  dsimp only
  split
  · exact (of_mem (t := s.setNv fun n => { n with ctrResult := 3 }) rfl).trans (of_logged (Logged.report _ _))
  · exact of_mem rfl

theorem nvEffect (code : Nat) (s : State) : Formed s (State.nvEffect code s) := by
  unfold State.nvEffect
  dsimp only
  split
  · exact (of_logged ((Logged.nvWrite s _ _).trans (Logged.nvWrite _ _ _))).same_mem rfl
  · exact (of_logged (Logged.collects.nvIncrement s _)).same_mem rfl
  · exact (countRead s).same_mem rfl
  · exact of_mem rfl
  · exact of_mem rfl

theorem nvCommand {code : Nat} (hcode : code ≠ 4) (s : State) (m : Nat) : Formed s (s.nvCommand m code) := by
  unfold State.nvCommand
  simp only [hcode, if_false]
  exact (of_mem (t := s.nvSettled) rfl).trans (onWrite _ _ (fun u => immediate u _ _ _ _ (nvEffect code)) _)

theorem logAppend (s : State) : Formed s s.logAppend := by
  cases hwait : s.nv.logWait with
  | nil => rw [s.logAppend_idle hwait]; exact refl s
  | cons r l =>
    rw [s.logAppend_waits hwait]
    split
    · exact of_mem rfl
    · split
      · exact (of_mem (t := (s.logTaken l).bump 0x05 0xA20) rfl).trans (of_logged (Logged.collects.protectWrite _ _ _ _))
      · exact (of_mem (t := s.logStarted l) (congrArg NvUnit.mem (Quiet.eventIf _ _ _ _).nv)).trans
          
          ((of_logged (((Logged.nvWrite _ _ _).trans (Logged.nvWrite _ _ _)).trans (Logged.nvWrite _ _ _))).same_mem rfl)

theorem runHours (s : State) : Formed s (if s.budget.pstate.runs then s.deviceCounter 1 else s) := by
  split
  · exact of_logged (Logged.collects.deviceCounter s 1)
  · exact refl s

theorem finished {c : Instr} {w : State} (h : exec c s = finish w) (hw : Formed s w) (ht : exec c s = .next t) :
    Formed s t := by
  rw [h] at ht
  obtain rfl := Host.Outcome.next.inj ht
  exact hw.trans (Logged.finished w).form

end Formed

end Sys2Proof.Safety

namespace Sys2Proof.Machine

variable (s : State)

/-- A word of the window lies in the selected page (R452). -/
theorem State.winAddr_inPage (w : Fin 32) :
    128 * bits (s.dir 0x05 0x914) 11 0 ≤ s.winAddr w ∧ s.winAddr w + 4 ≤ 128 * (bits (s.dir 0x05 0x914) 11 0 + 1) := by
  unfold State.winAddr nvPage
  have := w.isLt
  omega

/-- A word that is not at a DW address names no register (R381). -/
theorem targetOf_unaligned (page : Fin 256) {off : Nat} (h : off % 4 ≠ 0) : targetOf (regAddr page off) = .nothing := by
  unfold targetOf regAddr
  rw [if_pos (by omega)]

/-- The words after the direct controls are no registers to write: counters and what a write beyond the window reaches
(R452). -/
theorem State.writeAt_beyond {m : Master} {page : Fin 256} {off : Fin 4096} {v : Word} (hr : Stated.Ready s page m)
    (hoff : 0xA00 ≤ off.val) : s.writeAt (masterCode m) (regAddr page off) v = s := by
  by_cases h4 : off.val % 4 = 0
  · rw [State.writeAt_ready hr off.isLt h4 (.inl (by omega))]
    by_cases hk : pageKind page = .none
    · exact s.regWrite_absent hk
    · rw [s.regWrite_area hk h4 (by omega) (isGuarded_eq_false (by omega) (by omega) (by omega) (by omega)),
        if_neg (by omega), if_neg (by omega), if_neg (by omega), if_neg (by omega), if_neg (by omega), if_neg (by omega)]
  · obtain ⟨hreleased, haccess, -, hstaged⟩ := hr
    simp [State.writeAt, hreleased, haccess, targetOf_unaligned page h4, State.answers, Target.page,
      s.access_clean hstaged]

section
variable {v : NvUnit} {a : Nat}

theorem NvUnit.ctrCopy_eq_one (hA : v.copyValid a = true)
    (hB : v.copyValid (a + 12) = true → v.copyValue (a + 12) ≤ v.copyValue a) : v.ctrCopy a = 1 := by
  unfold NvUnit.ctrCopy
  cases h : v.copyValid (a + 12) <;> simp_all

theorem NvUnit.ctrCopy_eq_two (hB : v.copyValid (a + 12) = true)
    (hA : v.copyValid a = true → v.copyValue a < v.copyValue (a + 12)) : v.ctrCopy a = 2 := by
  unfold NvUnit.ctrCopy
  cases h : v.copyValid a <;> simp_all

/-- The copy in use is valid (R457). -/
theorem NvUnit.ctrCopy_cases (v : NvUnit) (a : Nat) : (v.ctrCopy a = 1 ∧ v.copyValid a = true) ∨
    (v.ctrCopy a = 2 ∧ v.copyValid (a + 12) = true) ∨ v.ctrCopy a = 3 := by
  unfold NvUnit.ctrCopy
  dsimp only
  split
  case isTrue h => exact .inl ⟨rfl, (Bool.and_eq_true_iff.mp h).1⟩
  case isFalse =>
    split
    case isTrue h => exact .inr (.inl ⟨rfl, h⟩)
    case isFalse => exact .inr (.inr rfl)

/-- Where a copy lies: A first. -/
def copyAt (a c : Nat) : Nat := if c = 1 then a else a + 12

theorem NvUnit.ctrValue_eq (h : v.ctrCopy a ≠ 3) : v.ctrValue a = v.copyValue (copyAt a (v.ctrCopy a)) := by
  rcases v.ctrCopy_cases a with ⟨h', -⟩ | ⟨h', -⟩ | h'
  · simp [NvUnit.ctrValue, copyAt, h']
  · simp [NvUnit.ctrValue, copyAt, h']
  · exact absurd h' h

end

/-- An increment writes the value and one more into the copy that is not in use (R457). -/
theorem State.nvIncrement_writes {a : Nat} (h : s.nv.ctrCopy a ≠ 3) : s.nvIncrement a =
    s.nvWrite (copyAt a (3 - s.nv.ctrCopy a)) (nvCopyWords ((s.nv.ctrValue a + 1) % 2 ^ 64)) := by
  unfold State.nvIncrement
  rcases s.nv.ctrCopy_cases a with ⟨h', -⟩ | ⟨h', -⟩ | h'
  · simp [h', copyAt]
  · simp [h', copyAt]
  · exact absurd h' h

/-- With the new value in the copy that was not in use, that copy holds the counter (R457). -/
theorem NvUnit.ctrCopy_withCopy {v : NvUnit} {a : Nat} (ha : a % 4 = 0) (hbad : ∀ x ∈ v.bad, x % 4 = 0)
    (hvalid : v.ctrCopy a ≠ 3) (hroom : v.ctrValue a + 1 < 2 ^ 64) :
    (v.withCopy (copyAt a (3 - v.ctrCopy a)) (v.ctrValue a + 1)).ctrCopy a = 3 - v.ctrCopy a := by
  rw [NvUnit.ctrValue_eq hvalid] at hroom ⊢
  rcases v.ctrCopy_cases a with ⟨hone, hA⟩ | ⟨htwo, hB⟩ | hnone
  · simp only [hone, copyAt, if_true, if_neg (show ¬(3 - 1 : Nat) = 1 by decide)] at hroom ⊢
    obtain ⟨hkept, -⟩ := v.withCopy_other (a := a + 12) (n := v.copyValue a + 1) (.inl (Nat.le_refl _)) hA
    obtain ⟨hnew, hnewValid⟩ := v.withCopy_self (a := a + 12) hroom (by omega) hbad
    exact NvUnit.ctrCopy_eq_two hnewValid fun _ => by omega
  · simp only [htwo, copyAt, if_neg (show ¬(2 : Nat) = 1 by decide), show 3 - 2 = 1 from rfl, if_true] at hroom ⊢
    obtain ⟨hkept, -⟩ := v.withCopy_other (a := a) (n := v.copyValue (a + 12) + 1) (.inr (Nat.le_refl _)) hB
    obtain ⟨hnew, hnewValid⟩ := v.withCopy_self hroom ha hbad
    exact NvUnit.ctrCopy_eq_one hnewValid fun _ => by omega
  · exact absurd hnone hvalid

theorem State.nvIncrement_counts {a : Nat} (hw : s.nvWritable = true) (ha : a % 4 = 0) (hbad : ∀ x ∈ s.nv.bad, x % 4 = 0)
    (hvalid : s.nv.ctrCopy a ≠ 3) (hroom : s.nv.ctrValue a + 1 < 2 ^ 64) :
    (s.nvIncrement a).nv.ctrValue a = s.nv.ctrValue a + 1 ∧ (s.nvIncrement a).nv.ctrCopy a = 3 - s.nv.ctrCopy a := by
  have hcopy := NvUnit.ctrCopy_withCopy ha hbad hvalid hroom
  have hother : 3 - s.nv.ctrCopy a ≠ 3 := by
    rcases s.nv.ctrCopy_cases a with ⟨h, -⟩ | ⟨h, -⟩ | h <;> omega
  have hat : copyAt a (3 - s.nv.ctrCopy a) % 4 = 0 := by unfold copyAt; split <;> omega
  rw [s.nvIncrement_writes hvalid, Nat.mod_eq_of_lt hroom, s.nvWrite_copy hw]
  refine ⟨?_, hcopy⟩
  calc _ = (s.nv.withCopy (copyAt a (3 - s.nv.ctrCopy a)) (s.nv.ctrValue a + 1)).ctrValue a := rfl
    _ = s.nv.ctrValue a + 1 := by
      rw [NvUnit.ctrValue_eq (fun h => hother (hcopy.symm.trans h)), hcopy]
      exact (s.nv.withCopy_self hroom hat hbad).1

end Sys2Proof.Machine
end

section
/-! PROOFS. The obligations on the window and the form of the store. -/

namespace Sys2Proof.Settled

open Machine Stated

/-- Settles O51: a window word is one of 32 in its page, and no register lies beyond the window. -/
theorem nvWindowEndsAtItsPage : Obligations.NvWindowEndsAtItsPage := by
  unfold Obligations.NvWindowEndsAtItsPage
  intro m off v w s page
  obtain ⟨hlo, hhi⟩ := s.winAddr_inPage w
  refine ⟨hlo, hhi, fun hoff hr hdue => ?beyond⟩
  case beyond =>
    refine completes_clear (w := s) (exec_registerWrite.trans ?_) hdue ⟨(Safety.Kept.settle s _).same, ?_, ?_⟩
    · rw [show regAddr 0x05 off = regAddr (0x05 : Fin 256) off from rfl, s.writeAt_beyond hr hoff]
    · exact State.settle_nv _ _
    · simp [State.page]

/-- Settles O59: an increment writes the copy that is not in use, and no writer leaves the canonical form. -/
theorem nvCountersCount : Obligations.NvCountersCount := by
  unfold Obligations.NvCountersCount
  intro a m w v s
  refine ⟨fun hw ha hbad hvalid hroom => s.nvIncrement_counts hw ha hbad hvalid hroom, fun hform c hc t ht => ?form⟩
  case form =>
    simp only [List.mem_cons, List.not_mem_nil, or_false] at hc
    rcases hc with rfl | rfl | rfl | rfl | rfl | rfl
    · exact Safety.Formed.finished rfl (Safety.Formed.onWrite _ _ (fun u => Safety.Formed.writeWin u _ _ _) s) ht hform
    · exact Safety.Formed.finished rfl (Safety.Formed.nvCommand (by decide) s _) ht hform
    · exact Safety.Formed.finished rfl (Safety.Formed.nvCommand (by decide) s _) ht hform
    · exact Safety.Formed.finished rfl (Safety.Formed.nvCommand (by decide) s _) ht hform
    · exact Safety.Formed.finished rfl (Safety.Formed.logAppend s) ht hform
    · exact Safety.Formed.finished rfl (Safety.Formed.runHours s) ht hform

end Sys2Proof.Settled
end

section
/-! PROOFS. What the commands, the log and the events of the NV store leave (R451 to R466). -/

namespace Sys2Proof.Machine

variable (s : State) {m : Nat} {v : Word}

/-! ### What is written where -/

@[simp] theorem State.nvWrite_ctrDue (a : Nat) (ws : List Nat) : (s.nvWrite a ws).nv.ctrDue = s.nv.ctrDue := by
  unfold State.nvWrite; split <;> rfl

@[simp] theorem State.nvWrite_logWait (a : Nat) (ws : List Nat) : (s.nvWrite a ws).nv.logWait = s.nv.logWait := by
  unfold State.nvWrite; split <;> rfl

@[simp] theorem State.nvWrite_nvWritable (a : Nat) (ws : List Nat) : (s.nvWrite a ws).nvWritable = s.nvWritable := by
  unfold State.nvWrite State.nvWritable; split <;> rfl

theorem State.nvWrite_closed {a : Nat} {ws : List Nat} (h : s.nvWritable = false) : s.nvWrite a ws = s := by
  simp [State.nvWrite, h]

/-- A window write to an open block programs its word, and the device holds it no longer in flight. -/
theorem State.writeWin_open {w : Nat} (h : s.nvProtected (s.winAddr w) = false) :
    s.writeWin m w v = (s.nvWrite (s.winAddr w) [v.toNat]).setNv fun n =>
      { n with flight := s.nv.flight.filter fun p => p.1 != s.winAddr w } := by simp [State.writeWin, h]

/-- A window write to a protected block is only reported (R460). -/
theorem State.writeWin_protected {w : Nat} (h : s.nvProtected (s.winAddr w) = true) : (s.writeWin m w v).nv = s.nv := by
  simp [State.writeWin, h, State.protectWrite]

/-- With one copy of the two in use, the value and one more goes to the other. -/
theorem State.nvIncrement_first {a : Nat} (h : s.nv.ctrCopy a = 1) :
    s.nvIncrement a = s.nvWrite (a + 12) (nvCopyWords ((s.nv.copyValue a + 1) % 2 ^ 64)) := by
  rw [s.nvIncrement_writes (by omega), NvUnit.ctrValue_eq (by omega), h]
  rfl

theorem State.nvIncrement_second {a : Nat} (h : s.nv.ctrCopy a = 2) :
    s.nvIncrement a = s.nvWrite a (nvCopyWords ((s.nv.copyValue (a + 12) + 1) % 2 ^ 64)) := by
  rw [s.nvIncrement_writes (by omega), NvUnit.ctrValue_eq (by omega), h]
  rfl

/-- A device counter in an open block counts while counting is enabled (R458). -/
theorem State.deviceCounter_counts {k : Nat} (hen : bit (s.cfg 0x05 0) 2 = true)
    (hopen : s.nvProtected (bits (s.cfg 0x05 0xC) 18 0 + 32 * k) = false) :
    s.deviceCounter k = s.nvIncrement (bits (s.cfg 0x05 0xC) 18 0 + 32 * k) := by simp [State.deviceCounter, hen, hopen]

theorem State.countRead_valid (h : s.nv.ctrCopy s.ctrAddr ≠ 3) : s.countRead.nv.ctrDue = s.nv.ctrDue ∧
    s.countRead.nv.ctrVal = s.nv.copyValue (copyAt s.ctrAddr (s.nv.ctrCopy s.ctrAddr)) := by
  simp only [State.countRead, if_neg h, ← NvUnit.ctrValue_eq h]
  exact ⟨rfl, rfl⟩

/-- An entry of the log in a ring that takes it. -/
theorem State.logWritten_nv (hw : s.nvWritable = true) (r : FaultRec) (l : List FaultRec) :
    (s.logWritten r l).nv.mem = setNvWords (setNvWords (setNvWords s.nv.mem (s.logAt + 20) [s.nv.logSeq]) s.logAt r.words)
      (s.logAt + 24) [0, 0xFFFFFFFF - s.nv.logSeq] ∧ (s.logWritten r l).nv.logWait = l ∧
      (s.logWritten r l).nv.ctrDue = s.nv.ctrDue := by
  have hstart : (s.logStarted l).nv = (s.logTaken l).nv := (Safety.Quiet.eventIf _ _ _ _).nv
  have hopen : (s.logStarted l).nvWritable = true := (congrArg (fun n : NvUnit => n.holdupOk && !n.readOnly) hstart).trans hw
  refine ⟨?_, ?_, ?_⟩
  · unfold State.logWritten
    rw [State.nvWrite_mem _ (by simpa using hopen), State.nvWrite_mem _ (by simpa using hopen), State.nvWrite_mem _ hopen,
      hstart]
    rfl
  · simp only [State.logWritten, State.nvWrite_logWait, hstart]; rfl
  · simp only [State.logWritten, State.nvWrite_ctrDue, hstart]; rfl

/-! ### Commands -/

/-- What an NV command does beyond its answer touches the store, counts and reports. -/
theorem State.kept_nvEffect (code : Nat) : Safety.Kept s (State.nvEffect code s) := by
  have counted : Safety.Kept s s.countRead := by
    unfold State.countRead
    dsimp only
    split
    · exact (Safety.Kept.of_fields rfl).trans
        (Safety.Kept.collectU _ { page := 0x05, bit := 3 } (fun _ => rfl) (fun _ => rfl) (fun _ => rfl))
    · exact Safety.Kept.of_fields rfl
  have cleared : Safety.Kept s (s.setNv fun n => { n with logSlot := 0 }) := Safety.Kept.of_fields rfl
  unfold State.nvEffect
  dsimp only
  split
  · exact ((Safety.Kept.nvWrite _ _ _).trans (Safety.Kept.nvWrite _ _ _)).trans (Safety.Kept.event _ _ _)
  · exact (Safety.Kept.nvIncrement _ _).trans (Safety.Kept.event _ _ _)
  · exact counted.trans (Safety.Kept.event _ _ _)
  · exact cleared.trans (Safety.Kept.event _ _ _)
  · exact Safety.Kept.event _ _ _

theorem State.nvEffect_init : (State.nvEffect 1 s).nv =
    ((s.nvWrite s.ctrAddr (nvCopyWords 0)).nvWrite (s.ctrAddr + 12) (nvCopyWords 0)).nv := rfl

theorem State.nvEffect_inc : (State.nvEffect 2 s).nv = (s.nvIncrement s.ctrAddr).nv := rfl

theorem State.nvEffect_read : (State.nvEffect 3 s).nv = s.countRead.nv := rfl

theorem State.nvEffect_logClear : (State.nvEffect 5 s).nv = { s.nv with logSlot := 0 } := rfl

theorem NvUnit.ctrDue_mask (n : NvUnit) (x : Nat) : ({ n with bp := x } : NvUnit).ctrDue = n.ctrDue := rfl

theorem State.setProtect_nv (data : List Word) : (State.setProtect data s).nv =
    { s.nv with bp := ((data[0]?).getD 0).toNat + ((data[1]?).getD 0).toNat * 2 ^ 32 } := rfl

theorem State.kept_setProtect (data : List Word) : Safety.Kept s (State.setProtect data s) :=
  Safety.Kept.trans (Safety.Kept.trans (Safety.Kept.of_fields rfl) (Safety.Kept.event _ 0x05 2)) (Safety.Kept.event _ 0x05 0)

/-- A countersigned two-party command that does not wait acts at once, with the words that its proposal captured. -/
theorem State.twoParty_countersigned {s : State} {p code : Nat} {w : Master} {arg : Word} {ck : Checks}
    {words data : List Word} {f : List Word → State → State} (hck : ck.result = 0)
    (h : Stated.Countersigns s p w code arg data) : s.twoParty p (masterCode w) code arg ck words false f =
      f data (((s.setPage p fun g => { g with prop := none }).bump 0x06 0xA00).answer p (masterCode w) code 0 true) := by
  obtain ⟨q, hprop, -, -, -, rfl⟩ := h.1
  simp [State.twoParty, hprop, Stated.partyChecks_countersign hck h]

end Sys2Proof.Machine

namespace Sys2Proof.Stated

open Machine

variable {s : State} {m : Master}

/-- An NV command that is not refused answers and acts at once, on what the one before it wrote. -/
theorem exec_nvCommand {c : Instr} {code : Nat} (he : exec c s = finish (s.nvCommand (masterCode m) code))
    (hcode : code ≠ 4) (hr : Ready s 0x05 m) (hck : (s.nvChecks code).result = 0) :
    exec c s = finish (State.nvEffect code (s.nvSettled.answer 0x05 (masterCode m) code 0 true)) := by
  have hr' : Ready s.nvSettled 0x05 m := hr
  rw [he]
  unfold State.nvCommand
  dsimp only
  rw [show nvPage = 0x05 from rfl, ready_write hr', if_neg hcode]
  exact congrArg finish (State.immediate_accepts _ hck)

/-- Such a command shows its answer and what it left of the unit. -/
theorem completes_nvCommand {c : Instr} {code : Nat} {P : NvUnit → Prop} {n : NvUnit}
    (he : exec c s = finish (s.nvCommand (masterCode m) code)) (hcode : code < 256) (h4 : code ≠ 4) (hr : Ready s 0x05 m)
    (hck : (s.nvChecks code).result = 0)
    (hn : (State.nvEffect code (s.nvSettled.answer 0x05 (masterCode m) code 0 true)).nv = n) (hdue : n.ctrDue = false)
    (hp : P n) : Completes c s fun t => t.cmdStatus 0x05 (masterCode m) = accepted s 0x05 code true ∧ P t.nv := by
  refine completes_clear (exec_nvCommand he h4 hr hck) (by rw [hn]; exact hdue) ⟨?_, by rw [State.settle_nv, hn]; exact hp⟩
  rw [kept_status ((State.kept_nvEffect _ _).trans (Safety.Kept.settle _ _)), State.answer_status, Nat.mod_eq_of_lt hcode]
  rfl

/-- A countersigned command of which nothing waits shows its answer. -/
theorem status_countersigned {p code : Nat} (hcode : code < 256) :
    (((s.setPage p fun g => { g with prop := none }).bump 0x06 0xA00).answer p (masterCode m) code 0 true).cmdStatus p
      (masterCode m) = accepted s p code true := by
  rw [State.answer_status, Nat.mod_eq_of_lt hcode]
  simp [accepted]

/-- A countersigned BP_SET sets the mask that its proposal captured (R461). -/
theorem exec_bpSet_countersigned {data : List Word} (hr : Ready s 0x05 m)
    (h : Countersigns s 0x05 m 4 (s.arg 0x05 (masterCode m)) data) : exec (.bpSet m) s =
      finish (State.setProtect data (((s.nvSettled.setPage 0x05 fun g => { g with prop := none }).bump 0x06 0xA00).answer
        0x05 (masterCode m) 4 0 true)) := by
  have hr' : Ready s.nvSettled 0x05 m := hr
  have h' : Countersigns s.nvSettled 0x05 m 4 (s.nvSettled.arg 0x05 (masterCode m)) data := h
  change finish (s.nvSettled.onWrite 0x05 (masterCode m) _) = _
  rw [ready_write hr', if_pos rfl]
  exact congrArg finish (State.twoParty_countersigned rfl h')

theorem completes_bpSet_countersigned {data : List Word} (hr : Ready s 0x05 m)
    (h : Countersigns s 0x05 m 4 (s.arg 0x05 (masterCode m)) data) (hdue : s.nv.ctrDue = false) :
    Completes (.bpSet m) s fun t => t.cmdStatus 0x05 (masterCode m) = accepted s 0x05 4 true ∧
      t.nv.bp = ((data[0]?).getD 0).toNat + ((data[1]?).getD 0).toNat * 2 ^ 32 := by
  refine completes_clear (exec_bpSet_countersigned hr h) ?_ ⟨?_, ?_⟩
  · rw [State.setProtect_nv, NvUnit.ctrDue_mask]; exact hdue
  · rw [kept_status ((State.kept_setProtect _ data).trans (Safety.Kept.settle _ _)), status_countersigned (by decide)]
    rfl
  · rw [State.settle_nv, State.setProtect_nv]

end Sys2Proof.Stated
end

section
/-! PROOFS. The obligation on the NV store's commands and events. -/

namespace Sys2Proof.Settled

open Machine Stated

/-- Settles O43: each command and event by what it writes; nothing that follows in its command touches the unit. -/
theorem nvCommandsTakeEffect : Obligations.NvCommandsTakeEffect := by
  unfold Obligations.NvCommandsTakeEffect
  intro m w v n data s k a at_ c mask calm answered
  refine ⟨fun hr hcalm => ⟨fun hopen hw => ?window, fun hclosed => ?turned, fun hc => ⟨fun hlock hnone hopen hw => ?init,
    fun hopen hw => ⟨fun hone => ?incFirst, fun htwo => ?incSecond⟩, fun hsome => ?read⟩, fun hmay => ?propose,
    fun hsign => ?countersign, fun hlock hen => ?clear⟩, fun hcalm r l hwait hok hw hopen => ?append,
    fun hcalm hruns hen hopen hw => ⟨fun hone => ?hoursFirst, fun htwo => ?hoursSecond⟩, fun hstill => ?hoursStill,
    ?clean, ?corrected, fun hcalm hn => ?uncorrectable, fun hcalm => ?good, ?low⟩
  case window =>
    have he : exec (.win m w v) s = finish (s.writeWin k w v) := congrArg finish (ready_write hr)
    rw [s.writeWin_open hopen] at he
    refine completes_clear he ((State.nvWrite_ctrDue _ _ _).trans hcalm) ?_
    rw [State.settle_nv]
    exact s.nvWrite_mem hw
  case turned =>
    have he : exec (.win m w v) s = finish (s.writeWin k w v) := congrArg finish (ready_write hr)
    cases hprot : s.nvProtected at_ with
    | true =>
      have hnv := s.writeWin_protected (m := k) (v := v) hprot
      exact completes_clear he ((congrArg NvUnit.ctrDue hnv).trans hcalm) (by rw [State.settle_nv, hnv])
    | false =>
      have hro : s.nvWritable = false := hclosed.resolve_left (by simp [hprot])
      rw [s.writeWin_open hprot, s.nvWrite_closed hro] at he
      exact completes_clear he hcalm (by rw [State.settle_nv]; rfl)
  case init =>
    have hck : (s.nvChecks 1).result = 0 :=
      Checks.result_eq_zero.mpr (by simp [State.nvChecks, hc, hlock, hnone, hopen, c, nvPage])
    have hmem := State.nvWrite_mem (s.nvSettled.answer 0x05 k 1 0 true) (a := c) (ws := nvCopyWords 0) hw
    have hdone := completes_nvCommand (c := .countInit m) (code := 1) rfl (by decide) (by decide) hr hck
      (P := fun n => n.mem = setNvWords (setNvWords s.nv.mem c (nvCopyWords 0)) (c + 12) (nvCopyWords 0))
      (State.nvEffect_init _) (by rw [State.nvWrite_ctrDue, State.nvWrite_ctrDue]; exact hcalm)
      (by rw [State.nvWrite_mem _ (by rw [State.nvWrite_nvWritable]; exact hw)]; exact congrArg (setNvWords · _ _) hmem)
    exact hdone
  case incFirst =>
    have hck : (s.nvChecks 2).result = 0 := Checks.result_eq_zero.mpr (by simp [State.nvChecks, hc, hone, hopen, c])
    refine completes_nvCommand (P := fun n => n.mem = _) rfl (by decide) (by decide) hr hck
      ((State.nvEffect_inc _).trans (congrArg State.nv (State.nvIncrement_first _ hone))) ?_ ?_
    · rw [State.nvWrite_ctrDue]; exact hcalm
    · exact State.nvWrite_mem _ hw
  case incSecond =>
    have hck : (s.nvChecks 2).result = 0 := Checks.result_eq_zero.mpr (by simp [State.nvChecks, hc, htwo, hopen, c])
    refine completes_nvCommand (P := fun n => n.mem = _) rfl (by decide) (by decide) hr hck
      ((State.nvEffect_inc _).trans (congrArg State.nv (State.nvIncrement_second _ htwo))) ?_ ?_
    · rw [State.nvWrite_ctrDue]; exact hcalm
    · exact State.nvWrite_mem _ hw
  case read =>
    have hck : (s.nvChecks 3).result = 0 := Checks.result_eq_zero.mpr (by simp [State.nvChecks, hc, c])
    obtain ⟨hdue, hval⟩ := (s.nvSettled.answer 0x05 k 3 0 true).countRead_valid hsome
    exact completes_nvCommand (P := fun n => n.ctrVal = _) rfl (by decide) (by decide) hr hck (State.nvEffect_read _)
      (hdue.trans hcalm) hval
  case propose =>
    have hr' : Ready s.nvSettled 0x05 m := hr
    obtain ⟨t, ht, hstatus, hprop, hsame⟩ := proposes_twoParty (c := .bpSet m) (s := s.nvSettled) (p := 0x05) (m := m)
      (ck := s.nvChecks 4) rfl hr' rfl (by decide) rfl hmay
    have hsettled : Safety.Kept s s.nvSettled := Safety.Kept.of_fields rfl
    exact ⟨t, ht, hstatus, hprop, hsettled.same.trans hsame⟩
  case countersign => exact completes_bpSet_countersigned hr hsign hcalm
  case clear =>
    have hck : (s.nvChecks 5).result = 0 := Checks.result_eq_zero.mpr (by simp [State.nvChecks, hlock, hen, nvPage])
    exact completes_nvCommand (P := fun n => n.logSlot = 0) rfl (by decide) (by decide) hr hck (State.nvEffect_logClear _) hcalm rfl
  case append =>
    have he : exec .logAppend s = finish _ := congrArg finish (s.logAppend_waits hwait)
    rw [if_neg (by simp [hok, hw]), if_neg (by rw [show s.nvProtected s.logAt = false from hopen]; decide)] at he
    obtain ⟨hmem, hleft, hdue⟩ := s.logWritten_nv hw r l
    refine completes_clear he (hdue.trans hcalm) ?_
    rw [State.settle_nv]
    exact ⟨hleft, rfl, rfl, hmem⟩
  case hoursFirst =>
    have he : exec .runHours s = finish _ := congrArg finish (if_pos hruns)
    rw [s.deviceCounter_counts hen hopen, s.nvIncrement_first hone] at he
    exact completes_clear he (by rw [State.nvWrite_ctrDue]; exact hcalm) (by rw [State.settle_nv]; exact s.nvWrite_mem hw)
  case hoursSecond =>
    have he : exec .runHours s = finish _ := congrArg finish (if_pos hruns)
    rw [s.deviceCounter_counts hen hopen, s.nvIncrement_second htwo] at he
    exact completes_clear he (by rw [State.nvWrite_ctrDue]; exact hcalm) (by rw [State.settle_nv]; exact s.nvWrite_mem hw)
  case hoursStill =>
    have he : (if s.budget.pstate.runs then s.deviceCounter 1 else s) = s := by
      rcases hstill with h | h <;> simp [h, State.deviceCounter]
    exact does_of (congrArg finish he) (Safety.Kept.refl s).same
  case clean => exact does_of rfl (Safety.Kept.refl s).same
  case corrected =>
    exact completes_standing rfl fun t _ hstands => hstands.fault _ _ (State.report_fault _ rfl rfl (by decide) rfl)
  case uncorrectable =>
    let u := s.nvReact 1 n
    have hlast : u.nv.lastUncorr = 4 * n := by
      simp only [u, State.nvReact, if_pos hn, State.nvUncorr]
      exact congrArg (4 * ·) (Nat.mod_eq_of_lt hn)
    have hstands := (Safety.Stays.nvDue (u.raise 0x05 1)).toStands.trans (Safety.Stands.settle _ false)
    exact ⟨_, rfl, hstands.fault _ _ (State.report_fault _ rfl rfl (by decide) rfl),
      ((Safety.Logged.report u _).trans (Safety.Logged.finished _)).lastUncorr.trans hlast⟩
  case good => exact completes_clear rfl hcalm (by rw [State.settle_nv]; exact ⟨rfl, rfl⟩)
  case low =>
    let u := s.setNv fun x => { x with holdupSeen := true, holdupOk := false }
    cases hwas : s.nv.holdupOk with
    | false =>
      have he : exec (.nvHoldupLow true) s = finish u := congrArg finish (if_neg (by simp [hwas]))
      exact ⟨_, he, (Safety.Logged.finished u).holdupOk, fun h => absurd h (by decide)⟩
    | true =>
      have he : exec (.nvHoldupLow true) s = finish (u.raise 0x05 4) := congrArg finish (if_pos (by simp [hwas]))
      have hstands := (Safety.Stays.nvDue (u.raise 0x05 4)).toStands.trans (Safety.Stands.settle _ false)
      exact ⟨_, he, ((Safety.Logged.report u _).trans (Safety.Logged.finished _)).holdupOk,
        fun _ => hstands.fault _ _ (State.report_fault _ rfl rfl (by decide) rfl)⟩

end Sys2Proof.Settled
end

section
/-! PROOFS. What the security commands are refused for (R468, R470, R472, R478), and the events of the protected store
(R481). -/

namespace Sys2Proof.Machine

variable (s : State)

/-- A slot may be revoked when it is ENABLED, no image that runs was signed with it, and another one stays (R472). -/
theorem State.keyKept_eq_false {k : Nat} : s.keyKept k = false ↔
    s.keyState k = .enabled ∧ (s.bookRuns = true → s.board.run.slot ≠ k) ∧ (s.fwRuns = true → s.sec.fwSlot ≠ k) ∧
      ∃ i < 4, i ≠ k ∧ s.keyState i = .enabled := by
  simp [State.keyKept, and_assoc, -not_exists]

end Sys2Proof.Machine

namespace Sys2Proof.Settled

open Machine Stated

/-- Settles O45: each check is the negation of what the rule asks for. -/
theorem securityRefusals : Obligations.SecurityRefusals := by
  unfold Obligations.SecurityRefusals
  intro a data s slot book fw
  have hslot : slot < 4 := Nat.mod_lt _ (by decide)
  simp only [Checks.result_eq_zero]
  refine ⟨?lifecycle, ?debug, ?write, ?revoke, ?minimum⟩
  case lifecycle =>
    unfold State.secChecks
    cases lifecycleOf (bits a 2 0) <;> simp
  case debug =>
    have hlevel : slot < 3 ↔ slot ≠ 3 := by omega
    have hmaster : ((List.range 4).any fun k => (s.keySlot k).valid) = false ↔ ∀ k < 4, (s.keySlot k).valid = false := by
      simp
    rw [hlevel, ← hmaster]
    simp only [State.secChecks]
    simp [slot, imp_iff_not_or]
  case write => simp [State.secChecks, slot, and_assoc]
  case revoke => simpa [State.secChecks] using s.keyKept_eq_false
  case minimum => simp [State.secChecks, book, fw, and_assoc]

end Sys2Proof.Settled
end

section
/-! PROOFS. The pair logic's operations (R308, R323, R325, R326): what a change of role leaves, and what the work that
follows it in other units leaves of the pair logic. -/

namespace Sys2Proof.Safety

open Machine

/-- The pair logic, the protected store, start-up and the collector's mode read the same. -/
structure Beside (s t : State) : Prop where
  pair : t.pair = s.pair
  sec : t.sec = s.sec
  boot : t.boot = s.boot
  compat : t.fault.compat = s.fault.compat

namespace Beside

variable {s t u : State}

theorem of_eq (hp : t.pair = s.pair) (hs : t.sec = s.sec) (hb : t.boot = s.boot) (hf : t.fault = s.fault) : Beside s t :=
  ⟨hp, hs, hb, by rw [hf]⟩

theorem of_kept (h : Kept s t) : Beside s t := ⟨h.pair, h.sec, h.boot, h.compat⟩
theorem refl (s : State) : Beside s s := of_eq rfl rfl rfl rfl

theorem trans (h : Beside s t) (g : Beside t u) : Beside s u :=
  ⟨g.pair.trans h.pair, g.sec.trans h.sec, g.boot.trans h.boot, g.compat.trans h.compat⟩

theorem foldl {α : Type} {f : State → α → State} (hf : ∀ u a, Beside u (f u a)) (l : List α) (s : State) :
    Beside s (l.foldl f s) := by
  induction l generalizing s with
  | nil => exact refl s
  | cons a l ih => exact (hf s a).trans (ih _)

theorem event (s : State) (p b : Nat) : Beside s (s.event p b) := of_eq rfl rfl rfl rfl
theorem bump (s : State) (p o : Nat) : Beside s (s.bump p o) := of_eq rfl rfl rfl rfl
theorem setChan (s : State) (k : Nat) (f : Chan → Chan) : Beside s (s.setChan k f) := of_eq rfl rfl rfl rfl
theorem setDom (s : State) (d : Nat) (f : Dom → Dom) : Beside s (s.setDom d f) := of_eq rfl rfl rfl rfl
theorem setOut (s : State) (j : Nat) (f : Out → Out) : Beside s (s.setOut j f) := of_eq rfl rfl rfl rfl
theorem setPort (s : State) (p : Nat) (f : Port → Port) : Beside s (s.setPort p f) := of_eq rfl rfl rfl rfl
theorem setSvc (s : State) (f : Service → Service) : Beside s (s.setSvc f) := of_eq rfl rfl rfl rfl
theorem setGrant (s : State) (c : Nat) (g : Option Grant) : Beside s (s.setGrant c g) := of_eq rfl rfl rfl rfl

theorem eventIf (c : Bool) (p b : Nat) (s : State) : Beside s (State.eventIf c p b s) := by
  unfold State.eventIf; split
  · exact event s p b
  · exact refl s

theorem startPclk (s : State) : Beside s s.startPclk := by
  have aborted : Beside s (s.abortTest 46) := by
    unfold State.abortTest; split
    · exact of_eq rfl rfl rfl rfl
    · exact refl s
  have starting : Beside s (s.chTo 46 .starting) := by
    unfold State.chTo; split
    · exact refl s
    · exact (aborted.trans (event _ _ _)).trans (setChan _ _ _)
  unfold State.startPclk; split
  · exact starting.trans (setChan _ _ _)
  · exact refl s

theorem send (s : State) (p : Nat) (f : Frame) : Beside s (s.send p f) := of_eq rfl rfl rfl rfl

theorem nextSeq (s : State) (p : Nat) (ctx : Option Nat) (ann : Bool) : Beside s (s.nextSeq p ctx ann).2 := by
  unfold State.nextSeq
  repeat' split
  all_goals exact of_eq rfl rfl rfl rfl

theorem sendAnnounce (s : State) (p : Nat) (ctx : Option Nat) : Beside s (s.sendAnnounce p ctx) := by
  unfold State.sendAnnounce
  split
  · exact (nextSeq s p ctx true).trans (send _ _ _)
  · exact refl s

theorem announceAll (s : State) : Beside s s.announceAll := by
  have ports : Beside s ((List.range 4).foldl (fun (s : State) (p : Nat) =>
      if s.masterActive p then s.sendAnnounce p none else s) s) := by
    refine foldl (fun u p => ?_) _ s
    split
    · exact sendAnnounce u p none
    · exact refl u
  refine ports.trans (foldl (fun u e => ?_) _ _)
  split
  · exact sendAnnounce u _ _
  · exact refl u

theorem rejoinAll (s : State) (how : Nat) : Beside s (s.rejoinAll how) := foldl (fun u d => setDom u d _) _ s
theorem adoptStates (l : List Nat) (s : State) : Beside s (l.foldl State.adoptState s) :=
  foldl (fun u d => setDom u d _) l s

theorem linkTo (s : State) (v : Nat) (st : LState) : Beside s (s.linkTo v st) :=
  (eventIf _ _ _ s).trans (of_eq rfl rfl rfl rfl)

theorem linkOf (s : State) (j : Nat) : Beside s (s.linkOf j) := by
  unfold State.linkOf State.linkSync
  dsimp only
  repeat' split
  all_goals first
    | exact refl s
    | exact linkTo _ _ _
    | exact (linkTo _ _ _).trans (of_eq rfl rfl rfl rfl)

theorem setOutState (s : State) (j : Nat) (st : OState) (held : Bool) : Beside s (s.setOutState j st held) := by
  unfold State.setOutState
  dsimp only
  split
  · exact (((eventIf _ _ _ _).trans (eventIf _ _ _ _)).trans (setOut _ _ _)).trans (linkOf _ _)
  · exact ((eventIf _ _ _ _).trans (setOut _ _ _)).trans (linkOf _ _)

theorem holdOutputs (s : State) : Beside s s.holdOutputs := by
  refine foldl (fun u j => ?_) _ s
  split
  · exact (setOutState u j _ _).trans (setOut _ _ _)
  · exact refl u

end Beside

end Sys2Proof.Safety

namespace Sys2Proof.Machine

open Safety

variable (s : State) {r : Role}

/-- What a change of role leaves of the pair logic. -/
def PairUnit.roleless (p : PairUnit) : PairUnit :=
  { p with
    role := .solo, aligned := false, wasAligned := false, alignGood := 0, alignBad := 0, rangeBad := 0, pclkSilent := 0
    syncStep := 0, syncRounds := 0, errs := [] }

theorem State.setAligned_pair (v : Bool) : (s.setAligned v).pair = { s.pair with
    aligned := v, wasAligned := s.pair.wasAligned || v, alignGood := if v then s.pair.alignGood else 0 } := by
  unfold State.setAligned State.setPair
  simp [(Beside.eventIf _ _ _ s).pair]

theorem State.setAligned_leaves (v : Bool) : (s.setAligned v).sec = s.sec ∧ (s.setAligned v).boot = s.boot ∧
    (s.setAligned v).fault.compat = s.fault.compat := by
  have h := Beside.eventIf (s.pair.aligned != v) pairPage 3 s
  exact ⟨h.sec, h.boot, h.compat⟩

/-- A change of role is an event, and between ACTIVE and STANDBY counts as castling. -/
def State.castled (r : Role) : State :=
  if (s.pair.role = .active ∧ r = .standby) ∨ (s.pair.role = .standby ∧ r = .active) then
    ((s.event pairPage 0).bump pairPage 0xA00).deviceCounter 3
  else s.event pairPage 0

theorem State.kept_castled (r : Role) : Kept s (s.castled r) := by
  have entered := Kept.event s pairPage 0
  unfold State.castled
  split
  · exact (entered.trans (Kept.bump _ _ _)).trans (Kept.deviceCounter _ _)
  · exact entered

/-- A change of role ends in the role, leaves the rest of the pair logic, and touches no other unit but counts. -/
theorem State.roleTo_leaves : (s.roleTo r).pair.role = r ∧ (s.roleTo r).pair.roleless = s.pair.roleless ∧
    (s.roleTo r).sec = s.sec ∧ (s.roleTo r).boot = s.boot ∧ (s.roleTo r).fault.compat = s.fault.compat := by
  obtain ⟨hpair, hsec, hboot, hcompat⟩ := Beside.of_kept (s.kept_castled r)
  obtain ⟨hsec', hboot', hcompat'⟩ := (s.castled r).setAligned_leaves false
  by_cases h : s.pair.role = r
  · simp [State.roleTo, h]
  · have heq : s.roleTo r = (if s.pair.role = .syncing ∧ r = .standby then s.castled r
        else (s.castled r).setAligned false).setPair fun p => { p with
          role := r, wasAligned := p.aligned, alignGood := 0, alignBad := 0, rangeBad := 0, pclkSilent := 0
          syncStep := 0, syncRounds := 0, errs := if s.pair.role = .syncing ∧ r = .standby then p.errs else [] } := if_neg h
    rw [heq]
    split
    · exact ⟨rfl, Eq.trans (b := (s.castled r).pair.roleless) rfl (congrArg PairUnit.roleless hpair), hsec, hboot, hcompat⟩
    · refine ⟨rfl, ?_, hsec'.trans hsec, hboot'.trans hboot, hcompat'.trans hcompat⟩
      calc _ = ((s.castled r).setAligned false).pair.roleless := rfl
        _ = (s.castled r).pair.roleless := by rw [State.setAligned_pair]; rfl
        _ = _ := by rw [hpair]

theorem State.roleTo_role : (s.roleTo r).pair.role = r := s.roleTo_leaves.1
theorem State.roleTo_sec : (s.roleTo r).sec = s.sec := s.roleTo_leaves.2.2.1
theorem State.roleTo_boot : (s.roleTo r).boot = s.boot := s.roleTo_leaves.2.2.2.1
theorem State.roleTo_compat : (s.roleTo r).fault.compat = s.fault.compat := s.roleTo_leaves.2.2.2.2
theorem State.roleTo_lost : (s.roleTo r).pair.lost = s.pair.lost := by
  have h : (s.roleTo r).pair.roleless.lost = s.pair.roleless.lost := by rw [s.roleTo_leaves.2.1]
  exact h

/-- Back in SOLO no castling is under way, and the device is as it was but for what a change of role touches. -/
theorem State.goSolo_leaves : s.goSolo.pair.role = .solo ∧ s.goSolo.sec = s.sec ∧
    s.goSolo.fault.compat = s.fault.compat := by
  have hrejoin : Beside s (if s.standby then s.rejoinAll 1 else s) := by
    split
    · exact Beside.rejoinAll s 1
    · exact Beside.refl s
  exact ⟨State.roleTo_role _, (State.roleTo_sec _).trans hrejoin.sec, (State.roleTo_compat _).trans hrejoin.compat⟩

/-- UNBIND ends the binding, and the device is SOLO (R308). -/
theorem State.doUnbind_leaves : s.doUnbind.pair.bound = false ∧ s.doUnbind.pair.role = .solo ∧
    s.doUnbind.sec = { s.sec with binding := none } ∧ s.doUnbind.fault.compat = s.fault.compat := by
  obtain ⟨hrole, hsec, hcompat⟩ := (s.setSec fun x => { x with binding := none }).goSolo_leaves
  exact ⟨rfl, hrole, hsec, hcompat⟩

/-- A STANDBY that takes over is ACTIVE with the cause, and tells its partner for 64 rounds unless that is lost (R325). -/
theorem State.takeOver_leaves (cause : Nat) : (s.takeOver cause).pair.role = .active ∧
    (s.takeOver cause).pair.lastCause = cause ∧ (s.takeOver cause).pair.castleBusy = decide (cause ≠ 4) ∧
    (s.takeOver cause).pair.takenLeft = (if cause = 4 then 0 else 64) ∧
    (s.takeOver cause).pair.lost = s.pair.lost := by
  let u := (s.roleTo .active).setPair fun p => { p with
    cause, lastCause := cause, castleReq := false, reqLeft := 0, waiting := 0
    castleBusy := decide (cause ≠ 4), takenLeft := if cause = 4 then 0 else 64 }
  have hu : Beside u (s.takeOver cause) := (((Beside.rejoinAll u 2).trans (Beside.adoptStates _ _)).trans
    (Beside.setSvc _ _)).trans (Beside.announceAll _)
  rw [hu.pair]
  exact ⟨s.roleTo_role, rfl, rfl, rfl, s.roleTo_lost⟩

/-- An ACTIVE that may castle requests it (R325). -/
theorem State.castleRequest_requests {cause : Nat} (hrole : s.pair.role = .active) (hok : s.pair.verOk = true)
    (hen : s.autoEn cause = true) (hbusy : s.pair.castleBusy = false) : s.castleRequest cause =
      s.setPair fun p => { p with castleReq := true, castleBusy := true, reqLeft := 64, cause, lastCause := cause } := by
  simp [State.castleRequest, hrole, hok, hen, hbusy, State.setPair]

end Sys2Proof.Machine
end

section
/-! PROOFS. The obligation on the PAIR commands (R308, R325, R334). -/

namespace Sys2Proof.Machine

variable {u : State}

/-- BIND of another device's identity finds only a busy page in its way. -/
theorem State.pairChecks_bind {data : List Word} (huid : uidOf data ≠ 0) (hown : uidOf data ≠ u.sec.ownUid)
    (hrole : u.pair.role = .solo) (hfree : u.pair.bound = false) : u.pairChecks 1 data = { busy := u.busy 0x07 } := by
  simp [State.pairChecks, pairPage, huid, hown, hrole, hfree]

theorem State.pairChecks_unbind {data : List Word} (hbound : u.pair.bound = true)
    (hrole : u.pair.role ≠ .active ∨ u.pair.lost = true) : u.pairChecks 2 data = { busy := u.busy 0x07 } := by
  rcases hrole with h | h <;> simp [State.pairChecks, pairPage, hbound, h]

/-- CASTLE between aligned partners of one configuration finds only what is under way in its way. -/
theorem State.pairChecks_castle {data : List Word} (hopen : (u.page 0x07).lockCmd = false)
    (hrole : (u.pair.role = .standby ∧ u.pair.partnerRole = 1 ∧ u.pair.aligned = true) ∨
      (u.pair.role = .active ∧ u.pair.partnerRole = 2 ∧ u.pair.partnerFlags.testBit 6 = true))
    (hmatch : u.pair.cfgMatch = true) (hok : u.pair.verOk = true) :
    u.pairChecks 3 data = { busy := u.busy 0x07 || u.pair.castleBusy } := by
  rcases hrole with ⟨hr, hp, ha⟩ | ⟨hr, hp, ha⟩ <;>
    simp [State.pairChecks, pairPage, hopen, hr, hp, ha, hmatch, hok]

theorem State.busyChecks_result {b : Bool} (h : b = false) : ({ busy := b } : Checks).result = 0 := by
  rw [h]; rfl

theorem State.busyChecks_again (b : Bool) : ({ busy := b } : Checks).again = 0 := rfl

/-- The pending PAIR command takes effect while its checks still pass. -/
theorem State.pairApply_pending {s : State} {m : Master} {code : Nat} {arg : Word} {data : List Word}
    (h : (u.page 0x07).pend = some (Stated.waiting s 0x07 m code arg data)) {ck : Checks}
    (hck : u.pairChecks code data = ck) (ha : ck.again = 0) :
    ∃ g, u.pairApply = State.pairEffect (Stated.waiting s 0x07 m code arg data) { u with pages := g } := by
  subst hck
  obtain ⟨v, hv, g, rfl⟩ := Stated.settle_of (f := State.pairEffect) h ha
  exact ⟨g, by rw [← hv, State.pairApply, show pairPage = 0x07 from rfl, h]; rfl⟩

end Sys2Proof.Machine

namespace Sys2Proof.Stated

open Machine

variable {s : State} {m : Master}

/-- CASTLE is issued as it stands; only BIND and UNBIND are two-party commands. -/
theorem exec_castle : exec (.castle m) s = finish (s.onWrite 0x07 (masterCode m) fun u =>
    u.submit 0x07 (masterCode m) 3 (u.arg 0x07 (masterCode m)) (u.pairChecks 3 [])) := by
  change finish (s.pairCommand m 3) = _
  rw [State.pairCommand, if_neg (by decide)]
  rfl

end Sys2Proof.Stated

namespace Sys2Proof.Settled

open Machine Stated

/-- Settles O23: BIND and UNBIND pass the two-party protocol, CASTLE its checks; each takes effect at its boundary. -/
theorem pairCommandsTakeEffect : Obligations.PairCommandsTakeEffect := by
  unfold Obligations.PairCommandsTakeEffect
  intro m data s a foreign open_ loose agree behind ahead hr hidle
  have hbusy : s.busy 0x07 = false := congrArg Option.isSome hidle
  refine ⟨fun hsolo hfree => ⟨fun hforeign hmay => ?propose, fun hforeign hsign => ?bind⟩,
    fun hloose => ⟨fun hmay => ?offer, fun hsign => ?unbind⟩, fun hopen hcalm => ⟨fun hbehind => ?take, fun hahead => ?ask⟩⟩
  case propose =>
    have hck : (s.pairChecks 1 s.bindRegs).result = 0 :=
      State.pairChecks_bind hforeign.1 hforeign.2 hsolo hfree ▸ State.busyChecks_result hbusy
    refine proposes_twoParty (later := true) (f := fun _ s => s) hck hr rfl (by decide) ?_ hmay
    simp only [show pairPage = 0x07 from rfl, hmay.1, if_true]
    rfl
  case bind =>
    have hck : (s.pairChecks 1 data).result = 0 :=
      State.pairChecks_bind hforeign.1 hforeign.2 hsolo hfree ▸ State.busyChecks_result hbusy
    refine waits_countersigned (f := fun _ s => s) (words := s.bindRegs) hck hr rfl (by decide) ?_ hsign
      fun u hpend hstill => ?_
    · obtain ⟨q, hprop, -, -, -, rfl⟩ := hsign.1
      simp only [show pairPage = 0x07 from rfl, hprop, if_true]
      rfl
    · have hagain : (u.pairChecks 1 data).again = 0 := by
        simp [State.pairChecks, Checks.again_eq_zero, hstill.1, hstill.2]
      obtain ⟨g, happly⟩ := State.pairApply_pending hpend rfl hagain
      rw [happly]
      exact ⟨rfl, rfl, rfl, rfl⟩
  case offer =>
    have hck : (s.pairChecks 2 []).result = 0 :=
      State.pairChecks_unbind hloose.1 hloose.2 ▸ State.busyChecks_result hbusy
    refine proposes_twoParty (later := true) (f := fun _ s => s) hck hr rfl (by decide) ?_ hmay
    simp only [show pairPage = 0x07 from rfl, hmay.1, if_neg (show ¬(2 : Nat) = 1 by decide)]
    rfl
  case unbind =>
    have hck : (s.pairChecks 2 []).result = 0 :=
      State.pairChecks_unbind hloose.1 hloose.2 ▸ State.busyChecks_result hbusy
    refine waits_countersigned (f := fun _ s => s) (words := []) hck hr rfl (by decide) ?_ hsign
      fun u hpend hstill => ?_
    · obtain ⟨q, hprop, -, -, -, hdata⟩ := hsign.1
      simp only [show pairPage = 0x07 from rfl, hprop, hdata, if_neg (show ¬(2 : Nat) = 1 by decide)]
      rfl
    · obtain ⟨g, happly⟩ := State.pairApply_pending hpend
        (State.pairChecks_unbind hstill.1 hstill.2) (State.busyChecks_again _)
      obtain ⟨hbound, hrole, hsec, -⟩ := State.doUnbind_leaves { u with pages := g }
      have hunbind : u.pairApply = State.doUnbind { u with pages := g } := happly
      rw [hunbind]
      exact ⟨hbound, congrArg SecUnit.binding hsec, hrole⟩
  case take =>
    obtain ⟨hrole, hpartner, haligned, hmatch, hok⟩ := hbehind
    have hck : (s.pairChecks 3 []).result = 0 :=
      State.pairChecks_castle hopen (.inl ⟨hrole, hpartner, haligned⟩) hmatch hok ▸
        State.busyChecks_result (by rw [hbusy, hcalm]; rfl)
    refine waits_submit hr exec_castle rfl hck (by decide) fun u hpend hstill => ?_
    obtain ⟨hopen', hrole', hpartner', haligned', hmatch', hok'⟩ := hstill
    obtain ⟨g, happly⟩ := State.pairApply_pending hpend
      (State.pairChecks_castle hopen' (.inl ⟨hrole', hpartner', haligned'⟩) hmatch' hok') (State.busyChecks_again _)
    obtain ⟨hactive, hcause, hcastle, htaken, -⟩ := State.takeOver_leaves { u with pages := g } 1
    have htake : u.pairApply = State.takeOver { u with pages := g } 1 := happly.trans (if_pos hrole')
    rw [htake]
    exact ⟨hactive, hcause, hcastle, htaken⟩
  case ask =>
    obtain ⟨hrole, hpartner, haligned, ⟨hmatch, hok⟩, -⟩ := hahead
    have hck : (s.pairChecks 3 []).result = 0 :=
      State.pairChecks_castle hopen (.inr ⟨hrole, hpartner, haligned⟩) hmatch hok ▸
        State.busyChecks_result (by rw [hbusy, hcalm]; rfl)
    refine waits_submit hr exec_castle rfl hck (by decide) fun u hpend hstill => ?_
    obtain ⟨hopen', hrole', hpartner', haligned', ⟨hmatch', hok'⟩, hcalm'⟩ := hstill
    obtain ⟨g, happly⟩ := State.pairApply_pending hpend
      (State.pairChecks_castle hopen' (.inr ⟨hrole', hpartner', haligned'⟩) hmatch' hok') (State.busyChecks_again _)
    have hask : u.pairApply = State.setPair { u with pages := g } _ := (happly.trans (if_neg (by rw [hrole']; decide))).trans
      (State.castleRequest_requests { u with pages := g } hrole' hok' rfl hcalm')
    rw [hask]
    exact ⟨hrole', rfl, rfl, rfl⟩

end Sys2Proof.Settled
end

section
/-! PROOFS. The protected store when a copy is lost (R481). -/

namespace Sys2Proof.Safety

open Machine

theorem Logged.bp {s t : State} (h : Logged s t) : t.nv.bp = s.nv.bp := by
  simpa [nvRest] using congrArg NvUnit.bp h.rest

end Sys2Proof.Safety

namespace Sys2Proof.Machine

open Safety

variable (s : State)

/-- A table that keeps the entries of some keys alone reads the default elsewhere. -/
theorem tget_filter {α : Type} {d : Nat → α} (f : Nat → Bool) (t : Table α) (k : Nat) :
    tget d (t.filter fun e => f e.1) k = if f k then tget d t k else d k := by
  induction t with
  | nil => simp [tget]
  | cons e t ih =>
    obtain ⟨j, v⟩ := e
    by_cases hj : f j = true <;> by_cases hk : k = j <;> simp_all [tget]

/-- Of the host's slots only those whose revocation is fused outlive the store (R467, R473). -/
theorem State.eraseStore_keyState {k : Nat} (hk : k ≠ 0) :
    s.eraseStore.keyState k = if s.keyState k = .revoked then .revoked else .empty := by
  calc _ = tget keyDefault (s.sec.keys.filter fun e => e.1 == 0 || s.keyState e.1 == .revoked) k := rfl
    _ = if (k == 0 || s.keyState k == .revoked) = true then s.keyState k else keyDefault k :=
      tget_filter (fun j => j == 0 || s.keyState j == .revoked) _ _
    _ = _ := by
      by_cases h : s.keyState k = .revoked <;> simp [hk, h, keyDefault]

/-- With both copies lost the binding and the keys go, and every NV block is protected. -/
theorem State.storeLost_leaves : s.storeLost.sec.binding = none ∧ s.storeLost.sec.copyA = s.sec.copyA ∧
    s.storeLost.sec.copyB = s.sec.copyB ∧ s.storeLost.fault.compat = s.fault.compat ∧
    ∀ k, k ≠ 0 → s.storeLost.keyState k = if s.keyState k = .revoked then .revoked else .empty := by
  obtain ⟨u, hu, hkeys, hA, hB, hcompat⟩ : ∃ u : State, s.storeLost = u.eraseStore.setNv (fun n => { n with bp := 2 ^ 64 - 1 }) ∧
      u.sec.keys = s.sec.keys ∧ u.sec.copyA = s.sec.copyA ∧ u.sec.copyB = s.sec.copyB ∧
        u.fault.compat = s.fault.compat := by
    obtain ⟨-, -, hsec, hcompat⟩ := s.doUnbind_leaves
    refine ⟨if s.pair.bound then s.doUnbind else s, rfl, ?_⟩
    split
    · rw [hsec]; exact ⟨rfl, rfl, rfl, hcompat⟩
    · exact ⟨rfl, rfl, rfl, rfl⟩
  rw [hu]
  refine ⟨rfl, hA, hB, hcompat, fun k hk => ?_⟩
  have hstate : u.keyState k = s.keyState k := by rw [State.keyState, hkeys]; rfl
  exact hstate ▸ u.eraseStore_keyState hk

/-- The first copy lost is either one: which is a free value. -/
theorem State.copyLost_first (hA : s.sec.copyA = true) (hB : s.sec.copyB = true) :
    ∃ b, s.copyLost = (s.setSec fun x => { x with copyA := b, copyB := !b }).nextFree :=
  ⟨decide (Config.freeInt 10 s.free % 2 = 0), by simp [State.copyLost, hA, hB]⟩

theorem State.copyLost_second (h : s.sec.copyA = false ∨ s.sec.copyB = false) :
    s.copyLost = (s.setSec fun x => { x with copyA := false, copyB := false }).nextFree.storeLost := by
  rcases h with h | h <;> simp [State.copyLost, h]

end Sys2Proof.Machine

namespace Sys2Proof.Stated

open Machine

/-- A meaning that ends in `w` completes with what every state shows that is `w` but for records, requests and what records
write to the NV store. -/
theorem completes_logged {s w : State} {c : Instr} {P : State → Prop} (he : exec c s = finish w)
    (hp : ∀ t, Safety.Kept w t → Safety.Logged w t → P t) : Completes c s P :=
  ⟨_, he.trans (finish_next w), hp _ ((Safety.Kept.nvDue w).trans (Safety.Kept.settle _ _)) (Safety.Logged.finished w)⟩

end Sys2Proof.Stated

namespace Sys2Proof.Settled

open Machine Stated

/-- Settles O46: a report leaves the protected store alone, so what the event did to it stands. -/
theorem securityEventsTakeEffect : Obligations.SecurityEventsTakeEffect := by
  unfold Obligations.SecurityEventsTakeEffect
  intro s
  refine ⟨?passed, fun hnative => ⟨?failed, ?corrected, fun hA hB => ?first, fun hlost => ?second⟩, ?clean⟩
  case passed => exact completes_of rfl fun t hkept => by rw [hkept.sec]; rfl
  case failed =>
    let u := s.setSec fun x => { x with katBad := true }
    cases hwas : s.sec.katBad with
    | true =>
      have he : exec (.secCryptoKat false) s = finish u := congrArg finish (if_neg (by simp [hwas]))
      exact completes_of he fun t hkept => by rw [hkept.sec]; rfl
    | false =>
      have he : exec (.secCryptoKat false) s = finish (u.raise secPage 3) := congrArg finish (if_pos (by simp [hwas]))
      obtain ⟨t, ht, hreported⟩ := reports_raise he hnative
      exact ⟨t, ht, (congrArg SecUnit.katBad hreported.sec).trans rfl⟩
  case corrected => exact reports_raise rfl hnative
  case first =>
    obtain ⟨b, hb⟩ := s.copyLost_first hA hB
    exact ⟨b, reports_raise (congrArg (fun u => finish (State.raise u secPage 1)) hb) hnative⟩
  case second =>
    let u := (s.setSec fun x => { x with copyA := false, copyB := false }).nextFree
    obtain ⟨hbinding, hA, hB, hcompat, hkeys⟩ := u.storeLost_leaves
    have he : exec (.pstoreScrub .uncorrectable) s = finish (u.storeLost.raise secPage 1) :=
      congrArg (fun u => finish (State.raise u secPage 1)) (s.copyLost_second hlost)
    have hsec := (Safety.Reported.report u.storeLost { page := secPage, bit := 1 } (hcompat.trans hnative)).sec
    have hbp := (Safety.Logged.report u.storeLost { page := secPage, bit := 1 }).bp
    refine completes_logged he fun t hkept hlogged => ?_
    replace hsec := hkept.sec.trans hsec
    refine ⟨by rw [hsec]; exact hbinding, by rw [hsec]; exact hA, by rw [hsec]; exact hB,
      (hlogged.bp.trans hbp).trans rfl, fun i hi => ?_⟩
    rw [State.keyState, hsec]
    exact hkeys i hi
  case clean => exact does_of rfl (Safety.Same.refl s)

end Sys2Proof.Settled
end

section
/-! PROOFS. The runner of the configuration image (R487, R491). -/

namespace Sys2Proof.Machine

variable (s : State) {p q i : Nat}

theorem State.imgAnswer_none (h : s.boot.imgCmd = none) : s.imgAnswer = s := by simp [State.imgAnswer, h]

section
variable (h : s.boot.imgCmd = some (p, q, i))
include h

theorem State.imgAnswer_refused (hseq : (s.cmdStatus p 3).seq = q) (hresult : (s.cmdStatus p 3).result ≠ 0) :
    s.imgAnswer = s.imgRefused i := by simp [State.imgAnswer, h, hseq, hresult]

theorem State.imgAnswer_done (hseq : (s.cmdStatus p 3).seq = q) (hresult : (s.cmdStatus p 3).result = 0)
    (hdone : (s.cmdStatus p 3).done = true) : s.imgAnswer = s.imgApplied := by
  simp [State.imgAnswer, h, hseq, hresult, hdone]

theorem State.imgAnswer_waits (hopen : (s.cmdStatus p 3).seq ≠ q ∨
    ((s.cmdStatus p 3).result = 0 ∧ (s.cmdStatus p 3).done = false)) : s.imgAnswer = s := by
  rcases hopen with hseq | ⟨hresult, hdone⟩
  · simp [State.imgAnswer, h, hseq]
  · simp [State.imgAnswer, h, hresult, hdone]

/-- The runner takes nothing while it waits for a command. -/
theorem State.imageStep_waits : s.imageStep = s := by simp [State.imageStep, h]

end

/-- An entry with its guarded pair, once written. -/
def State.imgWritten (i : Nat) : State := s.imgWrite (s.imgEntry i).1 (s.imgEntry i).2.2.1 (s.imgEntry i).2.2.2

/-- The write of a command, for whose answer the runner waits. -/
def State.imgIssued (i p : Nat) : State :=
  (s.imgWritten i).setBoot fun b => { b with imgCmd := some (p, ((s.page p).seq + 1) % 32768, i), imgWait := 0 }

theorem State.imgApply_register (h : cmdPage (s.imgEntry i).1 = none) : s.imgApply i = (s.imgWritten i).imgApplied := by
  simp only [State.imgApply, h]; rfl

theorem State.imgApply_command (h : cmdPage (s.imgEntry i).1 = some p) :
    s.imgApply i = (s.imgIssued i p).imgAnswer := by
  simp only [State.imgApply, h]; rfl

theorem State.imageStep_stopped (h : s.boot.wake = true ∨ s.osc.running = false) : s.imageStep = s := by
  rcases h with h | h <;> simp [State.imageStep, h]

section
variable (hcmd : s.boot.imgCmd = none) (hwake : s.boot.wake = false) (hrun : s.osc.running = true)
include hcmd hwake hrun

/-- While entries of the list are left, the next one is deferred, dropped, held or applied. -/
theorem State.imageStep_next (h : s.boot.imgNext < s.boot.imgCount) :
    s.imageStep =
      if (s.imgEntry s.boot.imgNext).2.1 ∧ s.defers ∧ s.roleSettled = false then
        (s.setBoot fun b => { b with imgNext := s.boot.imgNext + 1 }).setBoot fun b =>
          { b with deferred := s.boot.deferred ++ [s.boot.imgNext] }
      else if (s.imgEntry s.boot.imgNext).2.1 ∧ s.defers ∧ s.standby then
        (s.setBoot fun b => { b with imgNext := s.boot.imgNext + 1 }).setBoot fun b => { b with dropped := s.boot.dropped + 1 }
      else if s.imgHeld s.boot.imgNext then s
      else (s.setBoot fun b => { b with imgNext := s.boot.imgNext + 1 }).imgApply s.boot.imgNext := by
  unfold State.imageStep
  rw [if_neg (by simp [hcmd, hwake, hrun]), if_pos h]
  rfl

/-- After the list the first held entry follows, once the role is settled. -/
theorem State.imageStep_deferred (h : s.boot.imgCount ≤ s.boot.imgNext) {l : List Nat} (hl : s.boot.deferred = i :: l) :
    s.imageStep = if s.roleSettled ∧ s.imgHeld i = false then
      (s.setBoot fun b => { b with deferred := l }).imgApply i else s := by
  unfold State.imageStep
  rw [if_neg (by simp [hcmd, hwake, hrun]), if_neg (by omega)]
  simp only [hl]

theorem State.imageStep_ended (h : s.boot.imgCount ≤ s.boot.imgNext) (hl : s.boot.deferred = []) : s.imageStep = s := by
  unfold State.imageStep
  rw [if_neg (by simp [hcmd, hwake, hrun]), if_neg (by omega)]
  simp only [hl]

end

end Sys2Proof.Machine

namespace Sys2Proof.Stated

open Machine

variable {s : State}

theorem exec_imageEntry_looks : exec .imageEntry s = finish s.imgAnswer.imageStep := rfl

/-- IMAGE_ENTRY with no command to wait for takes the next step. -/
theorem exec_imageEntry (h : s.boot.imgCmd = none) : exec .imageEntry s = finish s.imageStep := by
  rw [exec_imageEntry_looks, s.imgAnswer_none h]

theorem does_imageEntry {u : State} (h : s.boot.imgCmd = none) (hu : s.imageStep = u) : Does .imageEntry s u :=
  does_of ((exec_imageEntry h).trans (congrArg finish hu)) (Safety.Same.refl u)

end Sys2Proof.Stated

namespace Sys2Proof.Settled

open Machine Stated

/-- Settles O48: the runner looks at the answer it waits for, and only without one takes the next entry. -/
theorem imageEntriesAreApplied : Obligations.ImageEntriesAreApplied := by
  unfold Obligations.ImageEntriesAreApplied
  intro s b i e next applied refused acts
  have hacts (i : Nat) (u : State) (hcmd : s.boot.imgCmd = none) (hentry : u.imgEntry i = s.imgEntry i)
      (hstep : s.imageStep = u.imgApply i) : acts i u := by
    have hwritten : u.imgWritten i = u.imgWrite (s.imgEntry i).1 (s.imgEntry i).2.2.1 (s.imgEntry i).2.2.2 := by
      rw [State.imgWritten, hentry]
    refine ⟨fun hpage => ?_, fun p hpage => ⟨fun hseq hresult => ?_, fun hseq hresult hdone => ?_, fun hopen => ?_⟩⟩
    · exact does_imageEntry hcmd (by rw [hstep, u.imgApply_register (hentry ▸ hpage), hwritten]; rfl)
    all_goals
      have happly := hstep.trans (u.imgApply_command (hentry ▸ hpage))
      have hissued : u.imgIssued i p = (u.imgWrite (s.imgEntry i).1 (s.imgEntry i).2.2.1 (s.imgEntry i).2.2.2).setBoot _ :=
        congrArg (State.setBoot · _) hwritten
      rw [hissued] at happly
    · exact does_imageEntry hcmd (happly.trans (State.imgAnswer_refused _ rfl hseq hresult))
    · exact does_imageEntry hcmd (happly.trans (State.imgAnswer_done _ rfl hseq hresult hdone))
    · exact does_imageEntry hcmd (happly.trans (State.imgAnswer_waits _ rfl hopen))
  have hturn (hmay : e.2.1 = false ∨ s.defers = false ∨ (s.roleSettled = true ∧ s.standby = false)) :
      ¬(e.2.1 = true ∧ s.defers = true ∧ s.roleSettled = false) ∧
        ¬(e.2.1 = true ∧ s.defers = true ∧ s.standby = true) := by
    rcases hmay with h | h | ⟨hrole, hactive⟩
    · simp [h]
    · simp [h]
    · simp [hrole, hactive]
  refine ⟨fun p q j hcmd => ⟨fun hseq hresult => ?refused, fun hseq hresult hdone => ?done, fun hopen => ?waits⟩,
    fun hcmd => ⟨fun hstop => ?stopped, fun hwake hrun hleft => ⟨fun hmay => ⟨fun hfree => ?next, fun hheld => ?held⟩,
      fun hdefer hdefers => ⟨fun hrole => ?deferred, fun hrole hstandby => ?dropped⟩⟩,
      fun hwake hrun hend => ⟨fun hnone => ?ended, fun j l hl => ⟨fun hrole hfree => ?late, fun hstays => ?stays⟩⟩⟩⟩
  case refused =>
    have hrest := exec_imageEntry (s := s.imgRefused j) rfl
    rw [exec_imageEntry_looks, s.imgAnswer_refused hcmd hseq hresult]
    exact hrest.symm
  case done =>
    have hrest := exec_imageEntry (s := s.imgApplied) rfl
    rw [exec_imageEntry_looks, s.imgAnswer_done hcmd hseq hresult hdone]
    exact hrest.symm
  case waits =>
    have hstill : s.imgAnswer.imageStep = s := by rw [s.imgAnswer_waits hcmd hopen, s.imageStep_waits hcmd]
    exact does_of (exec_imageEntry_looks.trans (congrArg finish hstill)) (Safety.Same.refl s)
  case stopped => exact does_imageEntry hcmd (s.imageStep_stopped hstop)
  case next =>
    obtain ⟨hkeep, hstay⟩ := hturn hmay
    refine hacts i next hcmd rfl ?_
    rw [s.imageStep_next hcmd hwake hrun hleft, if_neg hkeep, if_neg hstay, if_neg (by rw [hfree]; decide)]
  case held =>
    obtain ⟨hkeep, hstay⟩ := hturn hmay
    refine does_imageEntry hcmd ?_
    rw [s.imageStep_next hcmd hwake hrun hleft, if_neg hkeep, if_neg hstay, if_pos hheld]
  case deferred =>
    exact does_imageEntry hcmd ((s.imageStep_next hcmd hwake hrun hleft).trans (if_pos ⟨hdefer, hdefers, hrole⟩))
  case dropped =>
    refine does_imageEntry hcmd ((s.imageStep_next hcmd hwake hrun hleft).trans ?_)
    rw [if_neg (by simp [hrole]), if_pos ⟨hdefer, hdefers, hstandby⟩]
    rfl
  case ended => exact does_imageEntry hcmd (s.imageStep_ended hcmd hwake hrun hend hnone)
  case late =>
    exact hacts j _ hcmd rfl ((s.imageStep_deferred hcmd hwake hrun hend hl).trans (if_pos ⟨hrole, hfree⟩))
  case stays =>
    refine does_imageEntry hcmd ((s.imageStep_deferred hcmd hwake hrun hend hl).trans (if_neg ?_))
    rcases hstays with h | h <;> simp [h]

end Sys2Proof.Settled
end

section
/-! PROOFS. Resets (R484, R488): what the loads of start-up touch, what a POR leaves, and what the resets of islands and of
the service island leave. -/

namespace Sys2Proof.Safety

open Machine

/-- What start-up's loads may do: skews, path delays, port latencies, the pair logic's binding. -/
structure Loaded (s t : State) : Prop where
  active : t.active = s.active
  shadow : t.shadow = s.shadow
  osc : t.osc = s.osc
  doms : t.doms = s.doms
  board : t.board = s.board
  budget : t.budget = s.budget
  fault : t.fault = s.fault
  nv : t.nv = s.nv
  boot : t.boot = s.boot
  sys : t.sys = s.sys
  sec : t.sec = s.sec
  svc : { t.svc with ports := s.svc.ports } = s.svc
  chan : ∀ k, { t.chan k with skew := (s.chan k).skew } = s.chan k
  out : ∀ j, { t.out j with pathDly := (s.out j).pathDly } = s.out j
  port : ∀ p, { t.port p with txLat := (s.port p).txLat, rxLat := (s.port p).rxLat } = s.port p

namespace Loaded

variable {s t u : State}

theorem refl (s : State) : Loaded s s := by constructor <;> first | rfl | exact fun _ => rfl

theorem trans (h : Loaded s t) (g : Loaded t u) : Loaded s u where
  active := g.active.trans h.active
  shadow := g.shadow.trans h.shadow
  osc := g.osc.trans h.osc
  doms := g.doms.trans h.doms
  board := g.board.trans h.board
  budget := g.budget.trans h.budget
  fault := g.fault.trans h.fault
  nv := g.nv.trans h.nv
  boot := g.boot.trans h.boot
  sys := g.sys.trans h.sys
  sec := g.sec.trans h.sec
  svc := by rw [← h.svc, ← g.svc]
  chan k := by rw [← h.chan k, ← g.chan k]
  out j := by rw [← h.out j, ← g.out j]
  port p := by rw [← h.port p, ← g.port p]

theorem foldl {α : Type} {f : State → α → State} (hf : ∀ u a, Loaded u (f u a)) (l : List α) (s : State) :
    Loaded s (l.foldl f s) := by
  induction l generalizing s with
  | nil => exact refl s
  | cons a l ih => exact (hf s a).trans (ih _)

theorem setPair (s : State) (f : PairUnit → PairUnit) : Loaded s (s.setPair f) := by
  constructor <;> first | rfl | exact fun _ => rfl

/-- Loads into channels, outputs and ports. -/
theorem of_units {c : Table Chan} {o : Table Out} {q : Table Port}
    (hchan : ∀ k, { tget (fun _ => Chan.zero) c k with skew := (s.chan k).skew } = s.chan k)
    (hout : ∀ j, { tget (fun _ => Out.zero) o j with pathDly := (s.out j).pathDly } = s.out j)
    (hport : ∀ p, { tget (fun _ => Port.zero) q p with txLat := (s.port p).txLat, rxLat := (s.port p).rxLat } = s.port p) :
    Loaded s { s with chans := c, outs := o, svc := { s.svc with ports := q } } := by
  constructor <;> first | rfl | assumption

theorem loadSkew (s : State) (k : Nat) : Loaded s (s.loadSkew k) := by
  refine of_units (fun i => ?_) (fun _ => rfl) (fun _ => rfl)
  by_cases h : i = k
  · subst h; rw [tget_tmod_self]; rfl
  · rw [tget_tmod_other _ h]; rfl

theorem loadPath (s : State) (j : Nat) : Loaded s (s.loadPath j) := by
  refine of_units (fun _ => rfl) (fun i => ?_) (fun _ => rfl)
  by_cases h : i = j
  · subst h; rw [tget_tmod_self]; rfl
  · rw [tget_tmod_other _ h]; rfl

theorem loadLat (s : State) (p : Nat) : Loaded s (s.loadLat p) := by
  refine of_units (fun _ => rfl) (fun _ => rfl) (fun i => ?_)
  by_cases h : i = p
  · subst h; rw [tget_tmod_self]; rfl
  · rw [tget_tmod_other _ h]; rfl

/-- The loads before the binding. -/
theorem tables (s : State) : Loaded s ((List.range 4).foldl State.loadLat ((List.range 40).foldl State.loadPath
    ((List.range 48).foldl State.loadSkew s))) :=
  ((foldl loadSkew _ s).trans (foldl loadPath _ _)).trans (foldl loadLat _ _)

theorem loadFuses (s : State) : Loaded s s.loadFuses := by
  unfold State.loadFuses
  dsimp only
  split <;> exact (tables s).trans (setPair _ _)

end Loaded

end Sys2Proof.Safety

namespace Sys2Proof.Machine

open Safety

variable (s : State)

/-- The binding of the protected store is taken (R488). -/
theorem State.loadFuses_bound : s.loadFuses.pair.bound = s.sec.binding.isSome := by
  let u := (List.range 4).foldl State.loadLat ((List.range 40).foldl State.loadPath ((List.range 48).foldl State.loadSkew s))
  have hbinding : u.sec.binding = s.sec.binding := congrArg SecUnit.binding (Loaded.tables s).sec
  rw [← hbinding]
  change (match u.sec.binding with
    | some (x, p) => u.setPair fun y => { y with bound := true, boundUid := x, pref := p }
    | none => u.setPair fun y => { y with bound := false, boundUid := 0, pref := false }).pair.bound = _
  cases u.sec.binding <;> rfl

/-- The debug level of the lifecycle state is taken, and a change of level is an event (R469, R470). -/
theorem State.resetDebug_takes : ∃ g, s.resetDebug =
    { s with sec := { s.sec with dbgSet := resetLevel s.sec.lc }, pages := g } := by
  unfold State.resetDebug State.eventIf
  dsimp only
  split <;> exact ⟨_, rfl⟩

theorem State.dropProposals_pages : ∃ g, s.dropProposals = { s with pages := g } := by
  suffices h : ∀ (l : Table Page) (u : State), ∃ g, l.foldl (fun (u : State) e =>
      u.setPage e.1 fun (g : Page) => { g with prop := none, lockProp := none }) u = { u with pages := g } from h s.pages s
  intro l
  induction l with
  | nil => exact fun u => ⟨u.pages, rfl⟩
  | cons e l ih => exact fun u => ih _

/-- The copy of the boot record in use depends on the NV store alone. -/
theorem State.recordCopy_congr {t : State} (h : t.nv = s.nv) : t.recordCopy = s.recordCopy := by
  have hnv (u : State) : u.recordCopy = { State.reset with nv := u.nv }.recordCopy := rfl
  rw [hnv t, hnv s, h]

/-- What is reset of a table that keeps the pages named alone. -/
theorem tget_keepPages (keep : Nat → Bool) (t : Table Word) (k : Nat) :
    tget cfgReset (keepPages keep t) k = if keep (k / 0x1000) then tget cfgReset t k else cfgReset k :=
  tget_filter (fun a => keep (a / 0x1000)) t k

/-- Start-up's loads and the preset of AGE_ADJ, after the debug level, leave what the reset made of the units. -/
theorem State.loads_leave (age : Int) : let t := s.resetDebug.loadFuses.presetAge age
    t.boot = s.boot ∧ t.sec.lc = s.sec.lc ∧ t.osc.running = s.osc.running ∧ t.board = s.board ∧ t.budget = s.budget ∧
      t.fault = s.fault ∧ t.doms = s.doms ∧ t.active = s.active ∧ (∀ k, (t.chan k).state = (s.chan k).state) ∧
      ∀ j, (t.out j).state = (s.out j).state := by
  intro t
  obtain ⟨g, hdebug⟩ := s.resetDebug_takes
  have h := Loaded.loadFuses { s with sec := { s.sec with dbgSet := resetLevel s.sec.lc }, pages := g }
  rw [← hdebug] at h
  have hlc : s.resetDebug.sec.lc = s.sec.lc := by rw [hdebug]
  refine ⟨h.boot.trans (by rw [hdebug]), (congrArg SecUnit.lc h.sec).trans hlc, (congrArg Osc.running h.osc).trans (by rw [hdebug]),
    h.board.trans (by rw [hdebug]), h.budget.trans (by rw [hdebug]), h.fault.trans (by rw [hdebug]),
    h.doms.trans (by rw [hdebug]), h.active.trans (by rw [hdebug]), fun k => ?_, fun j => ?_⟩
  · have hk := congrArg Chan.state (h.chan k)
    exact hk.trans (by rw [hdebug]; rfl)
  · have hj := congrArg Out.state (h.out j)
    exact hj.trans (by rw [hdebug]; rfl)

/-- What an ISLANDS reset leaves (R484, R488). -/
theorem State.islandsReset_leaves (cause : Nat) : let t := s.islandsReset cause
    t.boot.started = true ∧ t.boot.cause = cause ∧ t.osc.running = false ∧ t.board = .zero ∧ t.sec.lc = s.sec.lc ∧
      t.budget.pstate = .run ∧ t.fault = s.fault.resetIslands ∧ t.doms = [] ∧ (∀ k, (t.chan k).state = .off) ∧
      (∀ j, (t.out j).state = .off) ∧ t.active = keepPages keptPage s.active := by
  obtain ⟨v, age, hv, hstarted, hcause, hrunning, hcleared, hlevel, hstate, hcollector, hnone, hchans, houts, hkept⟩ :
      ∃ (v : State) (age : Int), s.islandsReset cause = v.resetDebug.loadFuses.presetAge age ∧ v.boot.started = true ∧
        v.boot.cause = cause ∧ v.osc.running = false ∧ v.board = .zero ∧ v.sec.lc = s.sec.lc ∧ v.budget.pstate = .run ∧
        v.fault = s.fault.resetIslands ∧ v.doms = [] ∧ v.chans = [] ∧ v.outs = [] ∧
        v.active = keepPages keptPage s.active := by
    obtain ⟨g, hdrop⟩ := s.dropProposals_pages
    unfold State.islandsReset
    rw [hdrop]
    exact ⟨_, _, rfl, rfl, rfl, rfl, rfl, rfl, rfl, rfl, rfl, rfl, rfl, rfl⟩
  obtain ⟨hboot, hlc, hosc, hboard, hbudget, hfault, hdoms, hactive, hchan, hout⟩ := v.loads_leave age
  intro t
  have ht : t = v.resetDebug.loadFuses.presetAge age := hv
  rw [ht]
  refine ⟨by rw [hboot]; exact hstarted, by rw [hboot]; exact hcause, hosc.trans hrunning, hboard.trans hcleared,
    hlc.trans hlevel, by rw [hbudget]; exact hstate, hfault.trans hcollector, hdoms.trans hnone, fun k => ?_, fun j => ?_,
    hactive.trans hkept⟩
  · rw [hchan k, State.chan, hchans]; rfl
  · rw [hout j, State.out, houts]; rfl

theorem Boot.tryFw_cause (b : Boot) (n : Nat) : (b.tryFw n).cause = b.cause := by
  unfold Boot.tryFw
  repeat' split
  all_goals rfl

theorem Boot.service_cause (b : Boot) (n : Nat) : (b.service n).cause = 8 := by
  unfold Boot.service
  split
  · exact Boot.tryFw_cause _ _
  · dsimp only
    split
    · exact Boot.tryFw_cause _ _
    · rfl

/-- Links that go touch no domain and no register. -/
theorem State.linksChanged_leaves (l : List Nat) (up : Bool) :
    (l.foldl (fun (s : State) (p : Nat) => s.linkChange p up) s).doms = s.doms ∧
      (l.foldl (fun (s : State) (p : Nat) => s.linkChange p up) s).active = s.active := by
  induction l generalizing s with
  | nil => exact ⟨rfl, rfl⟩
  | cons p l ih =>
    have hlink : (s.linkChange p up).doms = s.doms ∧ (s.linkChange p up).active = s.active := by
      unfold State.linkChange State.eventIf
      dsimp only
      repeat' split
      all_goals exact ⟨rfl, rfl⟩
    exact ⟨(ih _).1.trans hlink.1, (ih _).2.trans hlink.2⟩

/-- What a SERVICE reset leaves (R484). -/
theorem State.serviceReset_leaves : let t := s.serviceReset
    t.boot.cause = 8 ∧ t.svc.ctrl = .boot ∧ t.svc.keys = [] ∧ t.svc.rx = [] ∧ t.svc.grants = [] ∧
      (∀ p, (t.port p).linkUp = false) ∧ t.doms = s.doms ∧
      t.active = keepPages (fun p => p != 0x0B && p != 0x0C) s.active := by
  obtain ⟨v, hv, hcause, hctrl, hkeys, hrx, hgrants, hports, hdoms, hactive⟩ :
      ∃ v : State, s.serviceReset = (List.range 4).foldl State.loadLat v ∧ v.boot.cause = 8 ∧ v.svc.ctrl = .boot ∧
        v.svc.keys = [] ∧ v.svc.rx = [] ∧ v.svc.grants = [] ∧ v.svc.ports = [] ∧ v.doms = s.doms ∧
        v.active = keepPages (fun p => p != 0x0B && p != 0x0C) s.active := by
    obtain ⟨hdoms, hactive⟩ := s.linksChanged_leaves (List.range 4) false
    unfold State.serviceReset
    dsimp only
    generalize (List.range 4).foldl (fun (s : State) (p : Nat) => s.linkChange p false) s = u at hdoms hactive
    obtain ⟨g, hdrop⟩ := u.dropProposals_pages
    rw [hdrop]
    refine ⟨_, rfl, ?_⟩
    obtain ⟨g', hdebug⟩ := State.resetDebug_takes _
    rw [hdebug]
    exact ⟨Boot.service_cause _ _, rfl, rfl, rfl, rfl, rfl, hdoms, congrArg (keepPages fun p => p != 0x0B && p != 0x0C) hactive⟩
  have h := Loaded.foldl Loaded.loadLat (List.range 4) v
  intro t
  have ht : t = (List.range 4).foldl State.loadLat v := hv
  rw [ht]
  have hsvc {α : Type} (f : Service → α) (hf : ∀ (x : Service) q, f { x with ports := q } = f x) :
      f ((List.range 4).foldl State.loadLat v).svc = f v.svc := (hf _ _).symm.trans (congrArg f h.svc)
  refine ⟨by rw [h.boot]; exact hcause, (hsvc Service.ctrl fun _ _ => rfl).trans hctrl,
    (hsvc Service.keys fun _ _ => rfl).trans hkeys, (hsvc Service.rx fun _ _ => rfl).trans hrx,
    (hsvc Service.grants fun _ _ => rfl).trans hgrants, fun p => ?_, h.doms.trans hdoms, h.active.trans hactive⟩
  have hport := congrArg Port.linkUp (h.port p)
  exact hport.trans (by rw [State.port, hports]; rfl)

end Sys2Proof.Machine
end

section
/-! PROOFS. The obligations on SYS RESET, on the balls that reset and on the release of the internal reset. -/

namespace Sys2Proof.Stated

open Machine

variable {s : State} {m : Master}

/-- RESET of a kind that nothing refuses answers and acts. -/
theorem exec_sysReset {c : Instr} {kind : Nat} (he : exec c s = finish (s.sysReset (masterCode m) kind))
    (hr : Ready s 0x00 m) (hck : (s.resetChecks kind).result = 0) :
    exec c s = finish ((s.answer 0x00 (masterCode m) 0x10 0 true).resetKind kind) := by
  rw [he]
  unfold State.sysReset
  rw [ready_write hr, State.immediate_accepts _ hck]

/-- A pulse on RESET_N that counts as a reset (R482): 1 µs, or from 200 ns on as the free value says. -/
def resetHits (s : State) (held : Nat) : Bool :=
  decide (1000 ≤ held) || (decide (200 ≤ held) && Config.freeInt 9 s.free % 2 == 1)

theorem exec_resetN_hits {low : Bool} {held : Nat} (h : resetHits s held = true) :
    exec (.resetN low held) s = finish ((s.nextFree.por 1).setBoot fun b => { b with resetPin := !low }) := by
  change finish (State.setBoot (if resetHits s held = true then _ else _) _) = _
  rw [if_pos h]

theorem exec_resetN_misses {low : Bool} {held : Nat} (h : resetHits s held = false) :
    exec (.resetN low held) s = finish (s.nextFree.setBoot fun b => { b with resetPin := !low }) := by
  change finish (State.setBoot (if resetHits s held = true then _ else _) _) = _
  rw [if_neg (by rw [h]; decide)]

/-- The internal reset is released (R482, R488): debug level, loads and boot record. -/
theorem exec_resetRelease {size : Fin 32} (hpin : s.boot.resetPin = true) (hstart : s.boot.started = false) :
    exec (.resetRelease size) s =
      finish ((s.setBoot fun b => { b with released := true, started := true, probe := size }).setBudget fun x =>
        { x with pstate := .run }).resetDebug.loadFuses.readBootRecord := by
  change (if s.boot.resetPin = false ∨ s.boot.started = true then finish s else _) = _
  rw [if_neg (by simp [hpin, hstart])]

end Sys2Proof.Stated

namespace Sys2Proof.Settled

open Machine Stated

/-- Settles O38: each kind by what its reset leaves; the answer before it and the end of the command touch none of it. -/
theorem resetCommandsTakeEffect : Obligations.ResetCommandsTakeEffect := by
  unfold Obligations.ResetCommandsTakeEffect
  intro m s hr hidle hopen
  have hbusy : s.busy 0x00 = false := congrArg Option.isSome hidle
  have hck (kind : Nat) (hkind : 1 ≤ kind ∧ kind ≤ 3) (hfree : kind = 3 → s.packetInUse = false) :
      (s.resetChecks kind).result = 0 := by
    rw [Checks.result_eq_zero]
    refine ⟨?_, hbusy, hopen, rfl, rfl, ?_⟩
    · simp [State.resetChecks]; omega
    · by_cases h : kind = 3 <;> simp [State.resetChecks, h, hfree]
  refine ⟨?full, ?islands, fun hfree => ?service⟩
  case full =>
    refine completes_clear (exec_sysReset rfl hr (hck 1 (by decide) fun h => absurd h (by decide))) rfl ?_
    simp only [State.settle_boot, State.settle_active, State.settle_shadow, State.settle_direct, State.settle_nv,
      State.settle_sec, State.settle_budget, State.dom, State.out, State.settle_doms, State.settle_outs]
    exact ⟨rfl, rfl, rfl, rfl, rfl, rfl, rfl, rfl, rfl, rfl, rfl, rfl, fun _ => rfl, fun _ => rfl⟩
  case islands =>
    refine completes_of (exec_sysReset rfl hr (hck 2 (by decide) fun h => absurd h (by decide))) fun t hkept => ?_
    obtain ⟨hstarted, hcause, hosc, hboard, hlc, hlevel, -, hdoms, hchan, hout, hactive⟩ :=
      (s.answer 0x00 (masterCode m) 0x10 0 true).islandsReset_leaves 4
    refine ⟨by rw [hkept.boot]; exact hstarted, by rw [hkept.boot]; exact hcause, by rw [hkept.osc]; exact hosc,
      by rw [hkept.board]; exact congrArg Board.state hboard, by rw [hkept.sec]; exact hlc,
      by rw [hkept.budget]; exact hlevel, fun d => ?_, fun k => by rw [hkept.chan]; exact hchan k,
      fun j => by rw [hkept.out]; exact hout j, fun k => ?_⟩
    · rw [hkept.dom]; exact congrArg (fun l => tget (fun _ => Dom.zero) l d) hdoms
    · rw [hkept.active]; exact (congrArg (fun l => tget cfgReset l k) hactive).trans (tget_keepPages _ _ _)
  case service =>
    refine completes_of (exec_sysReset rfl hr (hck 3 (by decide) fun _ => hfree)) fun t hkept => ?_
    obtain ⟨hcause, hctrl, hkeys, hrx, hgrants, hlink, hdoms, hactive⟩ :=
      (s.answer 0x00 (masterCode m) 0x10 0 true).serviceReset_leaves
    have hsvc := hkept.svc
    refine ⟨by rw [hkept.boot]; exact hcause, by rw [hsvc]; exact hctrl, by rw [hsvc]; exact hkeys,
      by rw [hsvc]; exact hrx, by rw [hsvc]; exact hgrants, fun p => by rw [hkept.port]; exact hlink p, fun d => ?_,
      fun k => ?_⟩
    · rw [hkept.dom]; exact congrArg (fun l => (tget (fun _ => Dom.zero) l d).state) hdoms
    · rw [hkept.active]
      refine (congrArg (fun l => tget cfgReset l k) hactive).trans ((tget_keepPages _ _ _).trans ?_)
      have hsame : (s.answer 0x00 (masterCode m) 0x10 0 true).active = s.active := rfl
      by_cases hB : k / 0x1000 = 0x0B <;> by_cases hC : k / 0x1000 = 0x0C <;> simp [hsame, hB, hC]

/-- Settles O47: a POR leaves what it does not reset, and what the release takes from the boot record follows it. -/
theorem startupEventsTakeEffect : Obligations.StartupEventsTakeEffect := by
  unfold Obligations.StartupEventsTakeEffect
  intro low held size s por
  have hpor (u : State) (cause : Nat) (hu : u.sec = s.sec) (f : Boot → Boot)
      (hf : ∀ b, (f b).released = b.released ∧ (f b).started = b.started ∧ (f b).cause = b.cause) :
      por cause (((u.por cause).setBoot f).settle false) := by
    obtain ⟨hreleased, hstarted, hcause⟩ := hf (u.por cause).boot
    simp only [por, State.settle_boot, State.settle_active, State.settle_shadow, State.settle_direct, State.settle_sec,
      State.settle_budget, State.settle_svc, State.settle_fault]
    have hlc : u.sec.lc = s.sec.lc := congrArg SecUnit.lc hu
    exact ⟨hreleased, hstarted, hcause, rfl, rfl, rfl, hlc, congrArg resetLevel hlc, rfl, rfl, rfl⟩
  have hits (h : resetHits s held = true) : Completes (.resetN low held) s fun t =>
      por 1 t ∧ t.boot.resetPin = (!low) ∧ t.nv.mem = s.nv.mem :=
    completes_clear (exec_resetN_hits h) rfl
      ⟨hpor s.nextFree 1 rfl _ fun _ => ⟨rfl, rfl, rfl⟩, by rw [State.settle_boot]; rfl, by rw [State.settle_nv]; rfl⟩
  have misses (h : resetHits s held = false) :
      Does (.resetN low held) s (s.setBoot fun b => { b with resetPin := !low }) :=
    does_of (exec_resetN_misses h) (Safety.Kept.of_fields rfl : Safety.Kept (s.setBoot fun b => { b with resetPin := !low }) _).same
  refine ⟨?brownOut, fun hlong => hits (by simp [resetHits, hlong]), fun hshort => misses ?short, fun hlo hhi => ?between,
    fun hpin hstart => ?release⟩
  case brownOut =>
    refine completes_clear (w := s.nvCut.por 2) rfl rfl ⟨hpor s.nvCut 2 rfl id fun _ => ⟨rfl, rfl, rfl⟩, ?_⟩
    rw [State.settle_nv]
    refine ⟨_, ?_, rfl⟩
    have hmod := Int.emod_lt_of_pos (Config.freeInt 0x7E0 s.free) (b := (s.nv.flight.length : Int) + 1) (by omega)
    omega
  case short => simp [resetHits]; omega
  case between =>
    cases h : resetHits s held with
    | true =>
      obtain ⟨t, ht, hreset, hpin, -⟩ := hits h
      exact ⟨t, ht, hpin, .inl hreset⟩
    | false =>
      obtain ⟨t, ht, hsame⟩ := misses h
      exact ⟨t, ht, by rw [hsame.boot]; rfl, .inr hsame⟩
  case release =>
    let u := (s.setBoot fun b => { b with released := true, started := true, probe := size }).setBudget fun x =>
      { x with pstate := .run }
    refine completes_of (exec_resetRelease hpin hstart) fun t hkept => ?_
    obtain ⟨g, hdebug⟩ := u.resetDebug_takes
    have hloads := Safety.Loaded.loadFuses u.resetDebug
    have hbound := u.resetDebug.loadFuses_bound
    rw [hdebug] at hloads hbound
    have hcompat := hkept.compat
    rw [hkept.boot, hkept.budget, hkept.sec, hkept.sys, hkept.osc, hkept.pair, hcompat, hdebug]
    exact ⟨congrArg Boot.released hloads.boot, congrArg Boot.started hloads.boot, congrArg Budget.pstate hloads.budget,
      congrArg SecUnit.dbgSet hloads.sec, State.recordCopy_congr s hloads.nv, rfl, rfl, rfl, hbound⟩

end Sys2Proof.Settled
end

section
/-! PROOFS. The online test sweep and BIST (R434, R439 to R443): what a slot finds does not depend on the collector's
counts, and what its step leaves. -/

namespace Sys2Proof.Machine

open Safety

variable (s : State)

/-- The sweep looks at the collector's own figures alone: the units read the same to it in `t`. -/
structure Swept (s t : State) : Prop where
  units : ∃ f c g, t = { s with fault := f, ctr := c, pages := g }
  pend : ∀ p, (t.page p).pend = (s.page p).pend
  lock : ∀ p, (t.page p).lockCmd = (s.page p).lockCmd

namespace Swept

variable {s t u : State}

theorem trans (h : Swept s t) (g : Swept t u) : Swept s u := by
  refine ⟨?_, fun p => (g.pend p).trans (h.pend p), fun p => (g.lock p).trans (h.lock p)⟩
  obtain ⟨f, c, q, rfl⟩ := h.units
  obtain ⟨f', c', q', rfl⟩ := g.units
  exact ⟨_, _, _, rfl⟩

theorem refl (s : State) : Swept s s := ⟨⟨_, _, _, rfl⟩, fun _ => rfl, fun _ => rfl⟩
theorem setFault (s : State) (f : FaultUnit → FaultUnit) : Swept s (s.setFault f) :=
  ⟨⟨_, _, _, rfl⟩, fun _ => rfl, fun _ => rfl⟩
theorem bump (s : State) (p o : Nat) : Swept s (s.bump p o) := ⟨⟨_, _, _, rfl⟩, fun _ => rfl, fun _ => rfl⟩

theorem event (s : State) (p b : Nat) : Swept s (s.event p b) := by
  refine ⟨⟨_, _, _, rfl⟩, fun q => ?_, fun q => ?_⟩
  all_goals
    by_cases h : q = p
    · subst h; simp [State.event]
    · simp [State.event, State.setPage_page, h]

theorem busy (h : Swept s t) (p : Nat) : t.busy p = s.busy p := congrArg Option.isSome (h.pend p)

theorem blocked (h : Swept s t) : t.sweepBlocked = s.sweepBlocked := by
  obtain ⟨f, c, g, rfl⟩ := h.units; rfl
theorem eligible (h : Swept s t) (n : Nat) : t.sweepEligible n = s.sweepEligible n := by
  obtain ⟨f, c, g, rfl⟩ := h.units; rfl
theorem order (h : Swept s t) (n : Nat) : t.sweepOrder n = s.sweepOrder n := by
  obtain ⟨f, c, g, rfl⟩ := h.units; rfl

theorem checks (h : Swept s t) (n code : Nat) (arg : Word) : t.sweepChecks n code arg = s.sweepChecks n code arg := by
  have hbusy := h.busy
  have hlock := h.lock
  obtain ⟨f, c, g, rfl⟩ := h.units
  simp only [State.sweepChecks, State.stampChecks, State.outChecks, State.cellChecks, hbusy, hlock]
  rfl

end Swept

/-- How the step of a slot that may start stands once it has started. -/
def Started (s : State) (n : Nat) (t : State) : Prop :=
  (s.sweepEligible n = false ∨ 119 ≤ n → t.fault.sweepDone = true ∧ t.fault.sweepBusy = false) ∧
  (s.sweepEligible n = true → n < 119 →
    ((s.sweepChecks n (s.sweepOrder n).2.1 (word (s.sweepOrder n).2.2)).result = 0 →
      t.fault.sweepBusy = true ∧ t.busy (s.sweepOrder n).1 = true) ∧
    (¬(s.sweepChecks n (s.sweepOrder n).2.1 (word (s.sweepOrder n).2.2)).result = 0 →
      t.fault.sweepBusy = false ∧ t.fault.sweepRetry = 8000))

/-- The figures of the slot that starting its step leaves alone. -/
structure SlotKept (f g : FaultUnit) : Prop where
  step : g.sweepStep = f.sweepStep
  restart : g.sweepRestart = f.sweepRestart
  rounds : g.sweepRounds = f.sweepRounds

theorem kept_slot {s t : State} (h : Kept s t) : SlotKept s.fault t.fault where
  step := by simpa [faultRest] using congrArg FaultUnit.sweepStep h.fault
  restart := by simpa [faultRest] using congrArg FaultUnit.sweepRestart h.fault
  rounds := by simpa [faultRest] using congrArg FaultUnit.sweepRounds h.fault

theorem kept_sweepWait {s t : State} (h : Kept s t) : t.fault.sweepWait = s.fault.sweepWait := by
  simpa [faultRest] using congrArg FaultUnit.sweepWait h.fault

theorem kept_sweepLate {s t : State} (h : Kept s t) : t.fault.sweepLate = s.fault.sweepLate := by
  simpa [faultRest] using congrArg FaultUnit.sweepLate h.fault

theorem kept_bistShown {s t : State} (h : Kept s t) :
    t.fault.bistResult = s.fault.bistResult ∧ t.fault.bistType = s.fault.bistType :=
  ⟨by simpa [faultRest] using congrArg FaultUnit.bistResult h.fault,
    by simpa [faultRest] using congrArg FaultUnit.bistType h.fault⟩

theorem Started.congr {s u t : State} {n : Nat} (h : Swept s u) (hs : Started u n t) : Started s n t := by
  simpa only [Started, h.eligible, h.order, h.checks] using hs

theorem Started.kept {s t v : State} {n : Nat} (h : Started s n t) (hkept : Kept t v) : Started s n v := by
  have hfault := hkept.fault
  have hdone : v.fault.sweepDone = t.fault.sweepDone := by simpa [faultRest] using congrArg FaultUnit.sweepDone hfault
  have hbusy : v.fault.sweepBusy = t.fault.sweepBusy := by simpa [faultRest] using congrArg FaultUnit.sweepBusy hfault
  have hretry : v.fault.sweepRetry = t.fault.sweepRetry := by simpa [faultRest] using congrArg FaultUnit.sweepRetry hfault
  have hpage (p : Nat) : v.busy p = t.busy p := congrArg Option.isSome (Stated.kept_pend hkept p)
  simpa only [Started, hdone, hbusy, hretry, hpage] using h

theorem State.refuse_fault {p m code r : Nat} : (s.refuse p m code r).fault = s.fault := by
  unfold State.refuse State.noteRefusal
  dsimp only
  split <;> rfl

theorem State.accept_busy (p m code : Nat) (arg : Word) (data : List Word) : (s.accept p m code arg data).busy p = true := by
  rw [State.busy, State.accept_pend]
  rfl

/-- The command of a step is issued, or is due again in a second (R441). -/
theorem State.sweepIssue_leaves {n : Nat} (hfree : s.fault.sweepBusy = false) :
    SlotKept s.fault (s.sweepIssue n).fault ∧
      ((s.sweepChecks n (s.sweepOrder n).2.1 (word (s.sweepOrder n).2.2)).result = 0 →
        (s.sweepIssue n).fault.sweepBusy = true ∧ (s.sweepIssue n).busy (s.sweepOrder n).1 = true) ∧
      (¬(s.sweepChecks n (s.sweepOrder n).2.1 (word (s.sweepOrder n).2.2)).result = 0 →
        (s.sweepIssue n).fault.sweepBusy = false ∧ (s.sweepIssue n).fault.sweepRetry = 8000) := by
  unfold State.sweepIssue
  obtain ⟨p, code, a⟩ := s.sweepOrder n
  dsimp only
  split
  case isTrue h =>
    refine ⟨⟨rfl, rfl, rfl⟩, fun _ => ⟨rfl, ?_⟩, fun hn => absurd h hn⟩
    exact State.accept_busy _ p 3 code (word a) _
  case isFalse h =>
    obtain ⟨u, hu⟩ : ∃ u, (s.setArg p 3 (word a)).refuse p 3 code (s.sweepChecks n code (word a)).result = u := ⟨_, rfl⟩
    have hfault : u.fault = s.fault := hu ▸ State.refuse_fault _
    rw [hu]
    refine ⟨⟨?_, ?_, ?_⟩, fun hz => absurd hz h, fun _ => ⟨?_, rfl⟩⟩
    · exact (congrArg FaultUnit.sweepStep hfault :)
    · exact (congrArg FaultUnit.sweepRestart hfault :)
    · exact (congrArg FaultUnit.sweepRounds hfault :)
    · exact ((congrArg FaultUnit.sweepBusy hfault).trans hfree :)

theorem State.sweepStart_waits (h : s.sweepBlocked = true) :
    s.sweepStart = s.setFault fun f => { f with sweepWait := true } := if_pos h

/-- A step that may start is over at once, runs a test without a command, or issues its command (R439 to R441). -/
theorem State.sweepStart_starts (h : s.sweepBlocked = false) (hfree : s.fault.sweepBusy = false) :
    SlotKept s.fault s.sweepStart.fault ∧ Started s s.fault.sweepStep s.sweepStart := by
  unfold State.sweepStart
  rw [if_neg (by simp [h])]
  split
  case isTrue hnone =>
    exact ⟨⟨rfl, rfl, rfl⟩, fun _ => ⟨rfl, rfl⟩, fun hsome => absurd (hnone.symm.trans hsome) (by decide)⟩
  case isFalse hsome =>
    split
    case isTrue hlast => exact ⟨⟨rfl, rfl, rfl⟩, fun _ => ⟨rfl, rfl⟩, fun _ hlt => absurd hlast (by omega)⟩
    case isFalse hlt =>
      obtain ⟨hkept, hlegal, hrefused⟩ := s.sweepIssue_leaves (n := s.fault.sweepStep) hfree
      exact ⟨hkept, fun hover => absurd hover (by simp [hsome, hlt]), fun _ _ => ⟨hlegal, hrefused⟩⟩

/-- The next slot begins with its step (R440). -/
theorem State.sweepNext_begins : ∃ u : State, s.sweepNext = u.sweepStart ∧ Swept s u ∧
    u.fault.sweepStep = (if s.fault.sweepLen == 0 || s.fault.sweepRestart || s.fault.sweepStep == 126 then 0
      else s.fault.sweepStep + 1) ∧
    u.fault.sweepRestart = false ∧ u.fault.sweepRounds = 0 ∧ u.fault.sweepBusy = false := by
  have cycle (t : State) : Swept t t.cycleEnd := (Swept.setFault t _).trans (Swept.event _ _ _)
  unfold State.sweepNext
  dsimp only
  refine ⟨_, rfl, ?_, rfl, rfl, rfl, rfl⟩
  refine Swept.trans ?_ (Swept.setFault _ _)
  split <;> split
  · exact cycle s
  · exact (Swept.bump _ _ _).trans (cycle _)
  · exact Swept.refl s
  · exact Swept.bump _ _ _

/-! ### BIST (R443) -/

/-- An output as BIST holds it. -/
def heldForBist (o : Out) : Out := { o with held := true, hiz := false }

theorem State.startBist_eq : s.startBist =
    ((List.range 40).foldl (fun s j => s.setOut j heldForBist) s).setFault fun f => { f with bist := true } := by
  unfold State.startBist heldForBist
  rfl

/-- BIST holds every output, and no round runs. -/
theorem State.startBist_holds {j : Nat} (hj : j < 40) : (s.startBist.out j).held = true := by
  have hout (u : State) (h : u.out j = heldForBist (s.out j)) :
      ((u.setFault fun f => { f with bist := true }).out j).held = true := congrArg Out.held h
  rw [s.startBist_eq]
  apply hout
  rw [s.foldl_out (f := heldForBist) (fun s i j => s.setOut_out j i _) (fun _ => rfl), if_pos (by simpa using hj)]

theorem State.startBist_stops : s.startBist.fault.bist = true ∧ s.startBist.roundsRun = false := by
  have h : s.startBist.fault.bist = true := rfl
  exact ⟨h, by simp [State.roundsRun, h]⟩

/-- BIST ends with its result and an ISLANDS reset. -/
theorem State.endBist_leaves {fail : Option Nat} (h : s.fault.bist = true) : (s.endBist fail).fault.bist = false ∧
    (s.endBist fail).fault.bistResult = (if fail.isSome then 2 else 1) ∧
    (s.endBist fail).fault.bistType = fail.getD 0 % 65536 ∧ (s.endBist fail).osc.running = false ∧
    (s.endBist fail).boot.cause = 5 := by
  let u := (s.setFault fun f => { f with
    bistResult := if fail.isSome then 2 else 1, bistType := (fail.getD 0) % 65536 }).event faultPage 7
  have hu : s.endBist fail = u.islandsReset 5 := if_pos h
  obtain ⟨-, hcause, hosc, -, -, -, hfault, -⟩ := u.islandsReset_leaves 5
  rw [hu, hfault]
  exact ⟨rfl, rfl, rfl, hosc, hcause⟩

/-- The pending FAULT command takes effect while its checks still pass. -/
theorem State.faultApply_pending {u : State} {q : CmdPend} (h : (u.page 0x03).pend = some q)
    (ha : (u.faultChecks q.code q.arg).again = 0) : ∃ g, u.faultApply = (match q.code with
      | 1 => { u with pages := g }.setFault fun f =>
          { f with safeCause := tput (fun _ => none) f.safeCause (bits q.arg 27 24) none }
      | 2 => { u with pages := g }.startBist
      | _ => { u with pages := g }.setFault fun f => { f with sweepRestart := true }) := by
  obtain ⟨v, hv, g, rfl⟩ := Stated.settle_of (f := fun q s => match q.code with
      | 1 => s.setFault fun f => { f with safeCause := tput (fun _ => none) f.safeCause (bits q.arg 27 24) none }
      | 2 => s.startBist
      | _ => s.setFault fun f => { f with sweepRestart := true }) h ha
  refine ⟨g, ?_⟩
  rw [State.faultApply, show faultPage = 0x03 from rfl, h]
  exact hv

end Sys2Proof.Machine

namespace Sys2Proof.Settled

open Machine Stated

/-- Settles O42: FAULT commands by what their boundary does; a slot by what its next step finds. -/
theorem sweepAndBistTakeEffect : Obligations.SweepAndBistTakeEffect := by
  unfold Obligations.SweepAndBistTakeEffect
  intro m failType s a d id f standing quiet start issued
  have hbusy (hidle : Idle s 0x03) : s.busy 0x03 = false := congrArg Option.isSome hidle
  refine ⟨fun hr hidle => ⟨fun hcause hstanding => ?ack, fun hoff hquiet => ?bist, fun hmay => ?restart⟩,
    fun hbist => ?ended, fun hen hrun => ⟨?step, fun hlen hfree hdone hwait => ⟨fun hblocked => ?holds, fun hopen => ?retry⟩⟩,
    fun hstill => ?noStep, fun hstill => ?noRetry, ?late⟩
  case ack =>
    have hck : (s.faultChecks 1 a).result = 0 := by
      simp [State.faultChecks, Checks.result_eq_zero, faultPage, hbusy hidle, show s.fault.cause (bits a 27 24) = some (bits a 23 0) from hcause,
        show s.faultHolds (bits a 23 0) = false from hstanding]
    refine waits_submit hr rfl rfl hck (by decide) fun u hpend hstill => ?_
    obtain ⟨g, happly⟩ := u.faultApply_pending hpend (by
      simp [waiting, State.faultChecks, Checks.again_eq_zero, show u.faultHolds (bits a 23 0) = false from hstill])
    rw [happly]
    change tget (fun _ => none) (tput (fun _ => none) u.fault.safeCause (bits a 27 24) none) (bits a 27 24) = none
    exact tget_tput_self
  case bist =>
    have hrole (u : State) (h : quiet u) : (u.pair.role == .active || u.pair.role == .syncing) = false ∧
        (u.pair.role == .solo && !u.allInit) = false := by
      rcases h with ⟨h, hinit⟩ | h
      · rw [h, hinit]; decide
      · rw [h]; exact ⟨rfl, rfl⟩
    have hck : (s.faultChecks 2 a).result = 0 :=
      Checks.result_eq_zero.mpr ⟨rfl, by simp [State.faultChecks, faultPage, hbusy hidle, show s.fault.bist = false from hoff],
        rfl, (hrole s hquiet).1, rfl, (hrole s hquiet).2⟩
    refine waits_submit hr rfl rfl hck (by decide) fun u hpend hstill => ?_
    obtain ⟨g, happly⟩ := u.faultApply_pending hpend (Checks.again_eq_zero.mpr ⟨rfl, hrole u hstill⟩)
    have hstart : u.faultApply = State.startBist { u with pages := g } := happly
    obtain ⟨hon, hstop⟩ := State.startBist_stops { u with pages := g }
    rw [hstart]
    exact ⟨hon, hstop, fun j hj => State.startBist_holds _ hj⟩
  case restart =>
    have hck : (s.faultChecks 3 a).result = 0 :=
      Checks.result_eq_zero.mpr ⟨rfl, hbusy hidle, hmay.1, rfl, rfl, by simp [State.faultChecks, hmay.2]⟩
    refine waits_submit hr rfl rfl hck (by decide) fun u hpend hstill => ?_
    obtain ⟨g, happly⟩ := u.faultApply_pending hpend
      (Checks.again_eq_zero.mpr ⟨hstill.1, rfl, by simp [waiting, State.faultChecks, hstill.2]⟩)
    rw [happly]
    rfl
  case ended =>
    obtain ⟨hover, hresult, htype, hosc, hcause⟩ := s.endBist_leaves (fail := failType) hbist
    refine completes_of rfl fun t hkept => ?_
    obtain ⟨hres, hty⟩ := kept_bistShown hkept
    rw [hkept.bist, hkept.osc, hkept.boot, hres, hty]
    exact ⟨hover, hresult, htype, hosc, hcause⟩
  case step =>
    obtain ⟨u, hnext, hswept, hat, hrestart, hrounds, hfree⟩ := s.sweepNext_begins
    have he : exec .sweepStep s = finish u.sweepStart := by
      rw [← hnext]; exact congrArg finish (if_pos (by simp [hen, hrun]))
    refine completes_of he fun t hkept => ?_
    obtain ⟨hstep, hrestart', hrounds'⟩ := kept_slot hkept
    cases hblocked : s.sweepBlocked with
    | true =>
      have hwaits := u.sweepStart_waits (hswept.blocked.trans hblocked)
      rw [hstep, hrestart', hrounds', kept_sweepWait hkept, hwaits]
      exact ⟨hat, hrestart, hrounds, fun _ => rfl, fun h => absurd h (by decide)⟩
    | false =>
      obtain ⟨hslot, hstarted⟩ := u.sweepStart_starts (hswept.blocked.trans hblocked) hfree
      rw [hstep, hrestart', hrounds', hslot.step, hslot.restart, hslot.rounds]
      refine ⟨hat, hrestart, hrounds, fun h => absurd h (by decide), fun _ => ?_⟩
      have hissued := (Started.congr hswept hstarted).kept hkept
      rw [hat] at hissued
      exact hissued
  case holds =>
    have he : exec .sweepRetry s = finish s.sweepStart :=
      congrArg finish (if_pos (by simp [hen, hrun, show s.fault.sweepLen ≠ 0 from hlen,
        show s.fault.sweepBusy = false from hfree, show s.fault.sweepDone = false from hdone,
        show s.fault.sweepWait = false from hwait]))
    rw [s.sweepStart_waits hblocked] at he
    exact does_of he (Safety.Same.refl _)
  case retry =>
    have he : exec .sweepRetry s = finish s.sweepStart :=
      congrArg finish (if_pos (by simp [hen, hrun, show s.fault.sweepLen ≠ 0 from hlen,
        show s.fault.sweepBusy = false from hfree, show s.fault.sweepDone = false from hdone,
        show s.fault.sweepWait = false from hwait]))
    obtain ⟨hslot, hstarted⟩ := s.sweepStart_starts hopen hfree
    exact completes_of he fun t hkept => ⟨(kept_slot hkept).step.trans hslot.step, hstarted.kept hkept⟩
  case noStep =>
    refine does_of (congrArg finish (if_neg ?_)) (Safety.Same.refl s)
    rcases hstill with h | h <;> simp [h]
  case noRetry =>
    refine does_of (congrArg finish (if_neg ?_)) (Safety.Same.refl s)
    rcases hstill with h | h | h | h | h | h <;> simp_all [f]
  case late =>
    have hlate : s.sweepTooLate.fault.sweepLate = true := by
      unfold State.sweepTooLate
      split
      · assumption
      · exact kept_sweepLate (Safety.Kept.report_corrected _ rfl)
    exact completes_of rfl fun t hkept => (kept_sweepLate hkept).trans hlate

end Sys2Proof.Settled
end

section
/-! PROOFS. The obligation on the events of the pair logic (R311, R312, R318, R322 to R325, R327, R335, R491). -/

namespace Sys2Proof.Safety

open Machine

variable (s : State)

theorem Beside.presetEpoch (d : Nat) (it : DomItem) : Beside s (s.presetEpoch d it) := by
  unfold State.presetEpoch
  dsimp only
  repeat' split
  · exact refl s
  · exact of_eq rfl rfl rfl rfl
  · exact refl s

theorem Beside.presetTime (d : Nat) (it : DomItem) : Beside s (s.presetTime d it) := by
  unfold State.presetTime
  refine (of_eq rfl rfl rfl rfl : Beside s (s.setTdom d _)).trans (foldl (fun u v => ?_) _ _)
  unfold State.gridStep
  split
  · exact of_eq rfl rfl rfl rfl
  · exact refl u

theorem Beside.syncPreset : Beside s s.syncPreset := by
  unfold State.syncPreset
  split
  · refine foldl (fun u i => ?_) _ s
    dsimp only
    split
    · exact refl u
    · split
      · exact (presetEpoch u i.1 i.2).trans (presetTime _ _ _)
      · exact presetEpoch u i.1 i.2
  · exact refl s

end Sys2Proof.Safety

namespace Sys2Proof.Machine

open Safety

variable (s : State)

/-- Word `i` of an arriving record. -/
def recordWord (bs : List Nat) (i : Nat) : Nat := ((recWords (bs.take (bs.length - 4)))[i]?).getD 0

/-- The record's CRC is right. -/
def recordWhole (bs : List Nat) : Prop :=
  44 ≤ bs.length ∧ crc32 (bs.take (bs.length - 4)) = leNat (bs.drop (bs.length - 4))

/-- The record has its mark and its length. -/
def recordFramed (bs : List Nat) : Prop :=
  recordWord bs 0 / 65536 = 0x524D ∧ recordWord bs 5 = bs.length ∧ bs.length % 4 = 0 ∧ bs.length ≤ 6144

/-- The record comes from the partner the device is bound to. -/
def State.fromPartner (bs : List Nat) : Prop :=
  s.pair.bound = true ∧ recordWord bs 8 + recordWord bs 9 * 2 ^ 32 = s.pair.boundUid

/-- The record's RELNAN version fits (R318). -/
def State.versionFits (bs : List Nat) : Prop := nbits (recordWord bs 0) 15 8 = s.relnanMajor ∧
  ((recordWord bs 0 % 256 : Nat) - s.relnanMinor : Int).natAbs ≤ 1

/-- The partner has been heard. -/
def State.heard : State := s.setPair fun p => { p with silent := 0 }

theorem State.coarseOffset_silent (r : Record) : (s.coarseOffset r).pair.silent = s.pair.silent := by
  unfold State.coarseOffset
  split
  · dsimp only
    split <;> rfl
  · rfl

section
variable {s : State} {bs : List Nat}

theorem recordWhole.passes (h : recordWhole bs) :
    ¬(bs.length < 44 ∨ crc32 (bs.take (bs.length - 4)) ≠ leNat (bs.drop (bs.length - 4))) := by
  simpa [recordWhole, not_or] using h

theorem recordFramed.passes (h : recordFramed bs) : ¬(recordWord bs 0 / 65536 ≠ 0x524D ∨
    recordWord bs 5 ≠ bs.length ∨ bs.length % 4 ≠ 0 ∨ 6144 < bs.length) := by
  simpa [recordFramed, not_or] using h

theorem State.versionFits.passes (h : s.versionFits bs) : ¬(nbits (recordWord bs 0) 15 8 ≠ s.relnanMajor ∨
    1 < ((recordWord bs 0 % 256 : Nat) - s.relnanMinor : Int).natAbs) := by
  simpa [State.versionFits, not_or] using h

theorem State.fromPartner.passes (h : s.fromPartner bs) :
    ¬(s.pair.bound = false ∨ recordWord bs 8 + recordWord bs 9 * 2 ^ 32 ≠ s.pair.boundUid) := by
  simpa [State.fromPartner, not_or] using h

variable (hopen : s.pair.fenced = false)
include hopen

theorem State.recordArrives_torn (h : ¬recordWhole bs) : s.recordArrives bs = s.rejectRecord.raise 0x07 0 :=
  (if_neg (by simp [hopen])).trans (if_pos (by
    by_contra hpass
    simp only [not_or, Nat.not_lt, ne_eq, not_not] at hpass
    exact h hpass))

variable (hwhole : recordWhole bs)
include hwhole

theorem State.recordArrives_foreign (h : ¬(recordFramed bs ∧ s.fromPartner bs)) :
    s.recordArrives bs = s.rejectRecord := by
  have hpast := hwhole.passes
  by_cases hframed : recordFramed bs
  · have hstranger : s.pair.bound = false ∨ recordWord bs 8 + recordWord bs 9 * 2 ^ 32 ≠ s.pair.boundUid := by
      by_contra hpass
      simp only [not_or, ne_eq, not_not, Bool.not_eq_false] at hpass
      exact h ⟨hframed, hpass⟩
    exact (if_neg (by simp [hopen])).trans ((if_neg hpast).trans ((if_neg hframed.passes).trans (if_pos hstranger)))
  · have hmisframed : recordWord bs 0 / 65536 ≠ 0x524D ∨ recordWord bs 5 ≠ bs.length ∨ bs.length % 4 ≠ 0 ∨
        6144 < bs.length := by
      by_contra hpass
      simp only [not_or, ne_eq, not_not, Nat.not_lt] at hpass
      exact hframed hpass
    exact (if_neg (by simp [hopen])).trans ((if_neg hpast).trans (if_pos hmisframed))

variable (hframed : recordFramed bs) (hpartner : s.fromPartner bs)
include hframed hpartner

/-- A record of the partner: its version is judged, then it is read. -/
theorem State.recordArrives_partner : s.recordArrives bs =
    if nbits (recordWord bs 0) 15 8 ≠ s.relnanMajor ∨
        1 < ((recordWord bs 0 % 256 : Nat) - s.relnanMinor : Int).natAbs then
      (s.heard.event 0x07 5).rejectRecord.setPair fun p => { p with
        verOk := false, inbox := none
        verOnly := some (recordWord bs 4 % 4, recordWord bs 8 + recordWord bs 9 * 2 ^ 32) }
    else match parseRecord (recWords (bs.take (bs.length - 4))) with
      | none => s.heard.rejectRecord
      | some r => (s.heard.coarseOffset r).setPair fun p => { p with
        inbox := some r, verOnly := none
        quietLeft := if (recordWord bs 4).testBit 7 then 24 else p.quietLeft } :=
  (if_neg (by simp [hopen])).trans ((if_neg hwhole.passes).trans ((if_neg hframed.passes).trans
    (if_neg hpartner.passes)))

theorem State.recordArrives_misfit (h : ¬s.versionFits bs) : s.recordArrives bs =
    (s.heard.event 0x07 5).rejectRecord.setPair fun p => { p with
      verOk := false, inbox := none
      verOnly := some (recordWord bs 4 % 4, recordWord bs 8 + recordWord bs 9 * 2 ^ 32) } := by
  refine (State.recordArrives_partner hopen hwhole hframed hpartner).trans (if_pos ?_)
  by_contra hpass
  simp only [not_or, ne_eq, not_not, Nat.not_lt] at hpass
  exact h hpass

variable (hversion : s.versionFits bs)
include hversion

theorem State.recordArrives_unread (h : parseRecord (recWords (bs.take (bs.length - 4))) = none) :
    s.recordArrives bs = s.heard.rejectRecord := by
  rw [State.recordArrives_partner hopen hwhole hframed hpartner, if_neg hversion.passes, h]

theorem State.recordArrives_read {r : Record} (h : parseRecord (recWords (bs.take (bs.length - 4))) = some r) :
    s.recordArrives bs = (s.heard.coarseOffset r).setPair fun p => { p with
      inbox := some r, verOnly := none
      quietLeft := if (recordWord bs 4).testBit 7 then 24 else p.quietLeft } := by
  rw [State.recordArrives_partner hopen hwhole hframed hpartner, if_neg hversion.passes, h]

end

/-- A step of SYNCING before the last leads to the next (R327). -/
theorem State.syncNext_step (h : s.pair.syncStep < 6) :
    s.syncNext.pair = { s.pair with syncStep := s.pair.syncStep + 1, syncRounds := 0 } := by
  let u := s.setPair fun p => { p with syncStep := s.pair.syncStep + 1, syncRounds := 0 }
  have hnext : s.syncNext = if s.pair.syncStep = 1 then u.startPclk else if s.pair.syncStep = 5 then u.syncPreset else u :=
    if_neg (by omega)
  have hbeside : Beside u s.syncNext := by
    rw [hnext]
    split
    · exact Beside.startPclk u
    · split
      · exact Beside.syncPreset u
      · exact Beside.refl u
  exact hbeside.pair

/-- The partner is marked as lost, once. -/
def State.markLost : State :=
  if s.pair.lost then s else ((s.setPair fun p => { p with lost := true }).bump pairPage 0xA20).event pairPage 1

theorem State.markLost_pair : s.markLost.pair = { s.pair with lost := true } := by
  unfold State.markLost
  split
  case isTrue h => rw [← h]
  case isFalse => rfl

theorem State.losePartner_syncing (h : s.pair.role = .syncing) : s.losePartner = s.goSolo := by
  simp [State.losePartner, h]

theorem State.losePartner_active (h : s.pair.role = .active) : s.losePartner = s.markLost := by
  simp only [State.losePartner, h]; rfl

theorem State.losePartner_standby (h : s.pair.role = .standby) :
    s.losePartner = if s.autoEn 4 = true then s.markLost.takeOver 4 else s.markLost := by
  simp only [State.losePartner, h]; rfl

/-- What makes the waiting cause request a castling again (R325). -/
def State.requestsAgain : Prop := s.pair.waiting ≠ 0 ∧ s.causeHolds s.pair.waiting = true ∧ s.pair.role = .active ∧
  s.pair.verOk = true ∧ s.autoEn s.pair.waiting = true

/-- No cause waits any more. -/
def State.unwaited : State := s.setPair fun p => { p with waiting := 0 }

theorem State.castleNext_takes (hbusy : s.pair.castleBusy = false) (hwait : s.pair.waiting ≠ 0) : s.castleNext =
    if s.causeHolds s.pair.waiting = true then s.unwaited.castleRequest s.pair.waiting else s.unwaited :=
  if_neg (by simp [hbusy, hwait])

theorem State.castleNext_again (hbusy : s.pair.castleBusy = false) (h : s.requestsAgain) : s.castleNext.pair =
    { s.pair with
      waiting := 0, castleReq := true, castleBusy := true, reqLeft := 64, cause := s.pair.waiting
      lastCause := s.pair.waiting } := by
  obtain ⟨hwait, hholds, hrole, hok, hauto⟩ := h
  rw [s.castleNext_takes hbusy hwait, if_pos hholds, s.unwaited.castleRequest_requests hrole hok hauto hbusy]
  rfl

theorem State.castleNext_rests (hbusy : s.pair.castleBusy = false) (h : ¬s.requestsAgain) :
    s.castleNext.pair.castleReq = s.pair.castleReq ∧ s.castleNext.pair.castleBusy = false := by
  by_cases hwait : s.pair.waiting = 0
  · rw [State.castleNext, if_pos (.inr hwait)]
    exact ⟨rfl, hbusy⟩
  rw [s.castleNext_takes hbusy hwait]
  by_cases hholds : s.causeHolds s.pair.waiting = true
  · have hbar : s.pair.role ≠ .active ∨ s.pair.verOk = false ∨ s.autoEn s.pair.waiting = false := by
      by_contra hmay
      simp only [not_or, not_not, Bool.not_eq_false] at hmay
      exact h ⟨hwait, hholds, hmay⟩
    have hbarred : s.unwaited.castleRequest s.pair.waiting = s.unwaited := if_pos hbar
    rw [if_pos hholds, hbarred]
    exact ⟨rfl, hbusy⟩
  · rw [if_neg hholds]
    exact ⟨rfl, hbusy⟩

/-- The castling request has lapsed. -/
def State.castleLapsed : State :=
  (s.setPair fun p => { p with castleReq := false, castleBusy := false, reqLeft := 0 }).event pairPage 6

theorem State.castleLapse_next (h : s.pair.castleReq = true) : s.castleLapse = s.castleLapsed.castleNext := if_pos h

end Sys2Proof.Machine

namespace Sys2Proof.Stated

open Machine

theorem exec_partnerLost {s : State} (hbound : s.pair.bound = true) (hlost : s.pair.lost = false) :
    exec .partnerLost s = finish s.losePartner := congrArg finish (if_pos ⟨hbound, hlost⟩)

end Sys2Proof.Stated

namespace Sys2Proof.Settled

open Machine Stated Safety

/-- Settles O24: an arriving record by the checks of R318 in their order, the other events by what each leaves of the pair
logic, which the work they start in other units does not touch. -/
theorem pairEventsTakeEffect : Obligations.PairEventsTakeEffect := by
  unfold Obligations.PairEventsTakeEffect
  intro bytes count coarse s bs n ws g whole p framed partner version
  refine ⟨fun hfenced => ?fenced, fun hopen => ⟨fun hwhole hframed hpartner hversion => ⟨fun r hr => ?good, fun hr => ?unread⟩,
    fun hwhole hframed hpartner hversion => ?version, fun hwhole hforeign => ?foreign, fun hnative hdamaged => ?damaged⟩,
    ?set, ?lock, ?down, ?taken, fun hrole hready => ⟨fun hstep => ?next, fun hstep => ?last⟩,
    fun hbound hlost => ⟨fun hrole => ?alone, fun hrole hauto => ?takes, fun hrole hauto => ?marked, fun hrole => ?noted⟩,
    fun hreq => ?fail, fun hstandby haligned hnear => ?aligned, fun haligned hfar => ?loss,
    fun hnative => ⟨fun hrole hup => ?pclk, fun hrole hwas => ?range⟩, fun k hwait hdefers => ?wait⟩
  case set => exact does_of rfl (Same.refl _)
  case lock => exact does_of rfl (Same.refl _)
  case down => exact does_of rfl (Same.refl _)
  case taken => exact does_of rfl (Same.refl _)
  case fenced => exact does_of (w := s) (congrArg finish (if_pos hfenced)) (Same.refl s)
  case good =>
    refine completes_of (congrArg finish (State.recordArrives_read hopen hwhole hframed hpartner hversion hr))
      fun t hkept => ?_
    rw [hkept.pair]
    exact ⟨rfl, s.heard.coarseOffset_silent r⟩
  case unread =>
    refine completes_of (congrArg finish (State.recordArrives_unread hopen hwhole hframed hpartner hversion hr))
      fun t hkept => ?_
    rw [hkept.pair]
    rfl
  case version =>
    refine completes_of (congrArg finish (State.recordArrives_misfit hopen hwhole hframed hpartner hversion))
      fun t hkept => ?_
    rw [hkept.pair]
    exact ⟨rfl, rfl, rfl⟩
  case foreign =>
    exact does_of (congrArg finish (State.recordArrives_foreign hopen hwhole hforeign)) (Kept.bump s 0x07 0xA18).same
  case damaged =>
    refine reports_of (congrArg finish (State.recordArrives_torn hopen hdamaged))
      ((Kept.bump s 0x07 0xA18).reported.trans (Reported.report _ _ hnative))
  case next =>
    have hexec : exec .syncStep s = finish s.syncNext := congrArg finish (if_pos ⟨hrole, hready⟩)
    refine completes_of hexec fun t hkept => ?_
    rw [hkept.pair, s.syncNext_step hstep]
    exact ⟨hrole, rfl⟩
  case last =>
    have hexec : exec .syncStep s = finish s.syncNext := congrArg finish (if_pos ⟨hrole, hready⟩)
    have hnext : s.syncNext = s.roleTo .standby := if_pos hstep.ge
    refine completes_of hexec fun t hkept => ?_
    rw [hkept.pair, hnext, State.roleTo_role]
  case alone =>
    refine completes_of (exec_partnerLost hbound hlost) fun t hkept => ?_
    rw [hkept.pair, s.losePartner_syncing hrole]
    exact s.goSolo_leaves.1
  case takes =>
    refine completes_of (exec_partnerLost hbound hlost) fun t hkept => ?_
    obtain ⟨hactive, hcause, -, -, hgone⟩ := s.markLost.takeOver_leaves 4
    rw [hkept.pair, s.losePartner_standby hrole, if_pos (show s.autoEn 4 = true from hauto)]
    exact ⟨hactive, hgone.trans (congrArg PairUnit.lost s.markLost_pair), hcause⟩
  case marked =>
    refine completes_of (exec_partnerLost hbound hlost) fun t hkept => ?_
    rw [hkept.pair, s.losePartner_standby hrole, if_neg (fun h => Bool.noConfusion (h.symm.trans hauto)), s.markLost_pair]
    exact ⟨hrole, rfl⟩
  case noted =>
    refine completes_of (exec_partnerLost hbound hlost) fun t hkept => ?_
    rw [hkept.pair, s.losePartner_active hrole, s.markLost_pair]
    exact ⟨hrole, rfl⟩
  case fail =>
    have hexec : exec .castleFail s = finish s.castleLapsed.castleNext := congrArg finish (s.castleLapse_next hreq)
    refine completes_of hexec fun t hkept => ?_
    rw [hkept.pair]
    refine ⟨s.castleLapsed.castleNext_rests rfl, fun hagain => ?_⟩
    rw [s.castleLapsed.castleNext_again rfl hagain]
    exact ⟨rfl, rfl, rfl, rfl⟩
  case aligned =>
    have hexec : exec .aligned s = finish (s.setAligned true) := congrArg finish (if_pos ⟨hstandby, haligned, hnear⟩)
    refine completes_of hexec fun t hkept => ?_
    rw [hkept.pair, State.setAligned_pair]
  case loss =>
    have hexec : exec .alignLoss s = finish (s.setAligned false) := congrArg finish (if_pos ⟨haligned, hfar⟩)
    refine completes_of hexec fun t hkept => ?_
    rw [hkept.pair, State.setAligned_pair]
  case pclk =>
    let u := (s.setAligned false).setPair fun p => { p with pclkSilent := max 2 p.pclkSilent }
    have hexec : exec .pairPclkLoss s = finish (u.raise pairPage 3) := congrArg finish (if_pos ⟨hrole, hup⟩)
    have hreport := Reported.report u { page := pairPage, bit := 3 } ((s.setAligned_leaves false).2.2.trans hnative)
    refine completes_of hexec fun t hkept => ?_
    have haligned : t.pair.aligned = u.pair.aligned := by rw [hkept.pair, ← hreport.pair]; rfl
    have hsilent : t.pair.pclkSilent = u.pair.pclkSilent := by rw [hkept.pair, ← hreport.pair]; rfl
    exact ⟨haligned, hsilent ▸ le_max_left 2 _⟩
  case range =>
    let u := s.setPair fun p => { p with rangeBad := max 64 p.rangeBad }
    have hexec : exec .pairAlignRange s = finish (u.raise pairPage 4) := congrArg finish (if_pos ⟨hrole, hwas⟩)
    have hreport := Reported.report u { page := pairPage, bit := 4 } hnative
    refine completes_of hexec fun t hkept => ?_
    have hrange : t.pair.rangeBad = u.pair.rangeBad := by rw [hkept.pair, ← hreport.pair]; rfl
    exact hrange ▸ le_max_left 64 _
  case wait =>
    have hexec : exec .pairWait s = finish s.settleRole := by
      change finish (match s.boot.pairWait with | some (_ + 1) => if s.defers then s.settleRole else s | _ => s) = _
      simp [hwait, hdefers]
    refine completes_of hexec fun t hkept => ?_
    rw [hkept.boot]
    rfl

end Sys2Proof.Settled
end

section
/-! PROOFS. The obligation on the host frame queues (R340). -/

namespace Sys2Proof.Machine

theorem length_leBytes (k n : Nat) : (leBytes k n).length = k := by
  induction k generalizing n with
  | zero => rfl
  | succ k ih => rw [leBytes, List.length_cons, ih]

theorem length_beBytes (k n : Nat) : (beBytes k n).length = k := by
  rw [beBytes, List.length_reverse, length_leBytes]

variable {s : State} {v : Word} {n p : Nat} {bs : List Nat} {lost : Bool}

theorem State.writeTx_idle (h : s.svc.tx = none) : s.writeTx v = s := by rw [State.writeTx, h]

/-- A word that does not complete its frame joins it. -/
theorem State.writeTx_more (h : s.svc.tx = some (n, p, bs, lost)) (hlen : bs.length + 4 < n) : s.writeTx v =
    s.setSvc fun x => { x with
      tx := some (n, p, bs ++ beBytes 4 v.toNat, lost || decide (s.txFree < min 4 (n - bs.length))) } := by
  have hlength : (bs ++ beBytes 4 v.toNat).length < n := by simpa [length_beBytes] using hlen
  simp only [State.writeTx, h, List.take_of_length_le hlength.le, if_pos hlength]

/-- The last word of a frame queues it, unless a word was lost. -/
theorem State.writeTx_last (h : s.svc.tx = some (n, p, bs, lost)) (hlen : n ≤ bs.length + 4) : s.writeTx v =
    s.setSvc fun x => { x with
      tx := none
      txQueue := if lost || decide (s.txFree < min 4 (n - bs.length)) then x.txQueue
        else x.txQueue ++ [(p, (bs ++ beBytes 4 v.toNat).take n)] } := by
  have hlength : ¬((bs ++ beBytes 4 v.toNat).take n).length < n := by
    simp only [List.length_take, List.length_append, length_beBytes]
    omega
  simp only [State.writeTx, h, if_neg hlength]

end Sys2Proof.Machine

namespace Sys2Proof.Settled

open Machine Stated Safety

/-- Settles O28: a read takes the word at the place in the head frame, a write adds a word to the frame under way. -/
theorem hostQueuesCarryFrames : Obligations.HostQueuesCarryFrames := by
  unfold Obligations.HostQueuesCarryFrames
  intro m v s n p top
  refine ⟨fun hanswers => ⟨fun hempty => ?empty, fun k bs l hrx => ?word⟩, fun hready => ⟨fun hpop => ?pop, ?start,
    fun hidle => ?idle, fun len q bs lost htx => ⟨fun hmore => ?more, fun hlast => ?last⟩⟩⟩
  case empty =>
    refine completes_of (congrArg finish (answers_read hanswers)) fun t hkept => ?_
    have hread : s.readRx = (0, s) := by rw [State.readRx, hempty]
    rw [hkept.sys]
    simp only [hread]
  case word =>
    refine completes_of (congrArg finish (answers_read hanswers)) fun t hkept => ?_
    rw [hkept.sys, hkept.svc]
    simp only [State.readRx, hrx]
    exact ⟨rfl, trivial⟩
  case pop => exact does_of (congrArg finish ((ready_write hready).trans (if_pos hpop))) (Same.refl _)
  case start => exact does_of (congrArg finish (ready_write hready)) (Same.refl _)
  case idle =>
    exact does_of (congrArg finish ((ready_write hready).trans (State.writeTx_idle hidle))) (Same.refl _)
  case more =>
    exact does_of (congrArg finish ((ready_write hready).trans (State.writeTx_more htx hmore))) (Same.refl _)
  case last =>
    exact does_of (congrArg finish ((ready_write hready).trans (State.writeTx_last htx hlast))) (Same.refl _)

end Sys2Proof.Settled
end

section
/-! PROOFS. The obligation on PCIe and the test port (R381, R382, R406, R471, R484). -/

namespace Sys2Proof.Machine

open Safety

variable (s : State)

theorem State.islandsReset_tap (cause : Nat) : (s.islandsReset cause).sec.tap = s.sec.tap := by
  obtain ⟨v, age, hreset, htap⟩ : ∃ (v : State) (age : Int),
      s.islandsReset cause = v.resetDebug.loadFuses.presetAge age ∧ v.sec.tap = s.sec.tap := by
    obtain ⟨g, hdrop⟩ := s.dropProposals_pages
    unfold State.islandsReset
    rw [hdrop]
    exact ⟨_, _, rfl, rfl⟩
  obtain ⟨g, hdebug⟩ := v.resetDebug_takes
  calc (s.islandsReset cause).sec.tap = v.resetDebug.loadFuses.sec.tap := by rw [hreset]; rfl
    _ = v.resetDebug.sec.tap := congrArg SecUnit.tap (Loaded.loadFuses _).sec
    _ = s.sec.tap := by rw [hdebug]; exact htap

theorem State.tapLoad_tap (ir : TapIr) : (s.tapLoad ir).sec.tap = ir := by
  unfold State.tapLoad
  dsimp only
  split
  · exact State.islandsReset_tap _ 6
  · rfl

/-- The endpoint takes requests: registers answer, and PERST_N is high. -/
theorem State.pcie_passes (hup : s.boot.released = true) (hperst : s.sys.perst = false) :
    ¬(s.boot.released = false ∨ s.sys.perst = true) := by simp [hup, hperst]

theorem State.pcieLink_changes {up : Bool} (h : s.sys.pcieUp ≠ up) : s.pcieLink up =
    (s.setSys fun x => { x with
      pcieUp := up, pcieSpeed := if up then 3 else 0, pcieWidth := if up then 2 else 0 }).event sysPage 3 := if_neg h

theorem State.pcieLink_up (up : Bool) : (s.pcieLink up).sys.pcieUp = up := by
  by_cases h : s.sys.pcieUp = up
  · rw [State.pcieLink, if_pos h, h]
  · rw [s.pcieLink_changes h]; rfl

end Sys2Proof.Machine

namespace Sys2Proof.Settled

open Machine Stated Safety

/-- Settles O33: each request, configuration request and test port instruction by its branch. -/
theorem linksAndTestPortAct : Obligations.LinksAndTestPortAct := by
  unfold Obligations.LinksAndTestPortAct
  intro q up dw addr ir v s o
  refine ⟨fun hreleased hperst => ⟨fun l hl => ?writes, fun hnone => ?reads, fun hchange => ?link,
      fun hwait => ⟨?retryRead, ?retryMsi⟩, fun hcfg => ⟨?cfgRead, ?cfgMsi⟩⟩, fun hoff => ⟨?offRequest, ?offCfg, ?offLink⟩,
    rfl, rfl, ?low, ?high, fun hallowed hdrives => ?takes, fun hbarred => ?bypass, ?tapRead, ?tapWrite⟩
  case writes =>
    refine does_of (w := s.pcieWrites o l) (congrArg finish ((if_neg (s.pcie_passes hreleased hperst)).trans ?_)) (Same.refl _)
    rw [hl]
  case reads =>
    have hrequest : s.pcieRequest q = State.setSys (State.pcieReads o q.count s).2 fun x => { x with
        reply := (State.pcieReads o q.count s).1 } := (if_neg (s.pcie_passes hreleased hperst)).trans (by rw [hnone])
    refine completes_of (congrArg finish hrequest) fun t hkept => ?_
    rw [hkept.sys]
    rfl
  case link =>
    have hpass : ¬(s.boot.released = false ∨ (s.sys.perst = true ∧ up = true)) := by simp [hreleased, hperst]
    exact does_of (congrArg finish ((if_neg hpass).trans (s.pcieLink_changes hchange))) (Kept.event _ _ _).same
  case retryRead =>
    exact does_of (congrArg finish ((if_neg (s.pcie_passes hreleased hperst)).trans (if_pos hwait))) (Same.refl _)
  case retryMsi =>
    exact does_of (congrArg finish ((if_neg (s.pcie_passes hreleased hperst)).trans (if_pos hwait))) (Same.refl _)
  case cfgRead =>
    have hready : ¬s.sys.cfgReady = false := by simp [hcfg]
    refine completes_of (congrArg finish ((if_neg (s.pcie_passes hreleased hperst)).trans (if_neg hready)))
      fun t hkept => ?_
    rw [hkept.sys]
    exact ⟨rfl, rfl⟩
  case cfgMsi =>
    have hready : ¬s.sys.cfgReady = false := by simp [hcfg]
    exact does_of (congrArg finish ((if_neg (s.pcie_passes hreleased hperst)).trans (if_neg hready))) (Same.refl _)
  case offRequest => exact does_of (congrArg finish (if_pos hoff)) (Same.refl s)
  case offCfg => exact does_of (congrArg finish (if_pos hoff)) (Same.refl s)
  case offLink =>
    have hoff' : s.boot.released = false ∨ (s.sys.perst = true ∧ true = true) := hoff.imp_right fun h => ⟨h, rfl⟩
    exact does_of (congrArg finish (if_pos hoff')) (Same.refl s)
  case low =>
    refine completes_of (w := ((s.pcieLink false).setSys fun x => { x with msiEnable := false }).setSys fun x => { x with
      perst := true }) rfl fun t hkept => ?_
    rw [hkept.sys]
    exact ⟨rfl, s.pcieLink_up false, rfl⟩
  case high => exact does_of rfl (Same.refl _)
  case takes =>
    have hmay : ¬s.tapAllowed ir = false := by simp [hallowed]
    have hfree : ¬(tapDrives ir && s.sec.tap != ir && !s.scanFree) = true := by
      rcases hdrives with h | h | h <;> simp [h]
    have hload : s.tapInstruction ir = if ir = .idcode then (s.tapLoad ir).setSys fun x => { x with reply := [0x132409CB] }
        else s.tapLoad ir := (if_neg hmay).trans (if_neg hfree)
    refine completes_of (congrArg finish hload) fun t hkept => ?_
    rw [hkept.sec, hkept.sys]
    refine ⟨?_, fun hid => by rw [if_pos hid]; rfl⟩
    split
    · exact s.tapLoad_tap ir
    · exact s.tapLoad_tap ir
  case bypass =>
    have hload : s.tapInstruction ir = if (s.tapLoad .bypass).boot.released = true then (s.tapLoad .bypass).tpDenied
        else s.tapLoad .bypass := if_pos hbarred
    refine completes_of (congrArg finish hload) fun t hkept => ?_
    rw [hkept.sec]
    split
    · exact s.tapLoad_tap .bypass
    · exact s.tapLoad_tap .bypass
  case tapRead =>
    refine completes_of (w := (s.readAt 2 addr).2.setSys fun x => { x with reply := [(s.readAt 2 addr).1] }) rfl
      fun t hkept => ?_
    rw [hkept.sys]
    rfl
  case tapWrite => exact does_of rfl (Same.refl _)

end Sys2Proof.Settled
end

section
/-! PROOFS. The obligation on the BUDGET commands (R368, R377, R506). -/

namespace Sys2Proof.Machine

open Safety

variable (s : State) {k j : Nat}

/-- A change of state of a channel leaves the other channels alone. -/
theorem State.chTo_chan_other {st : ChState} (h : j ≠ k) : (s.chTo k st).chan j = s.chan j := by
  have habort : (s.abortTest k).chan j = s.chan j := by
    unfold State.abortTest
    split
    · exact (State.setChan_chan s j k fun c => { c with test := none, testResult := 3 }).trans (if_neg h)
    · rfl
  unfold State.chTo
  split
  · rfl
  · exact ((State.setChan_chan _ _ _ _).trans (if_neg h)).trans habort

/-- A channel whose island stops is OFF. -/
def State.stopChan (e : Nat × Chan) : State := (s.chTo e.1 .off).setChan e.1 Chan.stopped

theorem State.stopChan_state (e : Nat × Chan) :
    ((s.stopChan e).chan j).state = if j = e.1 then .off else (s.chan j).state := by
  unfold State.stopChan
  rw [State.setChan_chan]
  split
  · rfl
  case isFalse h => rw [s.chTo_chan_other h]

/-- Every channel of a table that is stopped is OFF. -/
theorem State.stopChans_state (l : Table Chan) : ((l.foldl State.stopChan s).chan j).state =
    if j ∈ l.map Prod.fst then .off else (s.chan j).state := by
  induction l generalizing s with
  | nil => rfl
  | cons e l ih =>
    rw [List.foldl_cons, ih, s.stopChan_state, List.map_cons]
    by_cases h : j = e.1
    · rw [if_pos (List.mem_cons.mpr (.inl h)), if_pos h, ite_self]
    · rw [if_neg h]
      exact if_congr (by simp [h]) rfl rfl

/-- A key without an entry reads the default. -/
theorem tget_absent {α : Type} {d : Nat → α} {t : Table α} (h : j ∉ t.map Prod.fst) : tget d t j = d j := by
  induction t with
  | nil => rfl
  | cons e l ih =>
    simp only [List.map_cons, List.mem_cons, not_or] at h
    rw [tget, if_neg h.1, ih h.2]

theorem State.stopAll_off : ((s.chans.foldl State.stopChan s).chan j).state = .off := by
  rw [s.stopChans_state]
  by_cases h : j ∈ s.chans.map Prod.fst
  · rw [if_pos h]
  · rw [if_neg h, State.chan, tget_absent h]; rfl

theorem State.foldl_chans {α : Type} {f : State → α → State} (hf : ∀ u a, (f u a).chans = u.chans) (l : List α)
    (s : State) : (l.foldl f s).chans = s.chans := by
  induction l generalizing s with
  | nil => rfl
  | cons a l ih => exact (ih _).trans (hf s a)

/-- The channels stop, once pending commands are dropped. -/
def State.chansStopped : State :=
  let u := s.pages.foldl (fun (s : State) e => s.dropCommand e.1) s
  u.chans.foldl State.stopChan u

/-- The recovered-clock inputs stop. -/
def State.timsStopped : State := s.tims.foldl (fun (s : State) e => s.setTim e.1 Tim.stopped) s

/-- The outputs stop, held. -/
def State.outsStopped : State := (List.range 40).foldl (fun (s : State) (j : Nat) => s.setOut j fun o => { Out.zero with
  held := true, pathDly := o.pathDly, verifyErr := o.verifyErr, verifyResult := o.verifyResult }) s

/-- The packet ports stop. -/
def State.portsStopped : State := (List.range 4).foldl (fun (s : State) (p : Nat) => s.setPort p fun x =>
  { Port.zero with txLat := x.txLat, rxLat := x.rxLat }) s

theorem State.enterDormant_takes : ∃ age t p v f, s.enterDormant =
    { s.chansStopped.timsStopped.outsStopped.portsStopped with
      osc := { Osc.zero with ageNow := age }, quals := [], syns := [], links := [], board := .zero, time := t, pair := p
      svc := v, fault := f } := ⟨_, _, _, _, _, rfl⟩

/-- DORMANT stops the islands: the timebase, the board and the links as after reset, every channel OFF (R368, R506). -/
theorem State.enterDormant_leaves : s.enterDormant.osc.running = false ∧ s.enterDormant.board = .zero ∧
    s.enterDormant.links = [] ∧ ∀ j, (s.enterDormant.chan j).state = .off := by
  obtain ⟨age, t, p, v, f, heq⟩ := s.enterDormant_takes
  have htims (u : State) : u.timsStopped.chans = u.chans := by
    unfold State.timsStopped
    refine State.foldl_chans ?_ _ u
    exact fun _ _ => rfl
  have houts (u : State) : u.outsStopped.chans = u.chans := by
    unfold State.outsStopped
    refine State.foldl_chans ?_ _ u
    exact fun _ _ => rfl
  have hports (u : State) : u.portsStopped.chans = u.chans := by
    unfold State.portsStopped
    refine State.foldl_chans ?_ _ u
    exact fun _ _ => rfl
  have hchans : s.enterDormant.chans = s.chansStopped.chans := by
    obtain ⟨w, hw, hchans⟩ : ∃ w, s.chansStopped.timsStopped.outsStopped.portsStopped = w ∧
        w.chans = s.chansStopped.chans := ⟨_, rfl, by rw [hports, houts, htims]⟩
    rw [heq, hw]
    exact hchans
  refine ⟨congrArg (fun x => Osc.running (State.osc x)) heq, congrArg State.board heq, congrArg State.links heq, fun j => ?_⟩
  rw [State.chan, hchans]
  exact State.stopAll_off _

/-- A change of PSTATE to any state but SURVIVAL, which may request a castling. -/
theorem State.pstateTo_leaves {p : PState} (h : p ≠ .survival) : ∃ g, s.pstateTo p =
    { s with pages := g, budget := { s.budget with pstate := p } } := by
  unfold State.pstateTo
  split
  case isTrue hp => exact ⟨s.pages, by rw [← hp]⟩
  case isFalse => exact ⟨_, if_neg (fun hs => h hs.1)⟩

theorem State.pstateTo_run (h : s.budget.pstate ≠ .run) :
    s.pstateTo .run = (s.event budPage 0).setBudget fun b => { b with pstate := .run } :=
  (if_neg h).trans (if_neg fun hs => absurd hs.1 (by decide))

theorem State.pstateTo_dormant (w : State) (hosc : w.osc.running = false) (hboard : w.board = .zero) (hlinks : w.links = [])
    (hchans : ∀ j, (w.chan j).state = .off) : (w.pstateTo .dormant).budget.pstate = .dormant ∧
    (w.pstateTo .dormant).osc.running = false ∧ (w.pstateTo .dormant).board.state = .noBook ∧
    (w.pstateTo .dormant).links = [] ∧ ∀ j, ((w.pstateTo .dormant).chan j).state = .off := by
  obtain ⟨g, hstate⟩ := w.pstateTo_leaves (p := .dormant) (by decide)
  rw [hstate]
  exact ⟨rfl, hosc, congrArg Board.state hboard, hlinks, hchans⟩

/-- The pending DORMANT takes effect while its checks still pass. -/
theorem State.budgetApply_pending {u : State} {q : CmdPend} (hpend : (u.page 0x02).pend = some q)
    (h : (u.budgetChecks q.code).again = 0) : ∃ v : State, u.budgetApply = v.enterDormant.pstateTo .dormant := by
  obtain ⟨v, hv, -⟩ := Stated.settle_of (f := fun _ w => w.enterDormant.pstateTo .dormant) hpend h
  refine ⟨v, ?_⟩
  rw [State.budgetApply, show budPage = 0x02 from rfl, hpend]
  exact hv

/-- DORMANT finds only a busy page in its way. -/
theorem State.budgetChecks_dormant {u : State} (h : (u.page 0x02).lockCmd = false ∧ u.pair.role = .solo ∧
    (u.budget.pstate = .run ∨ u.budget.pstate = .reduced) ∧ u.allInit = true ∧ (∀ j < 40, (u.out j).state = .off) ∧
    u.board.bookState ≠ .verifying ∧ u.board.bookState ≠ .activating) : u.budgetChecks 1 = { busy := u.busy 0x02 } := by
  obtain ⟨hopen, hrole, hlevel, hinit, houts, hverify, hactivate⟩ := h
  have hlevel' : (u.budget.pstate == .run || u.budget.pstate == .reduced) = true := by
    rcases hlevel with h | h <;> simp [h]
  simpa [State.budgetChecks, show budPage = 0x02 from rfl, hopen, hrole, hlevel', hinit, hverify, hactivate] using houts

end Sys2Proof.Machine

namespace Sys2Proof.Stated

open Machine

/-- WAKE is the one BUDGET command that acts at once. -/
theorem exec_wake {s : State} {m : Master} : exec (.wake m) s = finish (s.onWrite 0x02 (masterCode m) fun u =>
    u.immediate 0x02 (masterCode m) 2 (u.budgetChecks 2) fun w => w.wake.pstateTo .run) := by
  change finish (s.budgetCommand (masterCode m) 2) = _
  rw [State.budgetCommand]
  rfl

end Sys2Proof.Stated

namespace Sys2Proof.Settled

open Machine Stated Safety

/-- Settles O31: DORMANT waits for its boundary, WAKE acts at once. -/
theorem budgetCommandsTakeEffect : Obligations.BudgetCommandsTakeEffect := by
  unfold Obligations.BudgetCommandsTakeEffect
  intro m s a quiet hready hidle
  have hbusy : s.busy 0x02 = false := congrArg Option.isSome hidle
  refine ⟨fun hquiet => ?dormant, fun hasleep => ?wake⟩
  case dormant =>
    have hck : (s.budgetChecks 1).result = 0 := State.budgetChecks_dormant hquiet ▸ State.busyChecks_result hbusy
    refine waits_submit hready rfl rfl hck (by decide) fun u hpend hstill => ?_
    have hagain : (u.budgetChecks 1).again = 0 := State.budgetChecks_dormant hstill ▸ State.busyChecks_again _
    obtain ⟨v, hv⟩ := State.budgetApply_pending hpend hagain
    rw [hv]
    obtain ⟨hosc, hboard, hlinks, hchans⟩ := v.enterDormant_leaves
    exact State.pstateTo_dormant _ hosc hboard hlinks hchans
  case wake =>
    have hck : (s.budgetChecks 2).result = 0 := by
      simp [State.budgetChecks, show budPage = 0x02 from rfl, hbusy, hasleep, Checks.result_eq_zero]
    have hissued := (answer_same (s := s) 0x02 (masterCode m) 2 0 true).trans (event_same budPage 0 [0x02])
    have hlevel : (s.answer 0x02 (masterCode m) 2 0 true).wake.budget.pstate ≠ .run := by
      change s.budget.pstate ≠ .run
      rw [hasleep]
      decide
    refine carries_of hready exec_wake rfl hck (by decide) ?_ ?_
    · rw [State.pstateTo_run _ hlevel]
      exact kept_status (Kept.event (s.answer 0x02 (masterCode m) 2 0 true) budPage 0) _ _
    · rw [State.pstateTo_run _ hlevel]
      constructor
      case fault => exact hissued.fault
      case page => exact hissued.page
      all_goals first | rfl | exact fun _ => rfl

end Sys2Proof.Settled
end

section
/-! PROOFS. The obligation on the configuration sets (R394, R397 to R399). -/

namespace Sys2Proof.Machine

variable (s : State) {k n : Nat}

theorem tget_restoreKeys (keys : List Nat) (from_ t : Table Word) :
    tget cfgReset (restoreKeys keys from_ t) k = if k ∈ keys then tget cfgReset from_ k else tget cfgReset t k := by
  unfold restoreKeys
  induction keys generalizing t with
  | nil => simp
  | cons a l ih =>
    rw [List.foldl_cons, ih, tget_tput]
    by_cases h : k = a
    · subst h; simp
    · simp [h]

/-- A register that an exchange or a copy leaves: it is locked, and its page is. -/
def State.cfgLocked (k : Nat) : Prop := (s.page (k / 0x1000)).lockCfg = true ∧ (cfgAt k).lck ≠ 0

theorem State.mem_lockedCfg : k ∈ s.lockedCfg ↔
    (k ∈ s.active.map Prod.fst ∨ k ∈ s.shadow.map Prod.fst) ∧ s.cfgLocked k := by
  simp [State.lockedCfg, State.cfgLocked, or_and_right]

/-- Of two sets of which locked registers are restored from the other set, locked registers read as in it. -/
theorem State.tget_restoreLocked {a t : Table Word} (hset : (a = s.active ∧ t = s.shadow) ∨ (a = s.shadow ∧ t = s.active)) :
    (s.cfgLocked k → tget cfgReset (restoreKeys s.lockedCfg a t) k = tget cfgReset a k) ∧
    (¬s.cfgLocked k → tget cfgReset (restoreKeys s.lockedCfg a t) k = tget cfgReset t k) := by
  rw [tget_restoreKeys]
  refine ⟨fun hlocked => ?_, fun hopen => if_neg fun h => hopen (s.mem_lockedCfg.mp h).2⟩
  by_cases hmem : k ∈ s.lockedCfg
  · exact if_pos hmem
  · have habsent : k ∉ a.map Prod.fst ∧ k ∉ t.map Prod.fst := by
      rw [s.mem_lockedCfg, not_and_or, not_or] at hmem
      rcases hset with ⟨rfl, rfl⟩ | ⟨rfl, rfl⟩
      · exact hmem.resolve_right (not_not_intro hlocked)
      · exact (hmem.resolve_right (not_not_intro hlocked)).symm
    rw [if_neg hmem, tget_absent habsent.1, tget_absent habsent.2]

theorem State.swapChecks_pass {a : Word} {s : State} (hbusy : s.busy 0x00 = false) (hfree : s.swapWaits = false)
    (hcopy : s.sys.copyPend = false) (hawake : s.dormant = false)
    (harg : bit a 0 = false ∨ (s.dir 0x00 0x91C).toNat < 1000000000) : (s.sysChecks 1 a).result = 0 := by
  have harg' : (bit a 0 && decide (1000000000 ≤ (s.dir 0x00 0x91C).toNat)) = false := by
    rcases harg with h | h
    · rw [h]; rfl
    · simp [Nat.not_le.mpr h]
  simp [State.sysChecks, Checks.result_eq_zero, show sysPage = 0x00 from rfl, hbusy, hfree, hcopy, hawake]
  simpa using harg'

theorem State.swapChecks_again {a : Word} {u : State} (hawake : u.dormant = false) : (u.sysChecks 1 a).again = 0 := by
  simp [State.sysChecks, Checks.again_eq_zero, hawake]

theorem State.copyChecks_result {a : Word} {s : State} (hbusy : s.busy 0x00 = false) (hfree : s.swapWaits = false)
    (hcopy : s.sys.copyPend = false) (hawake : s.dormant = false) (hopen : (s.page 0x00).lockCmd = false) :
    (s.sysChecks 3 a).result = 0 := by
  simp [State.sysChecks, Checks.result_eq_zero, show sysPage = 0x00 from rfl, hbusy, hfree, hcopy, hawake, hopen]

theorem State.copyChecks_again {a : Word} {u : State} (hawake : u.dormant = false) (hopen : (u.page 0x00).lockCmd = false) :
    (u.sysChecks 3 a).again = 0 := by
  simp [State.sysChecks, Checks.again_eq_zero, show sysPage = 0x00 from rfl, hawake, hopen]

/-- The moment that SWAP_SETS names: domain and scale of its argument, seconds and nanoseconds of the captured words. -/
def swapMoment (a : Word) (data : List Word) : TimedSwap :=
  { dom := bits a 2 1, utc := bit a 3
    sec := ((data[1]?).getD 0).toNat % 65536 * 2 ^ 32 + ((data[0]?).getD 0).toNat, ns := ((data[2]?).getD 0).toNat }

/-- The effect of a SWAP_SETS with the captured words: the timed form arms the exchange, and is late when its moment is
past. -/
def State.armSwap (data : List Word) (q : CmdPend) (s : State) : State :=
  if q.code = 1 ∧ bit q.arg 0 then
    let s := s.setSys fun x => { x with timed := some (swapMoment q.arg data) }
    if s.swapPast (swapMoment q.arg data) then s.swapIsLate else s
  else s

/-- The timed form of SWAP_SETS names the same moment. -/
theorem swapMoment_timed (a : Word) (data : List Word) : swapMoment (a ||| 1) data = swapMoment a data := by
  have hdom : bits (a ||| 1) 2 1 = bits a 2 1 := by
    have hhalf : (a.toNat ||| 1) / 2 = a.toNat / 2 := by
      rw [← Nat.shiftRight_one, ← Nat.shiftRight_one, Nat.shiftRight_or_distrib]
      simp
    simp only [bits, BitVec.toNat_or, pow_one]
    exact congrArg (· % 2 ^ (2 + 1 - 1)) hhalf
  have hutc : bit (a ||| 1) 3 = bit a 3 := by simp [bit]
  rw [swapMoment, hdom, hutc, swapMoment]

section
variable {u : State} {q : CmdPend} (hpend : (u.page 0x00).pend = some q) (hagain : (u.sysChecks q.code q.arg).again = 0)
include hpend hagain

/-- What the boundary does for the pending SYS command: an exchange, or a copy (R397, R399). -/
theorem State.sysApply_brings : u.sysApply.2 = (q.code == 1 && !bit q.arg 0, q.code == 3) := by
  simp [State.sysApply, show sysPage = 0x00 from rfl, hpend, hagain]

/-- A timed SWAP_SETS arms the exchange (R398). -/
theorem State.sysApply_arms (hcode : q.code = 1) (htimed : bit q.arg 0 = true) :
    u.sysApply.1.sys.timed = some (swapMoment q.arg q.data) := by
  obtain ⟨v, hv, -⟩ := Stated.settle_of (f := State.armSwap q.data) hpend hagain
  have happly : u.sysApply.1 = State.setSys (u.settleCmd 0x00 (u.sysChecks q.code q.arg).again (State.armSwap q.data))
      fun x => { x with copyPend := false } := by
    rw [State.sysApply, show sysPage = 0x00 from rfl, hpend]
    rfl
  have harms : State.armSwap q.data q v = if (v.setSys fun x => { x with
      timed := some (swapMoment q.arg q.data) }).swapPast (swapMoment q.arg q.data) then
        (v.setSys fun x => { x with timed := some (swapMoment q.arg q.data) }).swapIsLate
      else v.setSys fun x => { x with timed := some (swapMoment q.arg q.data) } := if_pos ⟨hcode, htimed⟩
  rw [happly, hv, harms]
  split <;> rfl

end

/-- SWAP_SETS and COPY_SETS wait with the words of SWAP_AT. -/
theorem State.sysIssue_waits {m code : Nat} {a : Word} (hcode : code ≠ 2) (h : (s.sysChecks code a).result = 0) :
    ((s.sysIssue m code a).page 0x00).pend =
        some { master := m, code, arg := a, seq := ((s.page 0x00).seq + 1) % 32768, data := s.swapAt } ∧
      (s.sysIssue m code a).cmdStatus 0x00 m =
        { result := 0, code := code % 256, seq := ((s.page 0x00).seq + 1) % 32768, done := false } := by
  have hissue : s.sysIssue m code a = if code = 3 then (s.accept 0x00 m code a s.swapAt).setSys fun x => { x with
      copyPend := true } else (s.accept 0x00 m code a s.swapAt).setSys fun x => { x with swapLate := false } :=
    (if_neg hcode).trans (if_pos h)
  rw [hissue]
  split <;> exact ⟨State.accept_pend s _ _ _ _ _, State.accept_status s _ _ _ _ _⟩

end Sys2Proof.Machine

namespace Sys2Proof.Stated

open Machine

variable {s : State} {m : Master} {c : Instr} {code : Nat} {f : State → Word}

/-- A SYS command that waits for its boundary. -/
theorem waits_sys {legal : State → Prop} {effect : State → State → Prop} (hready : Ready s 0x00 m)
    (he : exec c s = finish (s.onWrite 0x00 (masterCode m) fun u => u.sysIssue (masterCode m) code (f u)))
    (hcode : code < 256) (hwaits : code ≠ 2) (hresult : (s.sysChecks code (f s)).result = 0)
    (hb : ∀ u, (u.page 0x00).pend = some (waiting s 0x00 m code (f s) s.swapAt) → legal u →
      effect u u.sysApply.1) :
    Waits c s 0x00 m code (f s) (fun u => u.sysApply.1) legal effect s.swapAt := by
  obtain ⟨hpend, hstatus⟩ := s.sysIssue_waits (m := masterCode m) hwaits hresult
  rw [Nat.mod_eq_of_lt hcode] at hstatus
  exact waits_of hready he hpend hstatus hb

theorem exec_sysCommand {c : Instr} (he : exec c s = finish (s.sysCommand (masterCode m) code)) (hcode : code ≠ 0x10) :
    exec c s = finish (s.onWrite 0x00 (masterCode m) fun u =>
      u.sysIssue (masterCode m) code (u.arg 0x00 (masterCode m))) := by
  rw [he, State.sysCommand, if_neg hcode]
  rfl

end Sys2Proof.Stated

namespace Sys2Proof.Settled

open Machine Stated Safety

/-- Settles O37: the SYS commands by their checks and what the boundary does for them, the exchange and the copy register
by register. -/
theorem setCommandsTakeEffect : Obligations.SetCommandsTakeEffect := by
  unfold Obligations.SetCommandsTakeEffect
  intro m n s a at_ word_ armed free locked
  have hbusy (hidle : Idle s 0x00) : s.busy 0x00 = false := congrArg Option.isSome hidle
  refine ⟨fun hready hidle => ⟨fun hfree hawake => ⟨?swap, fun hns => ?timed, fun hopen => ?copy⟩, fun hsome => ?cancel⟩,
    fun k => ⟨fun hopen => ?exchanged, fun hlocked => ?kept, rfl⟩⟩
  case exchanged =>
    obtain ⟨-, hactive⟩ := s.tget_restoreLocked (k := k) (a := s.active) (t := s.shadow) (.inl ⟨rfl, rfl⟩)
    obtain ⟨-, hshadow⟩ := s.tget_restoreLocked (k := k) (a := s.shadow) (t := s.active) (.inr ⟨rfl, rfl⟩)
    exact ⟨hactive hopen, hshadow hopen, hshadow hopen⟩
  case kept =>
    obtain ⟨hactive, -⟩ := s.tget_restoreLocked (k := k) (a := s.active) (t := s.shadow) (.inl ⟨rfl, rfl⟩)
    obtain ⟨hshadow, -⟩ := s.tget_restoreLocked (k := k) (a := s.shadow) (t := s.active) (.inr ⟨rfl, rfl⟩)
    exact ⟨hactive hlocked, hshadow hlocked, hshadow hlocked⟩
  case swap =>
    have huntimed : bit (a &&& ~~~(1 : Word)) 0 = false := by simp [bit]
    refine waits_sys (f := fun u => u.arg 0x00 (masterCode m) &&& ~~~(1 : Word)) hready rfl (by decide) (by decide)
      (State.swapChecks_pass (hbusy hidle) hfree.1 hfree.2 hawake (.inl huntimed)) fun u hpend hawake' => ?_
    rw [State.sysApply_brings hpend (State.swapChecks_again hawake')]
    exact congrArg (fun b => (!b, false)) huntimed
  case timed =>
    have htimed : bit (a ||| 1) 0 = true := by simp [bit]
    refine waits_sys (f := fun u => u.arg 0x00 (masterCode m) ||| 1) hready rfl (by decide) (by decide)
      (State.swapChecks_pass (hbusy hidle) hfree.1 hfree.2 hawake (.inr hns)) fun u hpend hawake' => ?_
    have hagain := State.swapChecks_again (a := a ||| 1) hawake'
    rw [State.sysApply_brings hpend hagain, State.sysApply_arms hpend hagain rfl htimed]
    exact ⟨congrArg (fun b => (!b, false)) htimed, congrArg some (swapMoment_timed a at_)⟩
  case copy =>
    refine waits_sys (f := fun u => u.arg 0x00 (masterCode m)) hready (exec_sysCommand rfl (by decide)) (by decide)
      (by decide) (State.copyChecks_result (hbusy hidle) hfree.1 hfree.2 hawake hopen) fun u hpend hstill => ?_
    rw [State.sysApply_brings hpend (State.copyChecks_again hstill.1 hstill.2)]
    rfl
  case cancel =>
    have hck : (s.sysChecks 2 a).result = 0 := by
      simp [State.sysChecks, Checks.result_eq_zero, show sysPage = 0x00 from rfl, hbusy hidle, hsome]
    have hissued := answer_same (s := s) 0x00 (masterCode m) 2 0 true
    have cancelled : Same (s.setSys fun x => { x with timed := none, swapPend := false })
        ((s.answer 0x00 (masterCode m) 2 0 true).setSys fun x => { x with timed := none, swapPend := false }) [0x00] := by
      constructor
      case page => exact hissued.page
      all_goals first | rfl | exact fun _ => rfl
    exact carries_of (f := fun s => s.setSys fun x => { x with timed := none, swapPend := false }) hready
      (exec_sysCommand rfl (by decide)) rfl hck (by decide) rfl cancelled

end Sys2Proof.Settled
end

section
/-! PROOFS. The obligation on guarded writes (R392, R393, R476). -/

namespace Sys2Proof.Machine

open Safety Stated

variable {s : State} {m : Master} {page : Fin 256} {p k : Nat} {v : Word} {g : Staged}

/-- A guarded write that fails is counted and reported, and touches no unit (R393). -/
theorem State.kept_guardFail (access addr : Nat) : Kept s (s.guardFail k access addr) :=
  (Kept.bump s 0x00 0xA18).trans (Kept.collectC _ _)

/-- Any access but a write to GUARD discards a staged value (R392). -/
theorem State.access_discards (h : s.stagedOf k = some g) :
    s.access k = (s.setStaged k none).guardFail k 3 (g.page * 0x1000 + g.off) := by rw [State.access, h]

theorem State.regWrite_guarded {access o : Nat} (hkind : pageKind p ≠ .none) (h4 : o % 4 = 0)
    (h : isGuarded (pageKind p) o v = true) : s.regWrite k access p o v = s.stage k p o v := by
  rw [State.regWrite, if_neg (by simp [hkind, h4]), if_pos h]

/-- The guarded registers are at DW offsets, and none is GUARD. -/
theorem isGuarded_offset {o : Nat} {kind : PageKind} (h : isGuarded kind o v = true) : o % 4 = 0 ∧ o ≠ 0x900 := by
  simp only [isGuarded, Bool.or_eq_true, Bool.and_eq_true, beq_iff_eq] at h
  omega

/-- A write to GUARD judges the staged value (R392). -/
theorem State.writeAt_guard (hreleased : s.boot.released = true) (hmay : s.mayAccess (masterCode m) true = true)
    (hreaches : s.reaches page = true) (hkind : pageKind page ≠ .none) :
    s.writeAt (masterCode m) (regAddr page 0x900) v = s.guardWrite (masterCode m) page v := by
  simp [State.writeAt, hreleased, hmay, targetOf_regAddr page (show 0x900 < 0x1000 by decide) (by decide), State.answers,
    Target.page, hreaches, hkind]

theorem State.guardWrite_refuses (h : s.stagedOf k = some g) (hother : ¬(g.page = p ∧ v = ~~~g.value)) :
    s.guardWrite k p v = (s.setStaged k none).guardFail k 4 (p * 0x1000 + 0x900) := by
  rw [State.guardWrite, h]
  exact if_neg hother

theorem State.guardWrite_commits (h : s.stagedOf k = some g) (hpage : g.page = p) (hv : v = ~~~g.value) :
    s.guardWrite k p v = (s.setStaged k none).commit k g := by
  rw [State.guardWrite, h]
  exact if_pos ⟨hpage, hv⟩

theorem State.commit_plain (hlock : g.off ≠ 0x01C) (hcmd : g.off ≠ 0x908) : s.commit k g =
    if (s.page g.page).lockCfg = true then s.lockWrite k 3 (g.page * 0x1000 + g.off)
    else if g.off = 0x934 then s.setFault fun f => { f with forceEn := bit g.value 0 }
    else s.setDir g.page g.off (sword (iclamp (signed 24 g.value.toNat) (-5000000) 5000000)) :=
  (if_neg hlock).trans (if_neg hcmd)

/-! ### PAGE_LOCK (R395, R476) -/

/-- The outcome of a write to PAGE_LOCK is shown. -/
def State.showLock (s : State) (p r : Nat) : State := s.setPage p fun g => { g with lockResult := r }

theorem State.writeLock_noNonce (h : bits v 31 16 = 0) : s.writeLock p k v = s.showLock p 2 :=
  if_pos (show noNonce v = true by simp [noNonce, h])

section
variable (hnonce : bits v 31 16 ≠ 0)
include hnonce

theorem State.writeLock_noParty (h : s.noParty k = true) : s.writeLock p k v = s.showLock p 6 :=
  (if_neg (show ¬noNonce v = true by simp [noNonce, hnonce])).trans (if_pos h)

variable (hparty : s.noParty k = false)
include hparty

/-- A party's write to PAGE_LOCK meets the proposal that stands, or makes one. -/
theorem State.writeLock_party : s.writeLock p k v = match (s.page p).lockProp with
    | none => match (s.page p).prop with
      | some q => s.showLock p (if q.master = k then 6 else 2)
      | none => if s.sec.fuseBad then s.showLock p 1
        else (State.showLock (s.setPage p fun g => { g with
          lockProp := some { master := k, code := 0, arg := v, data := [], age := 0 } }) p 0).event 0x06 2
    | some q => if q.master = k then s.showLock p 6
      else if q.arg ≠ v then s.showLock p 2
      else (State.showLock (s.setPage p fun g => { g with
        lockProp := none, lockCfg := bits v 1 0 % 2 = 1, lockCmd := 2 ≤ bits v 1 0 }) p 0).bump 0x06 0xA00 :=
  (if_neg (show ¬noNonce v = true by simp [noNonce, hnonce])).trans (if_neg (by simp [hparty]))

end

/-- The two bits of PAGE_LOCK. -/
theorem lockBits (v : Word) : decide (bits v 1 0 % 2 = 1) = bit v 0 ∧ decide (2 ≤ bits v 1 0) = bit v 1 := by
  have hlow : bit v 0 = decide (v.toNat % 2 = 1) := by simp [bit, BitVec.getLsbD, Nat.testBit_zero]
  have hhigh : bit v 1 = decide (v.toNat / 2 % 2 = 1) := by simp [bit, BitVec.getLsbD, Nat.testBit_succ]
  rw [hlow, hhigh]
  refine ⟨decide_eq_decide.mpr ?_, decide_eq_decide.mpr ?_⟩
  · simp only [bits]; omega
  · simp only [bits]; omega

end Sys2Proof.Machine

namespace Sys2Proof.Stated

open Machine Safety

variable {s : State} {m : Master} {page : Fin 256} {v : Word} {g : Staged}

/-- A write to GUARD whose value matches commits the staged one. -/
theorem exec_guard (hreleased : s.boot.released = true) (hmay : s.mayAccess (masterCode m) true = true)
    (hreaches : s.reaches page = true) (hkind : pageKind page ≠ .none) (hstaged : s.stagedOf (masterCode m) = some g)
    (hpage : g.page = page.val) (hv : v = ~~~g.value) :
    exec (.guard_ m page v) s = finish ((s.setStaged (masterCode m) none).commit (masterCode m) g) :=
  congrArg finish ((State.writeAt_guard hreleased hmay hreaches hkind).trans
    (State.guardWrite_commits hstaged hpage hv))

/-- The common registers of a page after a command, but for the events and faults that its records bring. -/
theorem page_field {α : Type} {t : State} {p : Nat} {f : Page → α} (h : Kept s t)
    (hf : ∀ (x : Page) (e w : Word), f { x with event := e, fault := w } = f x) : f (t.page p) = f (s.page p) :=
  (hf _ _ _).symm.trans (congrArg f (h.page p))

end Sys2Proof.Stated

namespace Sys2Proof.Settled

open Machine Stated Safety

/-- Settles O35: a guarded value is staged, and GUARD commits it or discards it. -/
theorem guardedWritesAct : Obligations.GuardedWritesAct := by
  unfold Obligations.GuardedWritesAct
  intro m page off v g s p k w kind open_ result
  refine ⟨fun hready hkind hguarded => ?stage, fun hstaged => ⟨?expires, fun hopen hother => ?other,
    fun hopen hpage hv => ?commits⟩⟩
  case stage =>
    obtain ⟨h4, hguard⟩ := isGuarded_offset hguarded
    refine does_of (congrArg finish ((State.writeAt_ready hready off.isLt h4 (.inl hguard)).trans
      (State.regWrite_guarded hkind h4 hguarded))) (Same.refl _)
  case expires =>
    exact does_of (congrArg finish (State.access_discards hstaged)) (State.kept_guardFail _ _).same
  case other =>
    obtain ⟨hreleased, hmay, hreaches, hkind⟩ := hopen
    have hmismatch : ¬(g.page = p ∧ v = ~~~w) := fun h => hother.elim (· h.2) (· h.1)
    exact does_of (congrArg finish ((State.writeAt_guard hreleased hmay hreaches hkind).trans
      (State.guardWrite_refuses hstaged hmismatch))) (State.kept_guardFail _ _).same
  obtain ⟨hreleased, hmay, hreaches, hkind⟩ := hopen
  have hexec := exec_guard hreleased hmay hreaches hkind hstaged hpage hv
  have hlock (h : g.off = 0x01C) : exec (.guard_ m page v) s = finish ((s.setStaged k none).writeLock p k w) :=
    hexec.trans (congrArg finish ((if_pos h).trans (by rw [hpage])))
  have hplain (h1 : g.off ≠ 0x01C) (h2 : g.off ≠ 0x908) := hexec.trans (congrArg finish (State.commit_plain h1 h2))
  have hfree' {x : Option Proposal} (h : (s.page p).lockProp = x) : ((s.setStaged k none).page p).lockProp = x := h
  have hidle' {x : Option Proposal} (h : (s.page p).prop = x) : ((s.setStaged k none).page p).prop = x := h
  refine ⟨fun hoff hnonce hparty => ⟨fun hfree hidle hfuse => ?proposed, fun q hprop hothers harg => ?signed⟩,
    fun hoff => ⟨fun hnonce => ?noNonce, fun hnonce hparty => ?noParty, fun hnonce hparty =>
      ⟨fun q hprop => ⟨fun hmine => ?mine, fun hothers harg => ?differs⟩,
        fun hfree => ⟨fun q hprop => ?busy, fun hidle hfuse => ?fuse⟩⟩⟩,
    fun hoff => ?command, fun hlocked hoff1 hoff2 => ?turned, fun hunlocked => ⟨fun hoff => ?force, fun hoff => ?age⟩⟩
  case noNonce => exact does_of ((hlock hoff).trans (congrArg finish (State.writeLock_noNonce hnonce))) (Same.refl _)
  case noParty =>
    exact does_of ((hlock hoff).trans (congrArg finish (State.writeLock_noParty hnonce hparty))) (Same.refl _)
  case command =>
    refine does_of (hexec.trans (congrArg finish ((if_neg (by rw [hoff]; decide)).trans ((if_pos hoff).trans (by rw [hpage])))))
      (Same.refl _)
  case proposed =>
    have hwrite : (s.setStaged k none).writeLock p k w = (State.showLock ((s.setStaged k none).setPage p fun x => { x with
        lockProp := some { master := k, code := 0, arg := w, data := [], age := 0 } }) p 0).event 0x06 2 := by
      rw [State.writeLock_party (s := s.setStaged k none) hnonce hparty, hfree' hfree, hidle' hidle]
      exact if_neg (fun h => Bool.noConfusion (hfuse.symm.trans h))
    refine completes_of ((hlock hoff).trans (congrArg finish hwrite)) fun t hkept => ?_
    have hkept := (Kept.event _ 0x06 2).trans hkept
    rw [page_field (f := Page.lockResult) hkept fun _ _ _ => rfl, page_field (f := Page.lockProp) hkept fun _ _ _ => rfl]
    simp [State.showLock]
  case signed =>
    have hwrite : (s.setStaged k none).writeLock p k w = (State.showLock ((s.setStaged k none).setPage p fun x => { x with
        lockProp := none, lockCfg := bits w 1 0 % 2 = 1, lockCmd := 2 ≤ bits w 1 0 }) p 0).bump 0x06 0xA00 := by
      rw [State.writeLock_party (s := s.setStaged k none) hnonce hparty, hfree' hprop]
      exact (if_neg hothers).trans (if_neg (not_not_intro harg))
    refine completes_of ((hlock hoff).trans (congrArg finish hwrite)) fun t hkept => ?_
    have hkept := (Kept.bump _ 0x06 0xA00).trans hkept
    rw [page_field (f := Page.lockResult) hkept fun _ _ _ => rfl, page_field (f := Page.lockProp) hkept fun _ _ _ => rfl,
      page_field (f := Page.lockCfg) hkept fun _ _ _ => rfl, page_field (f := Page.lockCmd) hkept fun _ _ _ => rfl]
    simpa [State.showLock] using lockBits w
  case mine =>
    refine does_of ((hlock hoff).trans (congrArg finish ?_)) (Same.refl _)
    rw [State.writeLock_party (s := s.setStaged k none) hnonce hparty, hfree' hprop]
    exact if_pos hmine
  case differs =>
    refine does_of ((hlock hoff).trans (congrArg finish ?_)) (Same.refl _)
    rw [State.writeLock_party (s := s.setStaged k none) hnonce hparty, hfree' hprop]
    exact (if_neg hothers).trans (if_pos harg)
  case busy =>
    refine does_of ((hlock hoff).trans (congrArg finish ?_)) (Same.refl _)
    rw [State.writeLock_party (s := s.setStaged k none) hnonce hparty, hfree' hfree, hidle' hprop]
    rfl
  case fuse =>
    refine does_of ((hlock hoff).trans (congrArg finish ?_)) (Same.refl _)
    rw [State.writeLock_party (s := s.setStaged k none) hnonce hparty, hfree' hfree, hidle' hidle]
    exact if_pos hfuse
  case turned =>
    have hlocked' : ((s.setStaged k none).page g.page).lockCfg = true := hpage ▸ hlocked
    exact does_of ((hplain hoff1 hoff2).trans (congrArg finish (if_pos hlocked'))) (kept_lockWrite _ _ _ _).same
  case force =>
    have hunlocked' : ¬((s.setStaged k none).page g.page).lockCfg = true := by
      rw [hpage]; simpa using hunlocked
    exact does_of ((hplain (by omega) (by omega)).trans (congrArg finish ((if_neg hunlocked').trans (if_pos hoff))))
      (Same.refl _)
  case age =>
    have hunlocked' : ¬((s.setStaged k none).page g.page).lockCfg = true := by
      rw [hpage]; simpa using hunlocked
    refine does_of ((hplain (by omega) (by omega)).trans (congrArg finish ((if_neg hunlocked').trans
      ((if_neg (by omega)).trans (by rw [hpage, hoff])))))
      (Same.refl _)

end Sys2Proof.Settled
end

section
/-! PROOFS. Unknown commands (R401): on every page a code outside the command table is refused, and changes nothing else. -/

namespace Sys2Proof.Machine

open Stated

/-- The page that the commands of page `p` act on, by its kind. -/
def homePage (p : Nat) : PageKind → Nat
  | .sys => sysPage | .sched => 0x01 | .budget => budPage | .fault => faultPage | .nv => nvPage | .sec => secPage
  | .pair => pairPage | .harvest => hvPage | .time => 0x09 | .tsvc => tsvcPage | .ports => portsPage
  | .stamp => stampPage (p - 0x10) | .qual => qualPage (p - 0x40) | .dom => domPage (p - 0x70) | .syn => synPage (p - 0x80)
  | .out => outPage (p - 0x90) | .tim => 0xC0 + (p - 0xC0) | .cell => 0xC8 | .irq | .vlink | .osc | .none => p

theorem homePage_self : ∀ p : Fin 256, homePage p (pageKind p) = p := by decide +kernel

theorem masterOf_masterCode (m : Master) : masterOf (masterCode m) = m := by cases m <;> rfl

theorem Checks.result_arg {ck : Checks} (h : ck.arg = true) : ck.result = 2 := if_pos h

variable (s : State) {p k code : Nat} {a : Word} {kind : PageKind}

/-- The checks of a command by the kind of its page. -/
def State.tableChecks (p code : Nat) (a : Word) : PageKind → Checks
  | .sys => s.sysChecks code a
  | .sched => s.schedChecks code a
  | .budget => s.budgetChecks code
  | .fault => s.faultChecks code a
  | .nv => s.nvChecks code
  | .pair => s.pairChecks code []
  | .harvest => s.harvestChecks code
  | .time => s.timeChecks code a
  | .tsvc => s.tsvcChecks code a false
  | .ports => s.portChecks code a false
  | .stamp => s.stampChecks (p - 0x10) code a
  | .qual => s.qualChecks (p - 0x40) code false
  | .dom => if 0x10 ≤ code ∧ code < 0x20 then s.selChecks (p - 0x70) code a false else s.domChecks (p - 0x70) code a false
  | .syn => s.synChecks (p - 0x80) code a
  | .out => s.outChecks (p - 0x90) code a
  | .tim => s.timChecks (p - 0xC0) code a
  | .cell => s.cellChecks code a
  | .sec | .irq | .vlink | .osc | .none => { arg := true }

/-- No check knows a code outside its page's command table. -/
theorem State.tableChecks_unknown (h : code ∉ commandCodes kind) : (s.tableChecks p code a kind).result = 2 := by
  refine Checks.result_arg ?_
  cases kind <;> simp only [commandCodes, List.mem_cons, not_or] at h <;> simp only [State.tableChecks]
  case sys => unfold State.sysChecks; split <;> simp_all
  case sched => unfold State.schedChecks; split <;> simp_all
  case budget => unfold State.budgetChecks; split <;> simp_all
  case fault => unfold State.faultChecks; split <;> simp_all
  case nv => unfold State.nvChecks; split <;> simp_all
  case pair => unfold State.pairChecks; split <;> simp_all
  case harvest => unfold State.harvestChecks; split <;> simp_all
  case time => unfold State.timeChecks; split <;> simp_all
  case tsvc => unfold State.tsvcChecks; split <;> simp_all
  case ports => unfold State.portChecks; split <;> simp_all
  case stamp => unfold State.stampChecks; split <;> simp_all
  case qual => unfold State.qualChecks; split <;> simp_all
  case syn => unfold State.synChecks; split <;> simp_all
  case out => unfold State.outChecks; split <;> simp_all
  case tim => unfold State.timChecks; split <;> simp_all
  case cell => unfold State.cellChecks; split <;> simp_all
  case dom =>
    split
    · unfold State.selChecks; split <;> simp_all
    · unfold State.domChecks
      split
      case h_8 => rw [if_neg (by omega)]
      all_goals simp_all

theorem State.submit_unknown {m : Nat} {ck : Checks} (h : ck.result = 2) : s.submit p m code a ck = s.refuse p m code 2 := by
  rw [State.submit, if_neg (by rw [h]; decide), h]

theorem State.immediate_unknown {m : Nat} {ck : Checks} {f : State → State} (h : ck.result = 2) :
    s.immediate p m code ck f = s.refuse p m code 2 := by
  rw [State.immediate, if_neg (by rw [h]; decide), h]

theorem State.sysIssue_unknown {m : Nat} (hcode : code ≠ 2) (h : (s.sysChecks code a).result = 2) :
    s.sysIssue m code a = s.refuse sysPage m code 2 :=
  (if_neg hcode).trans ((if_neg (by rw [h]; decide)).trans (congrArg (s.refuse sysPage m code) h))

section
variable {m : Master} {q : Nat} (hready : Ready s p m) (hq : q = p) (h : code ∉ commandCodes kind)
include hready hq h

/-- A command that waits, with a code that its checks do not know. -/
theorem State.refused_submit (he : s.issue (masterCode m) p code = s.onWrite q (masterCode m) fun u =>
      u.submit q (masterCode m) code (u.arg q (masterCode m)) (u.tableChecks p code (u.arg q (masterCode m)) kind)) :
    s.issue (masterCode m) p code = s.refuse p (masterCode m) code 2 := by
  subst hq
  rw [he, ready_write hready, s.submit_unknown (s.tableChecks_unknown h)]

/-- A command that acts at once, with a code that its checks do not know. -/
theorem State.refused_immediate {f : State → State → State} (he : s.issue (masterCode m) p code =
      s.onWrite q (masterCode m) fun u => u.immediate q (masterCode m) code
        (u.tableChecks p code (u.arg q (masterCode m)) kind) (f u)) :
    s.issue (masterCode m) p code = s.refuse p (masterCode m) code 2 := by
  subst hq
  rw [he, ready_write hready, s.immediate_unknown (s.tableChecks_unknown h)]

end

/-- A code outside the command table of its page is refused (R401); an NV command first settles the store. -/
theorem State.issue_unknown {m : Master} (hready : Ready s p m) (hhome : homePage p (pageKind p) = p)
    (hosc : pageKind p ≠ .osc) (hnone : pageKind p ≠ .none) (h : code ∉ commandCodes (pageKind p)) :
    ∃ u, Safety.Kept s u ∧ s.issue (masterCode m) p code = u.refuse p (masterCode m) code 2 := by
  have hother (c : Nat) (hc : c ∈ commandCodes (pageKind p)) : code ≠ c := fun he => h (he ▸ hc)
  by_cases hnv : pageKind p = .nv
  · rw [hnv] at hhome h hother
    have hready' : Ready s.nvSettled p m := hready
    have hp : nvPage = p := hhome
    refine ⟨s.nvSettled, Safety.Kept.of_fields rfl, ?_⟩
    simp only [State.issue, hnv, State.nvCommand, if_neg (hother 4 (by decide))]
    rw [hp, ready_write hready']
    exact State.immediate_unknown _ (State.tableChecks_unknown _ (p := p) (a := 0) h)
  refine ⟨s, Safety.Kept.refl s, ?_⟩
  cases hk : pageKind p <;> rw [hk] at hhome h hosc hnone hother hnv
  case osc => exact absurd rfl hosc
  case none => exact absurd rfl hnone
  case nv => exact absurd rfl hnv
  case irq =>
    simp only [State.issue, hk]
    exact ready_write hready
  case vlink =>
    simp only [State.issue, hk]
    exact ready_write hready
  case sys =>
    have hp : sysPage = p := hhome
    have hck := s.tableChecks_unknown (p := p) (a := s.arg sysPage (masterCode m)) h
    simp only [State.issue, hk, State.sysCommand, if_neg (hother 0x10 (by decide)), hp]
    rw [ready_write hready, ← hp]
    exact s.sysIssue_unknown (hother 2 (by decide)) hck
  case sched =>
    refine s.refused_immediate hready hhome h (f := fun u => State.schedEffect code (u.arg 0x01 (masterCode m))) ?_
    simp only [State.issue, hk, masterOf_masterCode, State.schedIssue, if_neg (hother 4 (by decide))]
    rfl
  case sec =>
    have hp : secPage = p := hhome
    have hrange : ¬(1 ≤ code ∧ code ≤ 5) := by
      simp only [commandCodes, List.mem_cons, not_or] at h
      omega
    simp only [State.issue, hk, State.secCommand, if_neg (hother 6 (by decide)), if_neg hrange, hp]
    exact ready_write hready
  case budget =>
    refine s.refused_submit hready hhome h ?_
    simp only [State.issue, hk, State.budgetCommand, if_neg (hother 2 (by decide))]
    rfl
  case pair =>
    refine s.refused_submit hready hhome h ?_
    have hparty : ¬(code = 1 ∨ code = 2) := fun hc => hc.elim (hother 1 (by decide)) (hother 2 (by decide))
    simp only [State.issue, hk, masterOf_masterCode, State.pairCommand, if_neg hparty]
    rfl
  case time =>
    refine s.refused_submit hready hhome h ?_
    simp only [State.issue, hk, masterOf_masterCode, State.timeCommand, if_neg (hother 2 (by decide))]
    rfl
  case tsvc =>
    refine s.refused_submit hready hhome h ?_
    simp only [State.issue, hk, masterOf_masterCode, State.tsvcCommand, hother 1 (by decide), false_and, if_false]
    rfl
  case dom =>
    refine s.refused_submit hready hhome h ?_
    simp only [State.issue, hk, masterOf_masterCode, State.tableChecks]
    split <;> rfl
  all_goals
    refine s.refused_submit hready hhome h ?_
    simp only [State.issue, hk, masterOf_masterCode]
    rfl

end Sys2Proof.Machine
end

section
/-! PROOFS. The obligation on aliases, reads, unknown commands and lost accesses (R391, R396, R400, R401, R403). -/

namespace Sys2Proof.Machine

open Safety Stated

variable (s : State) {m : Master} {page : Fin 256} {b : Fin 32} {o p k : Nat} {v : Word}

/-! ### Bit aliases (R396) -/

theorem targetOf_aliasAddr (ho : o < 0x100) (h4 : o % 4 = 0) : targetOf (aliasAddr page o b) = .bitAlias page o b := by
  have hp := page.isLt
  have hb := b.isLt
  have hpage : (aliasAddr page o b - 0x01000000) / 0x2000 = page := by unfold aliasAddr; omega
  have hoff : (aliasAddr page o b - 0x01000000) % 0x2000 / 0x80 * 4 = o := by unfold aliasAddr; omega
  have hbit : (aliasAddr page o b - 0x01000000) % 0x80 / 4 = b := by unfold aliasAddr; omega
  have hdw : aliasAddr page o b % 4 = 0 := by unfold aliasAddr; omega
  have hhigh : 0x01000000 ≤ aliasAddr page o b ∧ aliasAddr page o b < 0x01200000 := by unfold aliasAddr; omega
  simp only [targetOf, hdw, ne_eq, not_true, if_false, if_neg (show ¬aliasAddr page o b < 0x100000 by omega), if_pos hhigh,
    hpage, hoff, hbit]

theorem State.writeAt_alias {s : State} (hready : Ready s page m) (ho : o < 0x100) (h4 : o % 4 = 0) :
    s.writeAt (masterCode m) (aliasAddr page o b) v = s.aliasBit (masterCode m) page o b (bit v 0) := by
  obtain ⟨hreleased, hmay, hreaches, hstaged⟩ := hready
  simp [State.writeAt, hreleased, hmay, targetOf_aliasAddr (page := page) (b := b) ho h4, State.answers, Target.page,
    hreaches, s.access_clean hstaged]

theorem State.setPage_congr {f g : Page → Page} (h : f (s.page p) = g (s.page p)) :
    s.setPage p f = s.setPage p g := by
  have hput : tmod (fun _ => Page.zero) s.pages p f = tmod (fun _ => Page.zero) s.pages p g := congrArg (tput _ s.pages p) h
  exact congrArg (fun t => { s with pages := t }) hput

section
variable {s} (hkind : pageKind p ≠ .none)
include hkind

theorem State.aliasBit_eventEn (n : Nat) (d : Bool) : s.aliasBit k p 0x010 n d = s.setPage p fun g => { g with
    eventEn := if d then g.eventEn ||| word (2 ^ n) else g.eventEn &&& ~~~word (2 ^ n) } := by
  have hwrite : s.aliasBit k p 0x010 n d = s.regWrite k 2 p 0x010
      (if d then (s.page p).eventEn ||| word (2 ^ n) else (s.page p).eventEn &&& ~~~word (2 ^ n)) := by
    simp [State.aliasBit, hkind, State.commonValue]
  rw [hwrite, State.regWrite_eventEn s hkind]
  rfl

/-- EVT_CTRL has one bit. -/
theorem State.aliasBit_evtCtrl (n : Nat) (d : Bool) : s.aliasBit k p 0x008 n d = s.setPage p fun g =>
    { g with evtIrqEn := if n = 0 then d else g.evtIrqEn } := by
  have hwrite : s.aliasBit k p 0x008 n d = s.regWrite k 2 p 0x008 (if d then word (b2n (s.page p).evtIrqEn) ||| word (2 ^ n)
      else word (b2n (s.page p).evtIrqEn) &&& ~~~word (2 ^ n)) := by
    simp [State.aliasBit, hkind, State.commonValue]
  rw [hwrite, State.regWrite_evtCtrl s hkind]
  refine s.setPage_congr ?_
  have hbit : bit (if d then word (b2n (s.page p).evtIrqEn) ||| word (2 ^ n)
      else word (b2n (s.page p).evtIrqEn) &&& ~~~word (2 ^ n)) 0 = if n = 0 then d else (s.page p).evtIrqEn := by
    have hpow : bit (word (2 ^ n)) 0 = decide (n = 0) := by
      rw [bit, getLsbD_word, Nat.testBit_two_pow]
      simp
    have hold : bit (word (b2n (s.page p).evtIrqEn)) 0 = (s.page p).evtIrqEn := by
      cases (s.page p).evtIrqEn <;> rfl
    unfold bit at hpow hold ⊢
    cases d
    · rw [if_neg Bool.false_ne_true, BitVec.getLsbD_and, BitVec.getLsbD_not, hold, hpow]
      by_cases h : n = 0 <;> simp [h]
    · rw [if_pos rfl, BitVec.getLsbD_or, hold, hpow]
      by_cases h : n = 0 <;> simp [h]
  simp only [hbit]

theorem State.aliasBit_lock (n : Nat) (d : Bool) :
    s.aliasBit k p 0x01C n d = s.lockWrite k 2 (aliasAddr p 0x01C n) := by simp [State.aliasBit, hkind]

theorem State.aliasBit_zero (n : Nat) (ho : o ∈ [0x00C, 0x014, 0x018]) : s.aliasBit k p o n false = s := by
  simp only [List.mem_cons, List.not_mem_nil, or_false] at ho
  rcases ho with rfl | rfl | rfl <;> simp [State.aliasBit, hkind]

theorem State.aliasBit_event (n : Nat) : s.aliasBit k p 0x00C n true = s.setPage p fun g => { g with
    event := g.event &&& ~~~word (2 ^ n) } := by
  have hwrite : s.aliasBit k p 0x00C n true = s.regWrite k 2 p 0x00C (word (2 ^ n)) := by simp [State.aliasBit, hkind]
  rw [hwrite, State.regWrite_event s hkind]

theorem State.aliasBit_fault (n : Nat) : s.aliasBit k p 0x014 n true = s.setPage p fun g => { g with
    fault := g.fault &&& ~~~word (2 ^ n) } := by
  have hwrite : s.aliasBit k p 0x014 n true = s.regWrite k 2 p 0x014 (word (2 ^ n)) := by simp [State.aliasBit, hkind]
  rw [hwrite, State.regWrite_pageFault s hkind]

theorem State.aliasBit_force (n : Nat) :
    s.aliasBit k p 0x018 n true = s.force k 2 (aliasAddr p 0x018 n) p (word (2 ^ n)) := by simp [State.aliasBit, hkind]

end

theorem State.settle_page (n : Nat) : (s.settle false).page n = s.page n := by simp [State.page]

/-! ### Reads (R403) -/

theorem find_heldWord {f : Nat → Word} {l : List Nat} {x : Nat} (h : x ∈ l) :
    (l.map fun a => (a, f a)).find? (fun e => e.1 == x) = some (x, f x) := by
  induction l with
  | nil => exact absurd h List.not_mem_nil
  | cons a l ih =>
    rw [List.map_cons, List.find?_cons]
    by_cases ha : a = x
    · simp [ha]
    · simp only [beq_false_of_ne ha]
      exact ih ((List.mem_cons.mp h).resolve_left (Ne.symm ha))

/-- An origin holds the words of its group as they read (R403). -/
theorem State.hold_words {x : Nat} (h : x ∈ snapGroup (pageKind p) o) :
    (s.hold p k o).heldWord p k x = some (s.regValue k p x) := by
  have hhold : s.hold p k o = s.setPage p fun g => { g with holds := tput (fun _ => none) g.holds k (some {
      origin := o, words := (snapGroup (pageKind p) o).map fun a => (a, s.regValue k p a) }) } := by
    unfold State.hold
    split
    case h_1 hnil => rw [hnil] at h; exact absurd h List.not_mem_nil
    case h_2 => rfl
  rw [hhold, State.heldWord, State.setPage_page_self]
  simp only [tget_tput_self, find_heldWord h]
  rfl

theorem State.afterRead_pages : (s.afterRead p o).pages = s.pages := by
  unfold State.afterRead
  repeat' split
  all_goals rfl

/-- A plain read answers the held copy, or the register. -/
theorem State.regRead_plain (hclaim : ¬(pageKind p = .irq ∧ o = 0x914)) (hqueue : ¬(pageKind p = .ports ∧ o = 0x918)) :
    s.regRead k p o = match s.heldWord p k o with
      | some w => (w, s)
      | none => (s.regValue k p o, (s.hold p k o).afterRead p o) := (if_neg hclaim).trans (if_neg hqueue)

/-- What a page's CMD_STATUS shows after a refusal. -/
theorem State.refuse_status (m code r : Nat) : (s.refuse p m code r).cmdStatus p m =
    { result := r, code := code % 256, seq := ((s.page p).seq + 1) % 32768, done := false } := by
  obtain ⟨w, hpage, -⟩ := s.refuse_page (p := p) (m := m) (code := code) (r := r) p
  have hstatus : (s.refuse p m code r).cmdStatus p m = (s.answer p m code r false).cmdStatus p m := by
    unfold State.cmdStatus; rw [hpage]
  exact hstatus.trans (s.answer_status _ _ _ _ _)

/-- A guarded command stands in the command table of its page. -/
theorem guardedCommand_known {kind : PageKind} {code : Nat} (h : code ∉ commandCodes kind) : guardedCommand kind code = false := by
  cases kind <;> simp only [commandCodes, List.mem_cons, List.not_mem_nil, not_or, or_false] at h <;>
    simp [guardedCommand] <;> omega

end Sys2Proof.Machine
end

section

namespace Sys2Proof.Stated

open Machine Safety

variable {s : State} {m : Master} {page : Fin 256} {off : Fin 4096} {b : Fin 32} {v : Word}

theorem exec_alias {o : Nat} (hready : Ready s page m) (ho : o < 0x100) (h4 : o % 4 = 0) :
    exec (.aliasWrite m (aliasAddr page o b) v) s = finish (s.aliasBit (masterCode m) page o b (bit v 0)) :=
  congrArg finish (State.writeAt_alias hready ho h4)

theorem exec_aliasForce (hready : Ready s page m) (hkind : pageKind page ≠ .none) (hone : bit v 0 = true) :
    exec (.aliasWrite m (aliasAddr page 0x018 b) v) s =
      finish (s.force (masterCode m) 2 (aliasAddr page 0x018 b) page (word (2 ^ b.val))) :=
  (exec_alias hready (by decide) (by decide)).trans (congrArg finish (by rw [hone]; exact State.aliasBit_force hkind b))

/-- The bits of the word that the address of one bit writes to a force register. -/
theorem forced_bit {i : Fin 32} (h : bit (word (2 ^ b.val)) i = true) : i = b := by
  rw [bit, getLsbD_word, Nat.testBit_two_pow] at h
  simp only [Bool.and_eq_true, decide_eq_true_eq] at h
  exact Fin.ext h.2.symm

/-- The event of an access that is lost in the bridge. -/
def lostAccess (k : Nat) (write : Bool) (addr : Nat) : Event :=
  { page := sysPage, bit := 5, master := k, access := b2n write, addr }

theorem lostAccess_shows (u : State) (k : Nat) (write : Bool) (addr : Nat) :
    ((u.detect (lostAccess k write addr)).page 0x00).fault.getLsbD 5 = true :=
  (State.detect_shows u (e := lostAccess k write addr) (show 5 < 32 by decide) (show hasSource 0x00 5 = true by decide)
    (.inr (show ¬(pageKind 0x00 = .sched ∧ 5 = 4) by decide))).1

theorem exec_bridgeTimeout {addr : Nat} {wr : Option Word} (hreleased : s.boot.released = true)
    (hmay : s.mayAccess (masterCode m) wr.isSome = true) : exec (.bridgeTimeout m addr wr) s =
      finish (if wr.isSome then (s.access (masterCode m)).detect (lostAccess (masterCode m) wr.isSome addr)
      else ((s.access (masterCode m)).detect (lostAccess (masterCode m) wr.isSome addr)).setSys fun x => { x with
        reply := [0] }) :=
  (if_neg (by simp [hreleased])).trans (if_neg (by simp [hmay]))

/-- A write of an unknown code to CMD issues it. -/
theorem exec_cmdUnknown (hready : Ready s page m) (hkind : pageKind page ≠ .none)
    (h : v.toNat ∉ commandCodes (pageKind page)) :
    exec (.cmdUnknown m page v) s = finish (s.issue (masterCode m) page v.toNat) := by
  have hplain : isGuarded (pageKind page) 0x908 v = false := by simp [isGuarded, guardedCommand_known h]
  refine congrArg finish ((State.writeAt_ready hready (by decide) (by decide) (.inl (by decide))).trans ?_)
  rw [State.regWrite_area s hkind (by decide) (by decide) hplain]
  rfl

end Sys2Proof.Stated

namespace Sys2Proof.Settled

open Machine Stated Safety

/-- Settles O36: a write to the address of a bit is a write of that bit, a read answers the register or its held copy, an unknown
code is refused by the command table, and a timed-out access is a fault event of the bridge. -/
theorem otherAccessesAct : Obligations.OtherAccessesAct := by
  unfold Obligations.OtherAccessesAct
  intro m page off b v addr s p k o one
  refine ⟨fun hready hkind => ⟨?eventEn, ?evtCtrl, ?lock, fun hzero x hx => ?zero,
      fun hone => ⟨fun hdue => ⟨?event, ?fault⟩, fun hnothing => ?nothing, fun hopen hsource => ?forces⟩,
      fun hosc hcode => ?unknown⟩,
    fun hanswers h4 hclaim hqueue => ⟨fun w hheld => ?held, fun hfree => ?read⟩,
    fun hreleased hmay => ?lostRead, fun hreleased hmay => ?lostWrite⟩
  case eventEn =>
    exact does_of ((exec_alias hready (by decide) (by decide)).trans
      (congrArg finish (State.aliasBit_eventEn hkind b (bit v 0)))) (Same.refl _)
  case evtCtrl =>
    exact does_of ((exec_alias hready (by decide) (by decide)).trans
      (congrArg finish (State.aliasBit_evtCtrl hkind b (bit v 0)))) (Same.refl _)
  case lock =>
    exact does_of ((exec_alias hready (by decide) (by decide)).trans
      (congrArg finish (State.aliasBit_lock hkind b (bit v 0)))) (kept_lockWrite _ _ _ _).same
  case zero =>
    have hoff : x < 0x100 ∧ x % 4 = 0 := by
      simp only [List.mem_cons, List.not_mem_nil, or_false] at hx
      omega
    refine does_of ((exec_alias hready hoff.1 hoff.2).trans (congrArg finish ?_)) (Same.refl s)
    rw [hzero]
    exact State.aliasBit_zero hkind b hx
  case event =>
    have hexec : exec (.aliasWrite m (aliasAddr p 0x00C b) v) s = finish (s.setPage p fun g => { g with
        event := g.event &&& ~~~one }) :=
      (exec_alias hready (by decide) (by decide)).trans (congrArg finish (by rw [hone]; exact State.aliasBit_event hkind b))
    refine completes_clear hexec hdue ((congrArg Page.event (State.settle_page _ p)).trans ?_)
    exact congrArg Page.event (State.setPage_page_self s p _)
  case fault =>
    have hexec : exec (.aliasWrite m (aliasAddr p 0x014 b) v) s = finish (s.setPage p fun g => { g with
        fault := g.fault &&& ~~~one }) :=
      (exec_alias hready (by decide) (by decide)).trans (congrArg finish (by rw [hone]; exact State.aliasBit_fault hkind b))
    refine completes_clear hexec hdue ((congrArg Page.fault (State.settle_page _ p)).trans ?_)
    exact congrArg Page.fault (State.setPage_page_self s p _)
  case nothing =>
    have hexec := exec_aliasForce (b := b) hready hkind hone
    rcases hnothing with hclosed | hnone
    · exact does_of (hexec.trans (congrArg finish (State.force_closed _ hclosed)))
        ((Kept.bump _ _ _).trans (Kept.event _ _ _)).same
    by_cases hopen : s.forceOpen = true
    · refine does_of (hexec.trans (congrArg finish (State.force_nothing _ hopen fun i hi => ?_))) (Same.refl s)
      obtain rfl : i = b := forced_bit hi
      exact hnone
    · exact does_of (hexec.trans (congrArg finish (State.force_closed _ (by simpa using hopen))))
        ((Kept.bump _ _ _).trans (Kept.event _ _ _)).same
  case forces =>
    refine completes_standing ((exec_aliasForce hready hkind hone).trans (congrArg finish
      (State.force_one _ hopen b.isLt hsource))) fun t _ hstands => hstands.fault _ _ ?_
    exact (State.detect_shows s b.isLt hsource (.inl rfl)).1
  case unknown =>
    obtain ⟨u, hkept, hissue⟩ := s.issue_unknown hready (homePage_self page) hosc hkind hcode
    refine completes_of ((exec_cmdUnknown hready hkind hcode).trans (congrArg finish hissue)) fun t ht => ⟨?_, ?_⟩
    · exact (hkept.same.trans (refuse_same _ _ _ _)).trans ht.same
    · rw [kept_status ht, State.refuse_status, page_field (f := Page.seq) hkept fun _ _ _ => rfl]
  case held =>
    have hread : s.regRead k p o = (w, s) := by rw [s.regRead_plain hclaim hqueue, hheld]
    exact completes_snapshotRead_plain hanswers h4 hread fun t ht => ht
  case read =>
    have hread : s.regRead k p o = (s.regValue k p o, (s.hold p k o).afterRead p o) := by
      rw [s.regRead_plain hclaim hqueue, hfree]
    have hexec : exec (.snapshotRead m page off) s = finish (((s.hold p k o).afterRead p o).setSys fun x => { x with
        reply := [s.regValue k p o] }) := by
      rw [exec_snapshotRead, State.readAt_answers hanswers off.isLt h4, hread]
    refine completes_of hexec fun t ht => ⟨by rw [ht.sys]; rfl, fun x hx => ?_⟩
    have hholds : (t.page p).holds = ((s.hold p k o).page p).holds :=
      (page_field (f := Page.holds) ht fun _ _ _ => rfl).trans
        (congrArg (fun l => (tget (fun _ => Page.zero) l p).holds) ((s.hold p k o).afterRead_pages))
    rw [State.heldWord, hholds]
    exact s.hold_words hx
  case lostRead =>
    have hexec : exec (.bridgeTimeout m addr none) s = finish (((s.access k).detect (lostAccess k false addr)).setSys
      fun x => { x with reply := [0] }) := exec_bridgeTimeout hreleased hmay
    exact completes_standing hexec fun t ht hstands =>
      ⟨by rw [ht.sys]; rfl, hstands.fault _ _ (lostAccess_shows (s.access k) k false addr)⟩
  case lostWrite =>
    have hexec : exec (.bridgeTimeout m addr (some v)) s = finish ((s.access k).detect (lostAccess k true addr)) :=
      exec_bridgeTimeout hreleased hmay
    exact completes_standing hexec fun t _ hstands => hstands.fault _ _ (lostAccess_shows (s.access k) k true addr)

end Sys2Proof.Settled
end

section
/-! PROOFS. The obligation on SPI frames (R384 to R387). -/

namespace Sys2Proof.Safety

open Machine

/-- The same change of the host interface keeps what was kept. -/
theorem Kept.setSys {s t : State} (h : Kept s t) (f : SysUnit → SysUnit) : Kept (s.setSys f) (t.setSys f) :=
  { h with sys := congrArg f h.sys }

end Sys2Proof.Safety

namespace Sys2Proof.Machine

open Safety

variable (s : State) {bs : List Nat} {l : List Nat}

/-- A damaged frame is counted and reported (R386). -/
theorem State.kept_spiDamaged : Kept s s.spiDamaged := (Kept.bump s 0x00 0xA08).trans (Kept.collectC _ _)

/-- A frame arrives: it is counted, and the reply is silent. -/
def State.spiHeard (n : Nat) : State := (s.bump sysPage 0xA00).misoIs (List.replicate n 0)

theorem State.kept_spiHeard (n : Nat) : Kept (s.misoIs (List.replicate n 0)) (s.spiHeard n) :=
  (Kept.bump s 0x00 0xA00).setSys _

section
variable {s} {bytes : List Byte} (hreleased : s.boot.released = true)
include hreleased

/-- A frame goes by its opcode (R385). -/
theorem State.spiFrame_opcode {k : Nat} (h : (bytes.map BitVec.toNat).head? = some k) : s.spiFrame bytes =
    match some k with
    | some 0x02 => (s.spiHeard (bytes.map BitVec.toNat).length).spiWriteFrame (bytes.map BitVec.toNat)
    | some 0x03 => (s.spiHeard (bytes.map BitVec.toNat).length).spiReadFrame (bytes.map BitVec.toNat)
    | some 0x05 => (s.spiHeard (bytes.map BitVec.toNat).length).spiStatusFrame (bytes.map BitVec.toNat)
    | some 0x06 => (s.spiHeard (bytes.map BitVec.toNat).length).spiGwriteFrame (bytes.map BitVec.toNat)
    | _ => (s.spiHeard (bytes.map BitVec.toNat).length).bump sysPage 0xA08 := by
  have hsome : ¬(s.boot.released = false ∨ bytes.map BitVec.toNat = []) := by
    rintro (hoff | hnil)
    · simp [hreleased] at hoff
    · simp [hnil] at h
  rw [State.spiFrame]
  refine (if_neg hsome).trans ?_
  rw [h]
  rfl

theorem State.spiFrame_unknown (hsome : bytes.map BitVec.toNat ≠ [])
    (h : ∀ k ∈ [0x02, 0x03, 0x05, 0x06], (bytes.map BitVec.toNat).head? ≠ some k) :
    s.spiFrame bytes = (s.spiHeard (bytes.map BitVec.toNat).length).bump sysPage 0xA08 := by
  obtain ⟨k, hk⟩ : ∃ k, (bytes.map BitVec.toNat).head? = some k := Option.isSome_iff_exists.mp (by simpa using hsome)
  rw [State.spiFrame_opcode hreleased hk]
  split
  case h_5 => rfl
  all_goals
    rename_i hopcode
    exact absurd (hk.trans hopcode) (h _ (by decide))

end

/-- A damaged WRITE or GWRITE frame says why it was turned away, and touches nothing else (R386). -/
theorem State.spiFail_says (n : Nat) (crc len : Bool) : Kept ((s.misoIs (List.replicate n 0)).setSys fun x => { x with
    spiApplied := false, spiCrc := !crc, spiLen := !len }) ((s.spiHeard n).spiFail crc len) :=
  ((s.kept_spiHeard n).setSys _).trans (State.kept_spiDamaged _)

/-- The status byte does not depend on the reply. -/
theorem spiStatus_misoIs (bad : Bool) : (s.misoIs l).sys.spiStatus bad = s.sys.spiStatus bad := rfl

/-- A reply with the status byte, after what a damaged frame leaves. -/
theorem State.spiAnswer_says {u : State} (n : Nat) (hkept : Kept (s.spiHeard n) u) (bad : Bool) (f : Nat → List Nat) :
    Kept (s.misoIs (f (s.sys.spiStatus bad))) (u.misoIs (f (u.sys.spiStatus bad))) := by
  have hstatus : u.sys.spiStatus bad = s.sys.spiStatus bad := by rw [hkept.sys]; rfl
  rw [hstatus]
  exact (((s.kept_spiHeard n).trans hkept).setSys fun x => { x with miso := f (s.sys.spiStatus bad) })

theorem State.spiStatusFrame_good (h : (crcOk (bs.take 2) && decide (2 ≤ bs.length)) = true) :
    s.spiStatusFrame bs = s.misoIs [s.sys.spiStatus false, crc8 [s.sys.spiStatus false]] := by
  simp only [State.spiStatusFrame, h]
  rfl

theorem State.spiStatusFrame_bad (h : (crcOk (bs.take 2) && decide (2 ≤ bs.length)) = false) : s.spiStatusFrame bs =
    s.spiDamaged.misoIs [s.spiDamaged.sys.spiStatus true, crc8 [s.spiDamaged.sys.spiStatus true]] := by
  simp only [State.spiStatusFrame, h]
  rfl

end Sys2Proof.Machine

namespace Sys2Proof.Settled

open Machine Stated Safety

/-- Settles O32: a frame goes by its opcode, and a good one acts; a damaged one is answered and reported. -/
theorem spiFramesAct : Obligations.SpiFramesAct := by
  unfold Obligations.SpiFramesAct
  intro bytes s bs c n addrs a v u done failed answer hreleased
  refine ⟨fun hop => ⟨fun hcrc hlen => ?write, fun hbad => ?badWrite⟩,
    fun hop => ⟨fun hlen hcrc => ?read, fun hbad => ?badRead⟩,
    fun hop => ⟨fun hlen hcrc => ?status, fun hbad => ?badStatus⟩,
    fun hop => ⟨fun hcrc hlen g hg => ?gwrite, fun hbad => ?badGwrite⟩,
    fun hsome hother => ⟨?unknown, fun hdue => ?counted⟩⟩
  case write =>
    have hgood : (crcOk bs && decide (bs.length = 7 + 4 * n)) = true := by simp [hcrc, hlen]
    exact does_of (congrArg finish ((State.spiFrame_opcode hreleased hop).trans (if_pos hgood))) (Same.refl _)
  case badWrite =>
    have hfail : ¬(crcOk bs && decide (bs.length = 7 + 4 * n)) = true := by
      rcases hbad with h | h <;> simp [h]
    exact does_of (congrArg finish ((State.spiFrame_opcode hreleased hop).trans (if_neg hfail)))
      (s.spiFail_says _ _ _).same
  case read =>
    have hframe : s.spiFrame bytes = _ := (State.spiFrame_opcode hreleased hop).trans (if_pos ⟨hlen, hcrc⟩)
    refine completes_of (congrArg finish hframe) fun t hkept => ?_
    rw [hkept.sys]
    exact ⟨rfl, rfl⟩
  case badRead =>
    have hfail : ¬(7 ≤ bs.length ∧ crcOk (bs.take 7) = true) := by
      rintro ⟨hlen, hcrc⟩
      rcases hbad with h | h
      · omega
      · simp [hcrc] at h
    exact does_of (congrArg finish ((State.spiFrame_opcode hreleased hop).trans (if_neg hfail)))
      (s.spiAnswer_says _ (State.kept_spiDamaged _) true fun st => [0xC3, st]).same
  case status =>
    have hgood : (crcOk (bs.take 2) && decide (2 ≤ bs.length)) = true := by simp [hcrc, hlen]
    exact does_of (congrArg finish ((State.spiFrame_opcode hreleased hop).trans (State.spiStatusFrame_good _ hgood)))
      (s.spiAnswer_says _ (Kept.refl _) false fun st => [st, crc8 [st]]).same
  case badStatus =>
    have hfail : (crcOk (bs.take 2) && decide (2 ≤ bs.length)) = false := by
      rcases hbad with h | h
      · simp [Nat.not_le.mpr h]
      · simp [h]
    exact does_of (congrArg finish ((State.spiFrame_opcode hreleased hop).trans (State.spiStatusFrame_bad _ hfail)))
      (s.spiAnswer_says _ (State.kept_spiDamaged _) true fun st => [st, crc8 [st]]).same
  case gwrite =>
    have hgood : (crcOk bs && decide (bs.length = 10)) = true := by simp [hcrc, hlen]
    refine does_of (w := done ((u.writeAt 1 a v).writeAt 1 g (~~~v))) (congrArg finish
      ((State.spiFrame_opcode hreleased hop).trans ((if_pos hgood).trans ?_))) (Same.refl _)
    rw [hg]
    rfl
  case badGwrite =>
    have hfail : ¬(crcOk bs && decide (bs.length = 10)) = true := by
      rcases hbad with h | h <;> simp [h]
    exact does_of (congrArg finish ((State.spiFrame_opcode hreleased hop).trans (if_neg hfail)))
      (s.spiFail_says _ _ _).same
  case unknown =>
    exact does_of (congrArg finish (State.spiFrame_unknown hreleased hsome hother))
      ((s.kept_spiHeard _).trans (Kept.bump _ _ _)).same
  case counted =>
    refine completes_clear (congrArg finish (State.spiFrame_unknown hreleased hsome hother)) hdue ?_
    rw [State.settle_counter _ _ _ _ (by decide), State.bump_counter, if_pos (by decide)]
    exact congrArg (fun k => (k + 1) % 2 ^ 64) ((s.bump_counter 0x00 0xA00 0x00 0xA08).trans (if_neg (by decide)))

end Sys2Proof.Settled
end

section
/-! PROOFS. The frames by unit (R336): TX_HELD_RETURN also touches the transmit synthesiser. -/

namespace Sys2Proof.Settled

open Machine Stated Safety

/-- Port 0 takes its transmit clock from synthesiser 0, which has just locked at 12.5 GHz. -/
def justLocked : State := { State.reset with
  syns := [(0, { Syn.zero with state := .locked, plan := { Plan.zero with nNom := 250 * 2 ^ 48 } })]
  active := [(0x0C100, 0)] }

/-- The state that the return of TX_HELD leaves before its records. -/
def heldReturned : State :=
  (justLocked.setHeld 0 false).setSyn 0 fun y => { y with lockedFor := max y.lockedFor secondRounds }

theorem exec_heldReturned : exec (.txHeldReturn 0) justLocked = finish heldReturned :=
  congrArg finish (if_pos (by decide +kernel))

/-- Refutes O58: TX_HELD_RETURN on `justLocked` ends the second of lock that the synthesiser counts, which is no unit of
the service. -/
theorem not_unitsKeepApart : ¬Obligations.UnitsKeepApart := by
  unfold Obligations.UnitsKeepApart
  intro h
  obtain ⟨t, ht, hkept⟩ := finish_kept heldReturned
  obtain ⟨hports, -⟩ := h .control 0 0 none 0 ⟨0, none, 0, 0⟩
    ⟨0, 0, 0, 0, 0, 0, 0, 0, 0, false, false, false, false, false, false⟩ ⟨false, [], false, 0, 0, 0⟩
    ⟨false, [], 0, 0, 0, 0, 0, false, false, 0⟩ ⟨[], [], 0, [], [], []⟩ ⟨false, []⟩ false [] none 0 0 0 0 0 0 0 .clean
    justLocked t
  have hsyns := (hports (.txHeldReturn 0) (by simp) (exec_heldReturned.trans ht)).syns
  have hleft : (t.syn 0).lockedFor = 0 := congrArg (fun l => (tget (fun _ => Syn.zero) l 0).lockedFor) hsyns
  have hright : (t.syn 0).lockedFor = 8000 := by
    rw [State.syn, hkept.syns]
    decide +kernel
  omega

end Sys2Proof.Settled
end

section
/-! PROOFS. Sending from the packet ports (R336, R341), and the obligation on their frames (R337, R339, R341, R342, R357). -/

namespace Sys2Proof.Safety

open Machine

/-- What sending a frame leaves: the configuration, whether the service runs, and which ports are up. -/
structure Sends (s t : State) : Prop where
  active : t.active = s.active
  serviceOn : t.serviceOn = s.serviceOn
  linkUp : ∀ p, (t.port p).linkUp = (s.port p).linkUp

namespace Sends

variable {s t u : State}

theorem refl (s : State) : Sends s s := ⟨rfl, rfl, fun _ => rfl⟩

theorem trans (h : Sends s t) (g : Sends t u) : Sends s u :=
  ⟨g.active.trans h.active, g.serviceOn.trans h.serviceOn, fun p => (g.linkUp p).trans (h.linkUp p)⟩

theorem foldl {α : Type} {f : State → α → State} (hf : ∀ u a, Sends u (f u a)) (l : List α) (s : State) :
    Sends s (l.foldl f s) := by
  induction l generalizing s with
  | nil => exact refl s
  | cons a l ih => exact (hf s a).trans (ih _)

theorem portUp (h : Sends s t) (p : Nat) : t.portUp p = s.portUp p := by
  rw [State.portUp, State.portUp, h.serviceOn, h.linkUp]

/-- The addresses of a port depend on the configuration alone. -/
theorem addresses (h : Sends s t) (p : Nat) : t.addresses p = s.addresses p := by
  have hcfg (u : State) : u.addresses p = { State.reset with active := u.active }.addresses p := rfl
  rw [hcfg t, hcfg s, h.active]

end Sends

end Sys2Proof.Safety

namespace Sys2Proof.Machine

open Safety

variable (s : State) {p q : Nat} {f : Frame}

theorem State.send_port_other (h : q ≠ p) : (s.send p f).port q = s.port q := by
  have hsent : (s.send p f).port q = (s.setPort p fun x => { x with lastTx := f, lastTag := s.sentTag p }).port q := rfl
  rw [hsent, State.setPort_port, if_neg h]

theorem State.send_port : (s.send p f).port p = { s.port p with lastTx := f, lastTag := s.sentTag p } := by
  have hsent : (s.send p f).port p = (s.setPort p fun x => { x with lastTx := f, lastTag := s.sentTag p }).port p := rfl
  rw [hsent, State.setPort_port, if_pos rfl]

theorem State.send_lastTx : ((s.send p f).port p).lastTx = f := by rw [s.send_port]

theorem State.sends_send : Sends s (s.send p f) := by
  refine ⟨rfl, rfl, fun q => ?_⟩
  by_cases h : q = p
  · subst h; rw [s.send_port]
  · rw [s.send_port_other h]

/-- The service addresses of a port are announced. -/
def State.announceService (p : Nat) : State :=
  ((s.addresses p).filter fun a => a.2.2).foldl (fun (s : State) a => s.send p (.gratuitous a.2.1)) s

theorem State.sends_announceService : Sends s (s.announceService p) := Sends.foldl (fun u _ => State.sends_send u) _ s

theorem State.announceService_port_other (h : q ≠ p) : (s.announceService p).port q = s.port q := by
  unfold State.announceService
  generalize (s.addresses p).filter _ = l
  induction l generalizing s with
  | nil => rfl
  | cons a l ih => exact (ih _).trans (s.send_port_other h)

/-- The last service address of a port is announced last. -/
theorem State.announceService_lastTx {x : Bool × List Nat × Bool} (h : ((s.addresses p).filter fun a => a.2.2).getLast? = some x) :
    ((s.announceService p).port p).lastTx = .gratuitous x.2.1 := by
  unfold State.announceService
  generalize (s.addresses p).filter _ = l at h
  obtain ⟨l, rfl⟩ := List.getLast?_eq_some_iff.mp h
  rw [List.foldl_append]
  exact State.send_lastTx _

/-- The ports announce one after the other. -/
def State.announcePort (p : Nat) : State := if s.portUp p then s.announceService p else s

theorem State.sends_announcePort : Sends s (s.announcePort p) := by
  unfold State.announcePort
  split
  · exact State.sends_announceService s
  · exact Sends.refl s

theorem State.announceAddresses_eq : s.announceAddresses = (List.range 4).foldl State.announcePort s := rfl

/-- What a port announces stands until it sends again. -/
theorem State.announcePorts_lastTx {x : Bool × List Nat × Bool} (l : List Nat) (hup : s.portUp p = true)
    (h : ((s.addresses p).filter fun a => a.2.2).getLast? = some x)
    (hturn : p ∈ l ∨ (s.port p).lastTx = .gratuitous x.2.1) :
    ((l.foldl State.announcePort s).port p).lastTx = .gratuitous x.2.1 := by
  induction l generalizing s with
  | nil => exact hturn.resolve_left List.not_mem_nil
  | cons q l ih =>
    have hsends : Sends s (s.announcePort q) := State.sends_announcePort s
    refine ih (s.announcePort q) ((hsends.portUp p).trans hup) (by rw [hsends.addresses]; exact h) ?_
    by_cases hq : p = q
    · subst hq
      right
      rw [State.announcePort, if_pos hup]
      exact s.announceService_lastTx h
    · refine hturn.imp (fun hmem => (List.mem_cons.mp hmem).resolve_left hq) fun hlast => ?_
      rw [State.announcePort]
      split
      · rw [s.announceService_port_other hq]; exact hlast
      · exact hlast

/-- A good frame for the host that nothing consumes joins the receive queue (R339, R340). -/
theorem State.frameIn_host {bs f : List Nat} (hup : s.portUp p = true) (huntag : s.untag p bs = some f)
    (hmac : s.macOk p f = true) (hfree : s.consumes p f = false)
    (hhost : bit (s.pcfg p 0) 8 = true ∨ s.ptpForHost p f = true) (hroom : s.rxBytes + bs.length ≤ 65536) :
    (s.frameIn p true bs).svc.rx = s.svc.rx ++ [(p, bs)] := by
  have hfor : (s.ptpForHost p f || bit (s.pcfg p 0) 8) = true := by rcases hhost with h | h <;> simp [h]
  have hin : s.frameIn p true bs = (s.portCount p 0).toHost p bs := by
    refine (if_neg (by simp [hup])).trans ((if_neg (by decide)).trans ?_)
    change (match s.untag p bs with | none => _ | some f => _) = _
    rw [huntag]
    exact (if_neg (by rw [show (s.portCount p 0).macOk p f = true from hmac]; decide)).trans ((if_neg (by
      rw [show (s.portCount p 0).consumes p f = false from hfree]; decide)).trans (if_pos hfor))
  have hjoins : (s.portCount p 0).toHost p bs =
      (((s.portCount p 0).setSvc fun v => { v with rx := v.rx ++ [(p, bs)] }).portCount p 5).event portsPage 8 := if_pos hroom
  rw [hin, hjoins]
  rfl

end Sys2Proof.Machine
end

section

namespace Sys2Proof.Settled

open Machine Stated Safety

/-- Settles O27: each frame by the conditions of its row; what a port sent last is what it announces or answers. -/
theorem portFramesAreHandled : Obligations.PortFramesAreHandled := by
  unfold Obligations.PortFramesAreHandled
  intro p frame ipv6 target ssm enhanced s bs ip
  refine ⟨fun hup => ⟨fun hfcs => ?damaged, fun hfcs f huntag hmac hfree hhost hroom => ?host,
      fun hruns => ⟨fun hanswers => ?arp, fun hserving x hlast => ?gratuitous, ?esmc⟩⟩,
    fun hon => ?info, fun hplan hlocked => ?returns, fun hwaits => ?waits⟩
  case damaged =>
    have hin : s.frameIn p frame.fcsOk bs = s.portCount p 2 := (if_neg (by simp [hup])).trans (if_pos hfcs)
    exact does_of (congrArg finish hin) (Kept.bump _ _ _).same
  case host =>
    refine completes_of (w := s.frameIn p frame.fcsOk bs) rfl fun t hkept => ?_
    rw [hkept.svc, hfcs]
    exact s.frameIn_host hup huntag hmac hfree hhost hroom
  case arp =>
    have hexec : exec (.arpRequest p ipv6 target) s = finish ((s.portCount p 0).send p (.arp ip)) :=
      congrArg finish (if_pos ⟨hup, hruns, hanswers⟩)
    refine completes_of hexec fun t hkept => ?_
    rw [hkept.port, State.send_lastTx]
  case gratuitous =>
    have hexec : exec .gratuitousArp s = finish s.announceAddresses := congrArg finish (if_pos ⟨hruns, hserving⟩)
    refine completes_of hexec fun t hkept => ?_
    rw [hkept.port, State.announceAddresses_eq]
    exact s.announcePorts_lastTx _ hup hlast (.inl (List.mem_range.mpr p.isLt))
  case esmc =>
    have hexec : exec (.esmcPdu p ssm enhanced) s = finish ((s.portCount p 0).setQual (32 + p.val) fun q => { q with
        qlRx := match enhanced with | some e => e % 256 | none => ssm % 16
        qlEnh := enhanced.isSome, esmcAge := 0, qlTimeout := false }) := congrArg finish (if_pos ⟨hup, hruns⟩)
    refine completes_of hexec fun t hkept => ?_
    rw [hkept.qual, State.setQual_qual_self]
    exact ⟨rfl, rfl, rfl, rfl⟩
  case info =>
    have hexec : exec (.esmcInfoPdu p) s = finish ((s.setPort p fun x => { x with ssm := s.ssmOf p }).send p
        (.esmc (s.ssmOf p) false (s.enhancedOf p))) := congrArg finish (if_pos hon)
    refine completes_of hexec fun t hkept => ?_
    rw [hkept.port, State.send_port, State.setPort_port_self]
    exact ⟨rfl, rfl⟩
  case returns =>
    have hexec : exec (.txHeldReturn p) s = finish ((s.setHeld p false).setSyn (bits (s.pcfg p 0) 7 4) fun y => { y with
        lockedFor := max y.lockedFor secondRounds }) := congrArg finish (if_pos ⟨hplan, hlocked⟩)
    refine completes_of hexec fun t hkept => ?_
    have hport : (s.setHeld p false).port p = { s.port p with txHeld := false } := by
      unfold State.setHeld
      rw [State.setPort_port_self, (kept_eventIf s _ _ _).port]
    rw [hkept.port]
    exact congrArg Port.txHeld hport
  case waits =>
    have hnot : ¬(s.txPlanBad p = false ∧ (s.syn (bits (s.pcfg p 0) 7 4)).state = .locked) := by
      rintro ⟨hplan, hlocked⟩
      rcases hwaits with h | h
      · simp [hplan] at h
      · exact h hlocked
    exact does_of (congrArg finish (if_neg hnot)) (Same.refl s)

end Sys2Proof.Settled
end

section
/-! PROOFS. Requests of the time service (R348 to R351, R353, R354): the rate limit, the cap, the cookies and the launch queue. -/

namespace Sys2Proof.Machine

variable (s : State) {p : Nat} {q : NtpReq}

/-! What an answer is made of. -/

/-- What a response is made of: the configuration, the direct registers, the clock, the domains, their times and the ports. -/
def State.servedBy (s : State) : State :=
  { State.reset with active := s.active, direct := s.direct, osc := s.osc, doms := s.doms, time := s.time,
                     svc := { State.reset.svc with ports := s.svc.ports } }

theorem State.ntpReply_servedBy : s.ntpReply p q = s.servedBy.ntpReply p q := rfl

/-- A request has been counted: in counter `n` and its port's, in the bucket of its source, and as `k` units of the cap. -/
def State.counted (n p : Nat) (b : Table Nat) (k : Nat) : State :=
  ((s.svcCount n).portCount p 0).setSvc fun x => { x with buckets := b, used := x.used + k }

theorem State.counted_reply (n : Nat) (b : Table Nat) (k : Nat) : (s.counted n p b k).ntpReply p q = s.ntpReply p q := by
  rw [State.ntpReply_servedBy, s.ntpReply_servedBy]
  rfl

/-- New cookies take free values and count nonces, and change nothing else. -/
theorem State.newCookies_takes (c2s s2c : List Nat) (n : Nat) (s : State) : ∃ f k,
    (State.newCookies c2s s2c n s).2 = { s with free := f, svc := { s.svc with nonce := k } } := by
  induction n generalizing s with
  | zero => exact ⟨s.free, s.svc.nonce, rfl⟩
  | succ n ih =>
    obtain ⟨f, k, h⟩ := ih (s.newCookie c2s s2c).2
    exact ⟨f, k, h⟩

/-- New cookies are made of the keys, the nonce count and the free values. -/
theorem State.newCookies_congr (c2s s2c : List Nat) (n : Nat) {s t : State} (hkeys : t.svc.keys = s.svc.keys)
    (hcur : t.svc.keyCur = s.svc.keyCur) (hnonce : t.svc.nonce = s.svc.nonce) (hfree : t.free = s.free) :
    (State.newCookies c2s s2c n t).1 = (State.newCookies c2s s2c n s).1 := by
  induction n generalizing s t with
  | zero => rfl
  | succ n ih =>
    have hcookie : (t.newCookie c2s s2c).1 = (s.newCookie c2s s2c).1 := by
      simp only [State.newCookie, State.keySlot, hkeys, hcur, hnonce, hfree]
    have hrest : (State.newCookies c2s s2c n (t.newCookie c2s s2c).2).1 =
        (State.newCookies c2s s2c n (s.newCookie c2s s2c).2).1 :=
      ih hkeys hcur (congrArg (fun k => (k + 1) % 2 ^ 64) hnonce) (congrArg Nat.succ hfree)
    exact congrArg₂ (· ++ ·) hcookie hrest

/-! The rate limit and the cap. -/

/-- The bucket of a request is below its limit, or no limit is set (R353). -/
def State.belowLimit (q : NtpReq) : Prop :=
  bit (s.scfg 0x10) 0 = false ∨ s.bucket (s.bucketOf q) < s.rlBurst

theorem State.rateLimit_counts : ∃ b, (s.rateLimit q).2 = (s.setSvc fun x => { x with buckets := b }) ∧
    ((s.rateLimit q).1 = false ↔ s.belowLimit q) := by
  unfold State.rateLimit State.belowLimit
  by_cases h : bit (s.scfg 0x10) 0 = true
  · rw [if_pos h]
    exact ⟨_, rfl, by simp [h]⟩
  · rw [if_neg h]
    exact ⟨s.svc.buckets, rfl, by simp [h]⟩

theorem State.takeCap_room {n : Nat} (h : s.svc.used + n ≤ s.capNow) :
    s.takeCap n = some (s.setSvc fun v => { v with used := v.used + n }) := if_neg (Nat.not_lt.mpr h)

theorem State.takeCap_full {n : Nat} (h : ¬s.svc.used + n ≤ s.capNow) : s.takeCap n = none := if_pos (Nat.lt_of_not_le h)

theorem State.capDrop_svc : s.capDrop.svc = { s.svc with capHit := true } := by
  unfold State.capDrop State.eventIf
  dsimp only
  split <;> rfl

/-! A plain request. -/

/-- A request reaches a port that answers it, in a role that serves (R348). -/
def State.ntpHeard (p : Nat) : Prop :=
  s.ntpReaches p = true ∧ (s.standby = false ∨ bit (s.cfg 0x07 0) 7 = true)

/-- The response to a plain request. -/
def State.ntpResponse (p : Nat) (q : NtpReq) : Response :=
  { port := p, launch := (s.ntpReply p q).2, frame := .ntp (s.ntpReply p q).1, nts := false }

/-- A counted request below its limit. -/
def State.ntpWithin (p : Nat) (q : NtpReq) : State :=
  match s.takeCap 1 with
  | none => s.capDrop
  | some s => s.queueLaunch (s.ntpResponse p q) q.onTime

/-- A counted request above its limit. -/
def State.ntpAbove (p : Nat) (q : NtpReq) : State :=
  if bit (s.scfg 0x10) 1 then (s.svcCount 6).send p (.rate q.transmit) else s.svcCount 7

theorem State.not_ntpHeard :
    ¬s.ntpHeard p ↔ s.ntpReaches p = false ∨ (s.standby = true ∧ bit (s.cfg 0x07 0) 7 = false) := by
  unfold State.ntpHeard
  cases s.ntpReaches p <;> cases s.standby <;> simp

theorem State.ntpAnswer_unheard (h : ¬s.ntpHeard p) : (s.ntpAnswer p q).svc.launch = s.svc.launch := by
  by_cases hreach : s.ntpReaches p = false
  · have hnone : s.ntpAnswer p q = s := if_pos hreach
    rw [hnone]
  · have hfence : s.ntpAnswer p q = ((s.svcCount 0).portCount p 0).svcCount 10 :=
      (if_neg hreach).trans (if_pos ((s.not_ntpHeard.mp h).resolve_left hreach))
    rw [hfence]
    rfl

theorem State.ntpAnswer_heard (h : s.ntpHeard p) : s.ntpAnswer p q =
    let u := (s.svcCount 0).portCount p 0
    if u.ntpMalformed q then u.svcCount 11
    else if bit (u.scfg 0) 0 = false then u
    else if (u.rateLimit q).1 then (u.rateLimit q).2.ntpAbove p q else (u.rateLimit q).2.ntpWithin p q := by
  obtain ⟨hreach, hserves⟩ := h
  have hno : ¬(s.standby = true ∧ bit (s.cfg 0x07 0) 7 = false) := by rcases hserves with h | h <;> simp [h]
  exact (if_neg (by simp [hreach])).trans (if_neg hno)

/-- A good request is counted in its bucket and taken, or found above its limit. -/
theorem State.ntpAnswer_good (h : s.ntpHeard p) (hform : s.ntpMalformed q = false) (hon : bit (s.scfg 0) 0 = true) :
    ∃ b, (s.belowLimit q → s.ntpAnswer p q = (s.counted 0 p b 0).ntpWithin p q) ∧
      (¬s.belowLimit q → s.ntpAnswer p q = (s.counted 0 p b 0).ntpAbove p q) := by
  obtain ⟨b, hcounts, hbelow⟩ := ((s.svcCount 0).portCount p 0).rateLimit_counts (q := q)
  have hcounts : (((s.svcCount 0).portCount p 0).rateLimit q).2 = s.counted 0 p b 0 := hcounts
  have hanswer := (s.ntpAnswer_heard h (q := q)).trans
    ((if_neg (ne_true_of_eq_false hform)).trans (if_neg (ne_false_of_eq_true hon)))
  rw [hcounts] at hanswer
  exact ⟨b, fun h => hanswer.trans (if_neg (ne_true_of_eq_false (hbelow.mpr h))),
    fun h => hanswer.trans (if_pos (Bool.of_not_eq_false (mt hbelow.mp h)))⟩

theorem State.ntpWithin_room {b : Table Nat} (hroom : s.svc.used + 1 ≤ s.capNow) :
    (s.counted 0 p b 0).ntpWithin p q = (s.counted 0 p b 1).queueLaunch (s.ntpResponse p q) q.onTime := by
  have hreply : (s.counted 0 p b 1).ntpResponse p q = s.ntpResponse p q := by
    unfold State.ntpResponse
    rw [s.counted_reply]
  unfold State.ntpWithin
  rw [State.takeCap_room _ (show (s.counted 0 p b 0).svc.used + 1 ≤ (s.counted 0 p b 0).capNow from hroom)]
  exact congrArg (fun r => (s.counted 0 p b 1).queueLaunch r q.onTime) hreply

theorem State.ntpWithin_full {b : Table Nat} (hroom : ¬s.svc.used + 1 ≤ s.capNow) :
    (s.counted 0 p b 0).ntpWithin p q = (s.counted 0 p b 0).capDrop := by
  unfold State.ntpWithin
  rw [State.takeCap_full _ (show ¬(s.counted 0 p b 0).svc.used + 1 ≤ (s.counted 0 p b 0).capNow from hroom)]

/-- A request off the grid of the rules leaves the launch queue alone. -/
theorem State.ntpAnswer_kept (h : ¬s.ntpHeard p ∨ s.ntpMalformed q = true ∨ bit (s.scfg 0) 0 = false ∨ ¬s.belowLimit q ∨
    q.onTime = false) : (s.ntpAnswer p q).svc.launch = s.svc.launch := by
  by_cases hheard : s.ntpHeard p
  case neg => exact s.ntpAnswer_unheard hheard
  cases hform : s.ntpMalformed q
  case true =>
    have hbad : s.ntpAnswer p q = ((s.svcCount 0).portCount p 0).svcCount 11 := (s.ntpAnswer_heard hheard).trans (if_pos hform)
    rw [hbad]
    rfl
  cases hon : bit (s.scfg 0) 0
  case false =>
    have hoff : s.ntpAnswer p q = (s.svcCount 0).portCount p 0 :=
      (s.ntpAnswer_heard hheard).trans ((if_neg (ne_true_of_eq_false hform)).trans (if_pos hon))
    rw [hoff]
    rfl
  obtain ⟨b, hin, habove⟩ := s.ntpAnswer_good hheard hform hon
  by_cases hbelow : s.belowLimit q
  case neg =>
    rw [habove hbelow]
    unfold State.ntpAbove
    split <;> rfl
  have hlate : q.onTime = false := by simpa [hheard, hform, hon, hbelow] using h
  rw [hin hbelow]
  by_cases hroom : s.svc.used + 1 ≤ s.capNow
  · rw [s.ntpWithin_room hroom, hlate]
    rfl
  · rw [s.ntpWithin_full hroom, State.capDrop_svc]
    rfl

/-! An NTS request. -/

variable {n : NtsFields}

/-- The answer to an NTS request whose cookie does not open. -/
def State.ntsNak (p : Nat) (n : NtsFields) : State := (s.svcCount 4).send p (.ntsNak (n.uid.map BitVec.toNat))

/-- The seal of an NTS request verifies under `c2s`. -/
def sealVerifies (n : NtsFields) (c2s : List Nat) : Prop :=
  Config.sivOpen c2s (n.covered.map BitVec.toNat ++ n.nonce.map BitVec.toNat) (n.sealed.map BitVec.toNat) ≠ none

/-- The response to an NTS request, with new cookies. -/
def State.ntsReply (p : Nat) (q : NtpReq) (n : NtsFields) (c2s s2c : List Nat) : Response :=
  { port := p, launch := (s.ntpReply p q).2, nts := true
    frame := .nts (s.ntpReply p q).1 (n.uid.map BitVec.toNat) (Config.sivSeal s2c (n.uid.map BitVec.toNat)
      (State.newCookies c2s s2c (1 + n.placeholders) s).1) }

/-- An NTS request within its limit and the cap. -/
def State.ntsTaken (p : Nat) (q : NtpReq) (n : NtsFields) : State :=
  if bit (s.scfg 0) 1 = false then s.ntsNak p n
  else
    match s.openCookie (n.cookie.map BitVec.toNat) with
    | none => s.ntsNak p n
    | some (c2s, s2c) =>
      match Config.sivOpen c2s (n.covered.map BitVec.toNat ++ n.nonce.map BitVec.toNat) (n.sealed.map BitVec.toNat) with
      | none => s.svcCount 5
      | some _ => (State.newCookies c2s s2c (1 + n.placeholders) s).2.queueLaunch (s.ntsReply p q n c2s s2c) q.onTime

/-- An NTS request within its limit. -/
def State.ntsWithin (p : Nat) (q : NtpReq) (n : NtsFields) : State :=
  match s.takeCap 3 with
  | none => s.capDrop
  | some s => s.ntsTaken p q n

theorem State.ntsAnswer_eq : s.ntsAnswer p q n =
    if s.ntpReaches p = false then s
    else
      let u := (s.svcCount 2).portCount p 0
      if u.standby = true ∧ bit (u.cfg 0x07 0) 7 = false then u.svcCount 10
      else if u.ntpMalformed q = true ∨ 7 < n.placeholders then u.svcCount 11
      else if (u.rateLimit q).1 then (u.rateLimit q).2.svcCount 7 else (u.rateLimit q).2.ntsWithin p q n := rfl

theorem State.ntsTaken_nak (h : bit (s.scfg 0) 1 = false ∨ s.openCookie (n.cookie.map BitVec.toNat) = none) :
    s.ntsTaken p q n = s.ntsNak p n := by
  unfold State.ntsTaken
  split
  · rfl
  · next hon =>
    rw [h.resolve_left hon]

theorem State.ntsTaken_good {c2s s2c : List Nat} (hon : bit (s.scfg 0) 1 = true)
    (hcookie : s.openCookie (n.cookie.map BitVec.toNat) = some (c2s, s2c)) (hseal : sealVerifies n c2s) :
    s.ntsTaken p q n = (State.newCookies c2s s2c (1 + n.placeholders) s).2.queueLaunch (s.ntsReply p q n c2s s2c) q.onTime := by
  obtain ⟨plain, hplain⟩ := Option.ne_none_iff_exists'.mp hseal
  unfold State.ntsTaken
  rw [if_neg (by simp [hon]), hcookie]
  dsimp only
  rw [hplain]

theorem State.ntsTaken_kept (h : q.onTime = false ∨
    ∀ c2s s2c, s.openCookie (n.cookie.map BitVec.toNat) = some (c2s, s2c) → ¬sealVerifies n c2s) :
    (s.ntsTaken p q n).svc.launch = s.svc.launch := by
  unfold State.ntsTaken
  split
  · rfl
  · split
    · rfl
    · next c2s s2c hcookie =>
      split
      · rfl
      · next plain hplain =>
        have hlate : q.onTime = false :=
          h.resolve_right fun hno => hno c2s s2c hcookie (by unfold sealVerifies; rw [hplain]; exact Option.some_ne_none _)
        obtain ⟨f, k, htakes⟩ := State.newCookies_takes c2s s2c (1 + n.placeholders) s
        rw [htakes, hlate]
        rfl

/-- A good NTS request is counted in its bucket and taken. -/
theorem State.ntsAnswer_within (h : s.ntpHeard p) (hform : s.ntpMalformed q = false) (hplace : n.placeholders ≤ 7)
    (hbelow : s.belowLimit q) : ∃ b, s.ntsAnswer p q n = (s.counted 2 p b 0).ntsWithin p q n := by
  obtain ⟨hreach, hserves⟩ := h
  obtain ⟨b, hcounts, hlimit⟩ := ((s.svcCount 2).portCount p 0).rateLimit_counts (q := q)
  have hcounts : (((s.svcCount 2).portCount p 0).rateLimit q).2 = s.counted 2 p b 0 := hcounts
  have hno : ¬(s.standby = true ∧ bit (s.cfg 0x07 0) 7 = false) := by rcases hserves with h | h <;> simp [h]
  have hgood : ¬(s.ntpMalformed q = true ∨ 7 < n.placeholders) := by simp [hform, hplace]
  have hanswer := s.ntsAnswer_eq.trans ((if_neg (show ¬s.ntpReaches p = false by simp [hreach])).trans
    ((if_neg hno).trans ((if_neg hgood).trans (if_neg (ne_true_of_eq_false (hlimit.mpr hbelow))))))
  rw [hcounts] at hanswer
  exact ⟨b, hanswer⟩

theorem State.ntsWithin_room {b : Table Nat} (hroom : s.svc.used + 3 ≤ s.capNow) :
    (s.counted 2 p b 0).ntsWithin p q n = (s.counted 2 p b 3).ntsTaken p q n := by
  unfold State.ntsWithin
  rw [State.takeCap_room _ (show (s.counted 2 p b 0).svc.used + 3 ≤ (s.counted 2 p b 0).capNow from hroom)]
  rfl

theorem State.ntsWithin_full {b : Table Nat} (hroom : ¬s.svc.used + 3 ≤ s.capNow) :
    (s.counted 2 p b 0).ntsWithin p q n = (s.counted 2 p b 0).capDrop := by
  unfold State.ntsWithin
  rw [State.takeCap_full _ (show ¬(s.counted 2 p b 0).svc.used + 3 ≤ (s.counted 2 p b 0).capNow from hroom)]

/-- An NTS request that is not good leaves the launch queue alone. -/
theorem State.ntsAnswer_kept (h : ¬s.ntpHeard p ∨ s.ntpMalformed q = true ∨ 7 < n.placeholders ∨ ¬s.belowLimit q ∨
    ¬s.svc.used + 3 ≤ s.capNow ∨ q.onTime = false ∨
    ∀ c2s s2c, s.openCookie (n.cookie.map BitVec.toNat) = some (c2s, s2c) → ¬sealVerifies n c2s) :
    (s.ntsAnswer p q n).svc.launch = s.svc.launch := by
  by_cases hin : s.ntpHeard p ∧ s.ntpMalformed q = false ∧ n.placeholders ≤ 7 ∧ s.belowLimit q
  case pos =>
    obtain ⟨hheard, hform, hplace, hbelow⟩ := hin
    obtain ⟨b, hin⟩ := s.ntsAnswer_within hheard hform hplace hbelow
    rw [hin]
    by_cases hroom : s.svc.used + 3 ≤ s.capNow
    · rw [s.ntsWithin_room hroom]
      refine (s.counted 2 p b 3).ntsTaken_kept ?_
      change q.onTime = false ∨ ∀ c2s s2c, s.openCookie (n.cookie.map BitVec.toNat) = some (c2s, s2c) → ¬sealVerifies n c2s
      simpa [hheard, hform, Nat.not_lt.mpr hplace, hbelow, hroom] using h
    · rw [s.ntsWithin_full hroom, State.capDrop_svc]
      rfl
  case neg =>
    rw [s.ntsAnswer_eq]
    split
    · rfl
    · next hreach =>
      dsimp only
      split
      · rfl
      · next hserves =>
        split
        · rfl
        · next hgood =>
          obtain ⟨b, hcounts, hlimit⟩ := ((s.svcCount 2).portCount p 0).rateLimit_counts (q := q)
          rw [hcounts]
          split
          · rfl
          · next hbelow =>
            have hserves : ¬(s.standby = true ∧ bit (s.cfg 0x07 0) 7 = false) := hserves
            have hgood : ¬(s.ntpMalformed q = true ∨ 7 < n.placeholders) := hgood
            refine absurd ⟨Classical.byContradiction fun h => (s.not_ntpHeard.mp h).elim hreach hserves,
              by simpa using fun g => hgood (.inl g), by omega,
              hlimit.mp (Bool.eq_false_of_not_eq_true hbelow)⟩ hin

/-! The launch queue and the buckets. -/

theorem State.launch_first {r : Response} (h : firstLaunch s.svc.launch = some r) :
    s.launch.svc.launch = s.svc.launch.erase r ∧ (s.portUp r.port = true → (s.launch.port r.port).lastTx = r.frame) := by
  have hlaunch : s.launch = if s.portUp r.port then
        ((s.setSvc fun v => { v with launch := v.launch.erase r }).send r.port r.frame).svcCount (if r.nts then 3 else 1)
      else (s.setSvc fun v => { v with launch := v.launch.erase r }).svcCount 9 := by
    unfold State.launch
    rw [h]
    rfl
  cases hup : s.portUp r.port
  · rw [hlaunch, hup]
    exact ⟨rfl, fun h => by cases h⟩
  · rw [hlaunch, hup]
    exact ⟨rfl, fun _ => State.send_lastTx _⟩

/-- Lowering buckets in turn lowers each by as often as it is named. -/
theorem State.lowerBuckets_bucket (l : List Nat) (s : State) (b : Nat) :
    (l.foldl (fun (s : State) b => s.setBucket b (s.bucket b - 1)) s).bucket b = s.bucket b - l.count b := by
  induction l generalizing s with
  | nil => rfl
  | cons x l ih =>
    rw [List.foldl_cons, ih, List.count_cons]
    have hset : (s.setBucket x (s.bucket x - 1)).bucket b = if b = x then s.bucket x - 1 else s.bucket b := tget_tput
    rw [hset]
    by_cases h : b = x
    · subst h
      rw [if_pos rfl, if_pos (beq_self_eq_true b)]
      omega
    · simp [h, Ne.symm h]

end Sys2Proof.Machine
end

section

namespace Sys2Proof.Settled

open Machine Stated Safety

/-- Settles O26: a good request is counted and joins the launch queue, every other one leaves the queue as it is. -/
theorem ntpRequestsAreAnswered : Obligations.NtpRequestsAreAnswered := by
  unfold Obligations.NtpRequestsAreAnswered
  intro p q n s nat below room sealOk ready reply
  refine ⟨fun hreach hserves hform => ⟨fun hon => ⟨fun hbelow hroom htime => ?queued,
        fun hbelow hroom => ?full, fun habove hkiss => ?kiss⟩,
      fun hplace hbelow hroom => ⟨fun c2s s2c hon hcookie hseal htime => ?nts, fun hnak => ?nak⟩⟩,
    fun hbad => ?discarded, fun hbad => ?ntsDiscarded, fun hnone => ?idle, fun r hfirst => ?launched, ?decays⟩
  case queued =>
    obtain ⟨b, hin, -⟩ := s.ntpAnswer_good (q := q) ⟨hreach, hserves⟩ hform hon
    refine completes_of (w := s.ntpAnswer p q) rfl fun t hkept => ?_
    change t.svc.launch = _ ∧ t.svc.used = _
    rw [hkept.svc, hin hbelow, s.ntpWithin_room hroom, htime]
    exact ⟨rfl, rfl⟩
  case full =>
    obtain ⟨b, hin, -⟩ := s.ntpAnswer_good (q := q) ⟨hreach, hserves⟩ hform hon
    refine completes_of (w := s.ntpAnswer p q) rfl fun t hkept => ?_
    rw [hkept.svc, hin hbelow, s.ntpWithin_full hroom, State.capDrop_svc]
    exact ⟨rfl, rfl⟩
  case kiss =>
    obtain ⟨b, -, habv⟩ := s.ntpAnswer_good (q := q) ⟨hreach, hserves⟩ hform hon
    refine completes_of (w := s.ntpAnswer p q) rfl fun t hkept => ?_
    have hkiss : (s.counted 0 p b 0).ntpAbove p q = ((s.counted 0 p b 0).svcCount 6).send p (.rate q.transmit) := if_pos hkiss
    rw [hkept.port, habv habove, hkiss, State.send_lastTx]
  case nts =>
    obtain ⟨b, hin⟩ := s.ntsAnswer_within (q := q) ⟨hreach, hserves⟩ hform hplace hbelow
    refine completes_of (w := s.ntsAnswer p q n) rfl fun t hkept => ?_
    obtain ⟨f, k, htakes⟩ := State.newCookies_takes c2s s2c (1 + n.placeholders) (s.counted 2 p b 3)
    have hreply : (s.counted 2 p b 3).ntsReply p q n c2s s2c = s.ntsReply p q n c2s s2c := by
      unfold State.ntsReply
      rw [s.counted_reply, State.newCookies_congr c2s s2c _ (s := s) (t := s.counted 2 p b 3) rfl rfl rfl rfl]
    have hgood := (s.counted 2 p b 3).ntsTaken_good (p := p) (q := q) (n := n) hon hcookie hseal
    change t.svc.launch = _ ∧ t.svc.used = _
    rw [hkept.svc, hin, s.ntsWithin_room hroom, hgood, hreply, htakes, htime]
    exact ⟨rfl, rfl⟩
  case nak =>
    obtain ⟨b, hin⟩ := s.ntsAnswer_within (q := q) ⟨hreach, hserves⟩ hform hplace hbelow
    refine completes_of (w := s.ntsAnswer p q n) rfl fun t hkept => ?_
    rw [hkept.port, hin, s.ntsWithin_room hroom, State.ntsTaken_nak (s.counted 2 p b 3) hnak]
    exact State.send_lastTx _
  case discarded =>
    refine completes_of (w := s.ntpAnswer p q) rfl fun t hkept => ?_
    rw [hkept.svc]
    refine s.ntpAnswer_kept ?_
    rw [s.not_ntpHeard, or_assoc]
    exact hbad
  case ntsDiscarded =>
    refine completes_of (w := s.ntsAnswer p q n) rfl fun t hkept => ?_
    rw [hkept.svc]
    refine s.ntsAnswer_kept ?_
    rw [s.not_ntpHeard, or_assoc]
    exact hbad
  case idle =>
    have hstill : s.launch = s := by
      unfold State.launch
      rw [hnone]
    exact does_of (congrArg finish hstill) (Same.refl s)
  case launched =>
    refine completes_of (w := s.launch) rfl fun t hkept => ?_
    rw [hkept.svc, hkept.port]
    exact s.launch_first hfirst
  case decays =>
    refine completes_of (w := s.decayBuckets.setSvc fun v => { v with decay := 0 }) rfl fun t hkept => ?_
    rw [hkept.svc]
    refine ⟨rfl, fun b => ?_⟩
    have hbucket : t.bucket b = s.bucket b - (s.svc.buckets.map (·.1)).count b := by
      have hsvc : t.bucket b = s.decayBuckets.bucket b := by rw [State.bucket, hkept.svc]; rfl
      rw [hsvc]
      exact State.lowerBuckets_bucket _ s b
    by_cases hmem : b ∈ s.svc.buckets.map (·.1)
    · have hone : 1 ≤ (s.svc.buckets.map (·.1)).count b := List.one_le_count_iff.mpr hmem
      exact ⟨by omega, fun hcount => by omega⟩
    · have hzero : s.bucket b = 0 := tget_absent hmem
      exact ⟨by omega, fun hcount => by omega⟩

end Sys2Proof.Settled
end

section
/-! PROOFS. PTP messages (R343 to R347): masters, contexts and clients. -/

namespace Sys2Proof.Safety

variable {s t : Machine.State} (h : Kept s t)
include h

theorem Kept.client (i : Nat) : t.client i = s.client i := by simp [Machine.State.client, h.svc]
theorem Kept.grant (n : Nat) : t.grant n = s.grant n := by simp [Machine.State.grant, h.svc]

omit h in
theorem Kept.foldl {α : Type} {f : Machine.State → α → Machine.State} (hf : ∀ u a, Kept u (f u a)) (l : List α)
    (s : Machine.State) : Kept s (l.foldl f s) := by
  induction l generalizing s with
  | nil => exact Kept.refl s
  | cons a l ih => exact (hf s a).trans (ih _)

end Sys2Proof.Safety

namespace Sys2Proof.Machine

variable (s : State) {p i n : Nat} {k : Option Nat}

/-! Masters: what sending and numbering leave (R344). -/

theorem State.setGrant_grant_self (g : Option Grant) : (s.setGrant n g).grant n = g := tget_tput_self

theorem State.nextSeq_context {c : Nat} {g : Grant} (ann : Bool) (h : s.grant c = some g) : s.nextSeq p (some c) ann =
    if ann then (g.seqAnn, s.setGrant c (some { g with seqAnn := (g.seqAnn + 1) % 65536 }))
    else (g.seqSync, s.setGrant c (some { g with seqSync := (g.seqSync + 1) % 65536 })) := by simp only [State.nextSeq, h]

theorem State.nextSeq_lost {c : Nat} (ann : Bool) (h : s.grant c = none) : s.nextSeq p (some c) ann = (0, s) := by
  simp only [State.nextSeq, h]

/-- Numbering a message touches the sequence number of its port or context alone. -/
theorem State.nextSeq_takes (ann : Bool) : ∃ ports grants,
    (s.nextSeq p k ann).2 = { s with svc := { s.svc with ports := ports, grants := grants } } ∧
    ((s.nextSeq p k ann).2.port p).txLat = (s.port p).txLat := by
  cases k with
  | none => cases ann <;> exact ⟨_, s.svc.grants, rfl, by simp [State.nextSeq]⟩
  | some c =>
    cases hg : s.grant c with
    | none =>
      rw [s.nextSeq_lost ann hg]
      exact ⟨s.svc.ports, s.svc.grants, rfl, rfl⟩
    | some g =>
      rw [s.nextSeq_context ann hg]
      cases ann <;> exact ⟨s.svc.ports, _, rfl, rfl⟩

theorem State.nextSeq_txStamp (ann : Bool) (d at_ : Nat) : (s.nextSeq p k ann).2.txStamp p d at_ = s.txStamp p d at_ := by
  obtain ⟨ports, grants, htakes, hlat⟩ := s.nextSeq_takes (p := p) (k := k) ann
  unfold State.txStamp
  rw [hlat, htakes]
  rfl

theorem State.nextSeq_announceOf (ann : Bool) : (s.nextSeq p k ann).2.announceOf p = s.announceOf p := by
  obtain ⟨ports, grants, htakes, -⟩ := s.nextSeq_takes (p := p) (k := k) ann
  rw [htakes]
  rfl

/-- The context of a granted message exists. -/
theorem State.granted_context {kind c : Nat} (h : s.granted p kind (some c) = true) : ∃ g, s.grant c = some g := by
  unfold State.granted at h
  cases hg : s.grant c with
  | none => simp [hg] at h
  | some g => exact ⟨g, rfl⟩

/-- Once a message is numbered, the next one has the next number. -/
theorem State.nextSeq_again {kind : Nat} (ann : Bool) (h : s.granted p kind k = true) :
    ((s.nextSeq p k ann).2.nextSeq p k ann).1 = ((s.nextSeq p k ann).1 + 1) % 65536 := by
  cases k with
  | none => cases ann <;> simp [State.nextSeq]
  | some c =>
    obtain ⟨g, hg⟩ := s.granted_context h
    rw [s.nextSeq_context ann hg]
    cases ann <;> exact congrArg Prod.fst (State.nextSeq_context _ _ (s.setGrant_grant_self _))

/-- The number of the next message is held by its port and its context. -/
theorem State.nextSeq_congr {t : State} (ann : Bool) (hsync : (t.port p).seqSync = (s.port p).seqSync)
    (hann : (t.port p).seqAnn = (s.port p).seqAnn) (hgrant : ∀ n, t.grant n = s.grant n) :
    (t.nextSeq p k ann).1 = (s.nextSeq p k ann).1 := by
  cases k with
  | none => cases ann <;> assumption
  | some c =>
    cases hg : s.grant c with
    | none => rw [s.nextSeq_lost ann hg, t.nextSeq_lost ann ((hgrant c).trans hg)]
    | some g =>
      rw [s.nextSeq_context ann hg, t.nextSeq_context ann ((hgrant c).trans hg)]
      cases ann <;> rfl

theorem State.nextSeq_send (ann : Bool) (f : Frame) : ((s.send p f).nextSeq p k ann).1 = (s.nextSeq p k ann).1 :=
  s.nextSeq_congr ann (by rw [s.send_port]) (by rw [s.send_port]) fun _ => rfl

/-! Contexts (R345). -/

section Contexts

variable {r : Signal}

theorem State.putGrant_self (g : Grant) : (s.putGrant n g).grant n = some { g with changed := some s.svc.change } :=
  s.setGrant_grant_self (some { g with changed := some s.svc.change })

/-- A request is denied. -/
def State.denyGrant (p : Nat) (r : Signal) : State := (s.svcCount 13).send p (.grant r.kind r.log 0)

theorem State.denyGrant_answers : ((s.denyGrant p r).port p).lastTx = .grant r.kind r.log 0 ∧
    (s.denyGrant p r).grant n = s.grant n := ⟨State.send_lastTx _, rfl⟩

/-- A request is granted in context `n`. -/
def State.giveGrant (p : Nat) (r : Signal) (n : Nat) (h : Grant) : State :=
  ((s.putGrant n h).svcCount 12).send p (.grant r.kind r.log (min r.duration s.grantMax))

theorem State.giveGrant_answers (h : Grant) :
    (s.giveGrant p r n h).grant n = some { h with changed := some s.svc.change } ∧
    ((s.giveGrant p r n h).port p).lastTx = .grant r.kind r.log (min r.duration s.grantMax) := by
  have hkeeps (u : State) (f : Frame) : ((u.svcCount 12).send p f).grant n = u.grant n := rfl
  exact ⟨(hkeeps _ _).trans (s.putGrant_self h), State.send_lastTx _⟩

/-- The client of a request when it has no context yet. -/
def freshGrant (p : Nat) (r : Signal) : Grant :=
  { port := p, ipv6 := r.ipv6, addr := r.addr.map BitVec.toNat, sync := 0, announce := 0, dresp := 0, mask := 0
    secs := 0, seqSync := 0, seqAnn := 0, changed := none }

/-- The context of a request, with what it held. -/
def State.contextIs (p : Nat) (r : Signal) (n : Nat) (g : Grant) : Prop :=
  (s.ctxOf p r = some n ∧ s.grant n = some g) ∨ (s.ctxOf p r = none ∧ s.freeCtx = some n ∧ g = freshGrant p r)

/-- The grant of a request cannot be given. -/
def State.overGrant (r : Signal) (g h : Grant) : Prop :=
  rateLegal r.kind r.log = false ∨ min r.duration s.grantMax = 0 ∨ 128 < h.events ∨
    262144 < s.eventLoad - g.events + h.events

theorem State.freeCtx_free (h : s.freeCtx = some n) : s.grant n = none := by
  have hfree := List.find?_some h
  simpa using hfree

variable (hserves : s.masterServes p = true) (hruns : s.ctrlRuns = true)
  (hprof : bits (s.mcfg p) 2 1 = (if r.ipv6 then 2 else 1))
include hserves hruns hprof

theorem State.signal_cancels {g : Grant} (hcancel : r.cancel = true) (hctx : s.ctxOf p r = some n) (hg : s.grant n = some g) :
    s.signal p r = s.putGrant n { g with mask := g.mask.land (7 - 2 ^ r.kind.val) } := by
  unfold State.signal
  rw [if_neg (by simp [hserves, hruns, hprof]), if_pos hcancel, hctx]
  dsimp only
  rw [hg]

theorem State.signal_noContext (hcancel : r.cancel = false) (hctx : s.ctxOf p r = none) (hfree : s.freeCtx = none) :
    s.signal p r = s.denyGrant p r := by
  unfold State.signal
  rw [if_neg (by simp [hserves, hruns, hprof]), if_neg (by simp [hcancel]), hctx]
  dsimp only
  rw [hfree]
  rfl

theorem State.signal_context {g h : Grant} (hcancel : r.cancel = false) (hctx : s.contextIs p r n g)
    (hh : g.withKind r.kind r.log (min r.duration s.grantMax) = h) :
    (s.overGrant r g h → s.signal p r = s.denyGrant p r) ∧
    (¬s.overGrant r g h → s.signal p r = s.giveGrant p r n h) := by
  subst hh
  unfold State.signal
  rw [if_neg (by simp [hserves, hruns, hprof]), if_neg (by simp [hcancel])]
  rcases hctx with ⟨hctx, hg⟩ | ⟨hctx, hfree, rfl⟩
  · rw [hctx]
    dsimp only
    rw [hg]
    exact ⟨fun h => if_pos h, fun h => if_neg h⟩
  · rw [hctx]
    dsimp only
    rw [hfree]
    dsimp only
    rw [s.freeCtx_free hfree]
    exact ⟨fun h => if_pos h, fun h => if_neg h⟩

omit hserves hruns hprof in
theorem State.not_overGrant {g h : Grant} : ¬s.overGrant r g h ↔ rateLegal r.kind r.log = true ∧
    min r.duration s.grantMax ≠ 0 ∧ h.events ≤ 128 ∧ s.eventLoad - g.events + h.events ≤ 262144 := by
  unfold State.overGrant
  simp

end Contexts

theorem State.sendSync_sends {at_ : Nat} (htimes : s.masterTimes p = true) (hgranted : s.granted p 0 k = true) :
    ((s.sendSync p k at_).port p).lastTx =
      (if bit (s.mcfg p) 3 then .followUp (s.nextSeq p k false).1 (s.txStamp p (s.masterDom p) at_)
        else .sync (s.nextSeq p k false).1 (some (s.txStamp p (s.masterDom p) at_))) ∧
    ((s.sendSync p k at_).nextSeq p k false).1 = ((s.nextSeq p k false).1 + 1) % 65536 := by
  obtain ⟨ports, grants, htakes, -⟩ := s.nextSeq_takes (p := p) (k := k) false
  have hcfg : (s.nextSeq p k false).2.mcfg p = s.mcfg p ∧ (s.nextSeq p k false).2.masterDom p = s.masterDom p := by
    rw [htakes]
    exact ⟨rfl, rfl⟩
  have hsends : s.sendSync p k at_ = if bit (s.mcfg p) 3 then
        (((s.nextSeq p k false).2.svcCount 14).send p (.sync (s.nextSeq p k false).1 none)).send p
          (.followUp (s.nextSeq p k false).1 (s.txStamp p (s.masterDom p) at_))
      else ((s.nextSeq p k false).2.svcCount 14).send p
        (.sync (s.nextSeq p k false).1 (some (s.txStamp p (s.masterDom p) at_))) := by
    rw [← hcfg.1, ← hcfg.2, ← s.nextSeq_txStamp (p := p) (k := k) false]
    exact if_pos ⟨htimes, hgranted⟩
  have hagain : (((s.nextSeq p k false).2.svcCount 14).nextSeq p k false).1 = ((s.nextSeq p k false).1 + 1) % 65536 :=
    (State.nextSeq_congr (s.nextSeq p k false).2 (t := (s.nextSeq p k false).2.svcCount 14) false rfl rfl fun _ => rfl).trans
      (s.nextSeq_again false hgranted)
  rw [hsends]
  split
  · exact ⟨State.send_lastTx _, by rw [State.nextSeq_send, State.nextSeq_send, hagain]⟩
  · exact ⟨State.send_lastTx _, by rw [State.nextSeq_send, hagain]⟩

theorem State.sendAnnounce_sends (htimes : s.masterTimes p = true) (hruns : s.ctrlRuns = true)
    (hgranted : s.granted p 1 k = true) :
    ((s.sendAnnounce p k).port p).lastTx = .announce (s.nextSeq p k true).1 (s.announceOf p) ∧
    ((s.sendAnnounce p k).nextSeq p k true).1 = ((s.nextSeq p k true).1 + 1) % 65536 := by
  have hsends : s.sendAnnounce p k = (s.nextSeq p k true).2.send p (.announce (s.nextSeq p k true).1 (s.announceOf p)) := by
    rw [← s.nextSeq_announceOf (p := p) (k := k) true]
    exact if_pos ⟨htimes, hruns, hgranted⟩
  rw [hsends, State.nextSeq_send]
  exact ⟨State.send_lastTx _, s.nextSeq_again true hgranted⟩

theorem State.answerDelay_sends {e : PtpEvent} (hactive : s.masterActive p = true) (hgranted : s.granted p 2 k = true) :
    ((s.answerDelay p k e).port p).lastTx = .delayResp e.seq (s.rxStamp p (s.masterDom p) e.at_) e.correction := by
  unfold State.answerDelay
  dsimp only
  split
  · have hin : ((s.svcCount 15).portCount p 0).masterActive p = true ∧
        ((s.svcCount 15).portCount p 0).granted p 2 k = true := ⟨hactive, hgranted⟩
    rw [if_pos hin, State.send_lastTx]
    rfl
  · rw [if_pos ⟨hactive, hgranted⟩, State.send_lastTx]

/-! Clients (R346, R347). -/

theorem State.clientTo_client (st : PtpState) : (s.clientTo i st).client i = { s.client i with state := st } := by
  unfold State.clientTo
  rw [State.setClient_client_self, (kept_eventIf s _ _ _).client]

theorem State.clientTo_qual (st : PtpState) (j : Nat) : (s.clientTo i st).qual j = s.qual j := (kept_eventIf s _ _ _).qual j

/-- A fold whose steps give something gives something from a list that is not empty. -/
theorem foldl_ne_none {α β : Type} {f : Option β → α → Option β} (hf : ∀ b a, f b a ≠ none) {l : List α}
    (hl : l ≠ []) (b : Option β) : l.foldl f b ≠ none := by
  obtain ⟨l', a, rfl⟩ := (List.eq_nil_or_concat l).resolve_left hl
  rw [List.concat_eq_append, List.foldl_append]
  exact hf _ a

theorem State.bestMaster_ne_none (h : (s.client i).heard ≠ []) : s.bestMaster i ≠ none := by
  refine foldl_ne_none (fun b a => ?_) h none
  cases b with
  | none => exact Option.some_ne_none _
  | some x =>
    dsimp only
    split <;> exact Option.some_ne_none _

theorem State.kept_srcCompare (t : Nat) (e : Int) : Safety.Kept s (s.srcCompare t e) := by
  unfold State.srcCompare
  dsimp only
  split
  · exact (Safety.Kept.bump _ _ _).trans (Safety.Kept.event _ _ _)
  · exact Safety.Kept.refl s

theorem State.clientTimeout_listens (h : s.clientActive i = true) :
    ((s.clientTimeout i).client i).state = .listening ∧ ((s.clientTimeout i).client i).parent = none ∧
      ((s.clientTimeout i).qual (36 + i)).actFail = true := by
  have hclient (v : State) : (v.setClient i fun c => { c with
      parent := none, heard := [], samples := 0, t1 := none, req := none, done := [] }).client i = { v.client i with
        parent := none, heard := [], samples := 0, t1 := none, req := none, done := [] } := v.setClient_client_self _ _
  have hqual (v : State) : ((v.setQual (36 + i) fun q => { q with actFail := true, actRun := 0 }).qual (36 + i)).actFail =
      true := by
    rw [State.setQual_qual_self]
  have hlistens : s.clientTimeout i = ((s.clientTo i .listening).setClient i fun c => { c with
      parent := none, heard := [], samples := 0, t1 := none, req := none, done := [] }).setQual (36 + i) fun q => { q with
        actFail := true, actRun := 0 } := if_pos h
  have hafter : (s.clientTimeout i).client i = _ :=
    (congrArg (State.client · i) hlistens).trans (hclient (s.clientTo i .listening))
  rw [hafter, State.clientTo_client, hlistens]
  exact ⟨rfl, rfl, hqual _⟩

theorem State.clientRequest_sends {at_ : Nat} (hrec : s.clientReceives i = true) (hon : s.serviceOn = true) :
    ((s.clientRequest i at_).port (s.clientPort i)).lastTx = .delayReq (s.client i).reqSeq ∧
    (s.clientRequest i at_).client i = { s.client i with
      req := some ((s.client i).reqSeq, (s.client i).t1, (s.client i).t2, (s.client i).cfSync,
        s.txStamp (s.clientPort i) (s.clientDom i) at_)
      reqSeq := ((s.client i).reqSeq + 1) % 65536 } := by
  unfold State.clientRequest
  rw [if_pos ⟨hrec, hon⟩]
  dsimp only
  generalize s.txStamp _ _ _ = t3
  generalize hw : (s.svcCount 14).send (s.clientPort i) (.delayReq (s.client i).reqSeq) = w
  have hsent : (w.port (s.clientPort i)).lastTx = .delayReq (s.client i).reqSeq := hw ▸ State.send_lastTx _
  have hclient : w.client i = s.client i := hw ▸ rfl
  exact ⟨hsent, by rw [State.setClient_client_self, hclient]⟩

/-- The sample of the filtered offset `o`: within half a sample interval. -/
def State.sampleOf (s : State) (i : Nat) (o : Int) : Int :=
  o - s.sampleUnits i * floorDiv (2 * o + s.sampleUnits i) (2 * s.sampleUnits i)

/-- A client, in state `was` so far, takes the sample `x` of the filtered offset `o`. -/
def State.sampled (s : State) (i : Nat) (was : PtpState) (o x : Int) : State :=
  ((s.clientTo i .slave).setClient i fun c => { c with
    fullOfs := o, samples := if was = .slave then c.samples + 1 else 1 }).setQual (36 + i) fun q => { q with
      samples := q.samples ++ [5 * x] }

theorem State.sampled_client (was : PtpState) (o x : Int) : (s.sampled i was o x).client i = { s.client i with
    state := .slave, fullOfs := o, samples := if was = .slave then (s.client i).samples + 1 else 1 } := by
  have hclient : (s.sampled i was o x).client i = _ := (s.clientTo i .slave).setClient_client_self _ _
  rw [hclient, State.clientTo_client]

theorem State.sampled_qual (was : PtpState) (o x : Int) :
    ((s.sampled i was o x).qual (36 + i)).samples = (s.qual (36 + i)).samples ++ [5 * x] := by
  have hqual (v : State) : ((v.setQual (36 + i) fun q => { q with samples := q.samples ++ [5 * x] }).qual (36 + i)).samples =
      (v.qual (36 + i)).samples ++ [5 * x] := by rw [State.setQual_qual_self]
  exact (hqual _).trans (congrArg (fun q : Qual => q.samples ++ [5 * x]) (s.clientTo_qual _ _))

/-- A client with exchanges filters them at its sample interval, and is SLAVE. -/
theorem State.clientSample_filters (hrec : s.clientReceives i = true) (hdone : (s.client i).done ≠ []) :
    ∃ (u : State) (was : PtpState) (x : Int), Safety.Kept (u.sampled i was (filteredOffset (if bits (s.ccfg i) 23 20 = 0 then 1
        else min (bits (s.ccfg i) 23 20) 8) (s.client i).done) x) (s.clientSample i) ∧
      (u.client i).done = [] ∧ u.quals = s.quals := by
  have hclient (n : Nat) : (s.setClient i fun c => { c with exchanges := n, done := [] }).client i =
      { s.client i with exchanges := n, done := [] } := s.setClient_client_self _ _
  have hreceives (n : Nat) : (s.setClient i fun c => { c with exchanges := n, done := [] }).clientReceives i = true := by
    rw [← hrec]
    unfold State.clientReceives
    rw [hclient]
    rfl
  generalize ho : filteredOffset _ _ = o
  generalize hu : (s.setClient i fun c => { c with exchanges := min (s.client i).done.length 255, done := [] }) = u
  have hccfg : u.ccfg i = s.ccfg i := by rw [← hu]; rfl
  refine ⟨u, (s.client i).state, u.sampleOf i o, ?_, by rw [← hu, hclient], by rw [← hu]; rfl⟩
  unfold State.clientSample
  dsimp only
  rw [if_neg (by simp [hreceives, hdone]), hu, hccfg, ho]
  refine Safety.Kept.foldl (fun u t => ?_) _ _
  split
  · exact u.kept_srcCompare _ _
  · exact Safety.Kept.refl u

/-- A client takes `b` as its parent; a new one makes it UNCALIBRATED. -/
def State.adopt (s : State) (i : Nat) (b : Announce) (same : Bool) : State :=
  let s := (s.setClient i fun c => { c with parent := some b }).setQual (36 + i) fun q => { q with
    qlRx := b.clockClass, qlEnh := false }
  if same then s
  else (s.clientTo i .uncalibrated).setClient i fun c => { c with samples := 0, t1 := none, req := none, done := [] }

def Client.follows (c : Client) (b : Announce) : Bool :=
  match c.parent with | some q => q.entry == b.entry && q.identity == b.identity | none => false

theorem State.adopt_client {b : Announce} {same : Bool} : ((s.adopt i b same).client i).heard = (s.client i).heard ∧
    ((s.adopt i b same).client i).parent = some b ∧ (same = false → ((s.adopt i b same).client i).state = .uncalibrated) := by
  have hclient : ((s.setClient i fun c => { c with parent := some b }).setQual (36 + i) fun q => { q with
      qlRx := b.clockClass, qlEnh := false }).client i = { s.client i with parent := some b } := s.setClient_client_self _ _
  cases same
  · unfold State.adopt
    rw [if_neg (by decide), State.setClient_client_self, State.clientTo_client, hclient]
    exact ⟨rfl, rfl, fun _ => rfl⟩
  · unfold State.adopt
    rw [if_pos rfl, hclient]
    exact ⟨rfl, rfl, fun h => by cases h⟩

/-- A client that hears an Announce takes the best master as its parent. -/
theorem State.clientAnnounce_adopts {a b : Announce} {heard : List Announce} (hactive : s.clientActive i = true)
    (hup : s.portUp (s.clientPort i) = true) (hstop : (s.port (s.clientPort i)).svcStop = false) (hruns : s.ctrlRuns = true)
    (hknown : bits (s.ccfg i) 4 3 = 0 ∨ (a.entry < 2 ∧ bit (s.scfg (0x68 + 16 * i)) (16 + a.entry) = true))
    (hheard : ((s.client i).heard.filter fun b => b.entry != a.entry) ++ [a] = heard)
    (hbest : (s.setClient i fun c => { c with heard := heard }).bestMaster i = some b) :
    ((s.clientAnnounce i a).client i).heard = heard ∧ ((s.clientAnnounce i a).client i).parent = some b ∧
      ((s.client i).parent = none → ((s.clientAnnounce i a).client i).state = .uncalibrated) := by
  subst hheard
  have hin : ¬(s.clientActive i = false ∨ s.portUp (s.clientPort i) = false ∨ (s.port (s.clientPort i)).svcStop = true ∨
      s.ctrlRuns = false ∨ (bits (s.ccfg i) 4 3 == 0 || (decide (a.entry < 2) && bit (s.scfg (0x68 + 16 * i)) (16 + a.entry))) =
        false) := by
    rcases hknown with h | ⟨h, g⟩
    · simp [hactive, hup, hstop, hruns, h]
    · simp [hactive, hup, hstop, hruns, h, g]
  generalize hu : ((s.portCount (s.clientPort i) 0).setClient i fun c => { c with
      heard := (c.heard.filter fun b => b.entry != a.entry) ++ [a] }) = u
  have hclient : u.client i = { s.client i with heard := ((s.client i).heard.filter fun b => b.entry != a.entry) ++ [a] } := by
    rw [← hu]
    exact State.setClient_client_self _ _ _
  have hbest' : u.bestMaster i = some b := by
    rw [← hbest, ← hu]
    unfold State.bestMaster State.localPrio
    rw [State.setClient_client_self, State.setClient_client_self]
    rfl
  have hadopts : s.clientAnnounce i a = u.adopt i b ((u.client i).follows b) := by
    unfold State.clientAnnounce
    dsimp only
    rw [if_neg hin, hu, hbest']
    rfl
  rw [hadopts]
  obtain ⟨hheard, hparent, hnew⟩ := u.adopt_client (i := i) (b := b) (same := (u.client i).follows b)
  refine ⟨by rw [hheard, hclient], hparent, fun hnone => hnew ?_⟩
  rw [hclient]
  unfold Client.follows
  rw [hnone]

end Sys2Proof.Machine
end

section

namespace Sys2Proof.Settled

open Machine Stated Safety

/-- Settles O25: each message by the conditions of its row; the numbers of two messages follow each other. -/
theorem ptpMessagesAreExchanged : Obligations.PtpMessagesAreExchanged := by
  unfold Obligations.PtpMessagesAreExchanged
  intro i p ctx e seq at_ x y a r s k q c d fresh
  refine ⟨fun hrec hon => ⟨?sync, fun hseq hopen => ?followUp, ?delayReqTx, fun t1 t2 cf t3 hreq => ?delayResp⟩,
    fun hno => ⟨?noSync, ?noFollow, ?noRequest, ?noResponse⟩, fun hno => ?followLost, fun hno => ?respLost,
    fun hrec hdone hnative => ?sample, fun hactive hup hstop hruns hknown => ?announce, fun hactive => ?timeout,
    fun htimes hgranted => ?syncTx, fun htimes hruns hgranted => ?announceTx, fun hactive hgranted => ?answered,
    fun hserves hruns hprof => ⟨fun hcancel n g hctx hg => ?cancelled, fun hcancel hctx hfree => ?noContext,
      fun hcancel n g hctx => ?requested⟩, fun n g hg => ?expires⟩
  case sync =>
    refine completes_of (congrArg finish (if_pos ⟨hrec, hon⟩)) fun t hkept => ?_
    rw [hkept.client, State.setClient_client_self]
    rfl
  case followUp =>
    refine completes_of (congrArg finish (if_pos ⟨hrec, hon, hseq, hopen⟩)) fun t hkept => ?_
    rw [hkept.client, State.setClient_client_self]
    exact ⟨rfl, rfl⟩
  case delayReqTx =>
    refine completes_of (w := s.clientRequest i at_) rfl fun t hkept => ?_
    rw [hkept.client, hkept.port]
    exact s.clientRequest_sends hrec hon
  case delayResp =>
    have hexec : s.clientResponse i seq x y = s.setClient i fun c => { c with
        req := none
        done := c.done ++ [(floorDiv ((t2 - t1 - cf) - (x - t3 - y)) 2 - s.clientAsym i, (t2 - t1 - cf) + (x - t3 - y))] } := by
      refine (if_pos ⟨hrec, hon⟩).trans ?_
      rw [hreq]
      exact if_pos rfl
    refine completes_of (congrArg finish hexec) fun t hkept => ?_
    rw [hkept.client, State.setClient_client_self]
  case noSync => exact does_of (congrArg finish (if_neg (by rcases hno with h | h <;> simp [h]))) (Same.refl s)
  case noFollow => exact does_of (congrArg finish (if_neg (by rcases hno with h | h <;> simp [h]))) (Same.refl s)
  case noRequest => exact does_of (congrArg finish (if_neg (by rcases hno with h | h <;> simp [h]))) (Same.refl s)
  case noResponse => exact does_of (congrArg finish (if_neg (by rcases hno with h | h <;> simp [h]))) (Same.refl s)
  case followLost =>
    exact does_of (congrArg finish (if_neg fun ⟨_, _, hseq, hopen⟩ => hno.elim (· hseq) (· hopen))) (Same.refl s)
  case respLost =>
    have hexec : s.clientResponse i seq x y = s := by
      unfold State.clientResponse
      split
      · split
        · next n t1 t2 cf t3 hreq => exact if_neg fun hn => hno t1 t2 cf t3 (by rw [hreq, hn])
        · rfl
      · rfl
    exact does_of (congrArg finish hexec) (Same.refl s)
  case sample =>
    obtain ⟨u, was, x, hsampled, hdone', hquals⟩ := s.clientSample_filters hrec hdone
    refine completes_of (w := s.clientSample i) rfl fun t hkept => ?_
    rw [(hsampled.trans hkept).client, (hsampled.trans hkept).qual, State.sampled_client, State.sampled_qual, List.length_append]
    have hqual : u.qual (36 + i) = s.qual (36 + i) := by rw [State.qual, hquals]; rfl
    exact ⟨rfl, hdone', rfl, by rw [hqual]; rfl⟩
  case announce =>
    intro heard best
    have hclient : (s.setClient i fun c => { c with heard := heard }).client i = { s.client i with heard := heard } :=
      s.setClient_client_self _ _
    obtain ⟨b, hbest⟩ := Option.ne_none_iff_exists'.mp
      ((s.setClient i fun c => { c with heard := heard }).bestMaster_ne_none (i := i) (by rw [hclient]; simp [heard]))
    obtain ⟨hheard, hparent, hnew⟩ := s.clientAnnounce_adopts hactive hup hstop hruns hknown rfl hbest
    refine completes_of (w := s.clientAnnounce i a) rfl fun t hkept => ?_
    rw [hkept.client]
    exact ⟨hheard, hparent.trans hbest.symm, hnew⟩
  case timeout =>
    refine completes_of (w := s.clientTimeout i) rfl fun t hkept => ?_
    rw [hkept.client, hkept.qual]
    exact s.clientTimeout_listens hactive
  case syncTx =>
    intro n
    refine completes_of (w := s.sendSync p k at_) rfl fun t hkept => ?_
    rw [hkept.port, State.nextSeq_congr (s.sendSync p k at_) (t := t) false (by rw [hkept.port]) (by rw [hkept.port]) hkept.grant]
    exact s.sendSync_sends htimes hgranted
  case announceTx =>
    intro n
    refine completes_of (w := s.sendAnnounce p k) rfl fun t hkept => ?_
    rw [hkept.port, State.nextSeq_congr (s.sendAnnounce p k) (t := t) true (by rw [hkept.port]) (by rw [hkept.port]) hkept.grant]
    exact s.sendAnnounce_sends htimes hruns hgranted
  case answered =>
    refine completes_of (w := s.answerDelay p k e) rfl fun t hkept => ?_
    rw [hkept.port]
    exact s.answerDelay_sends hactive hgranted
  case cancelled =>
    refine completes_of (congrArg finish (s.signal_cancels hserves hruns hprof hcancel hctx hg)) fun t hkept => ?_
    rw [hkept.grant, State.putGrant_self]
  case noContext =>
    refine completes_of (congrArg finish (s.signal_noContext hserves hruns hprof hcancel hctx hfree)) fun t hkept => ?_
    rw [hkept.port]
    exact s.denyGrant_answers (n := 0).1
  case requested =>
    intro secs h legal
    obtain ⟨hdeny, hgive⟩ := s.signal_context (h := h) hserves hruns hprof hcancel hctx rfl
    refine ⟨fun hlegal => ?_, fun hlegal => ?_⟩
    · have hexec : exec (.signaling p r) s = finish (s.giveGrant p r n h) :=
        congrArg finish (hgive (s.not_overGrant.mpr hlegal))
      refine completes_of hexec fun t hkept => ?_
      rw [hkept.grant, hkept.port]
      exact s.giveGrant_answers h
    · have hexec : exec (.signaling p r) s = finish (s.denyGrant p r) :=
        congrArg finish (hdeny (Classical.not_not.mp (mt s.not_overGrant.mp hlegal)))
      refine completes_of hexec fun t hkept => ?_
      rw [hkept.grant, hkept.port]
      exact s.denyGrant_answers
  case expires =>
    have hexec : exec (.grantExpiry n) s = finish (s.putGrant n { g with secs := 0 }) := by
      refine congrArg finish ?_
      rw [hg]
    refine completes_of hexec fun t hkept => ?_
    rw [hkept.grant, State.putGrant_self]

end Sys2Proof.Settled
end

section
/-! PROOFS. Commands of the time service, its firmware and its watchdog (R355, R358, R360, R361, R366, R475). -/

namespace Sys2Proof.Machine

variable {s u : State} {p code : Nat} {arg : Word}

theorem State.keySlot_setKey {k : Nat} (v : KeySlot) : (s.setKey k v).keySlot k = v := tget_tput_self

theorem State.tsvcEffect_install {q : CmdPend} (h : q.code = 1) :
    (State.tsvcEffect q s).keySlot (bits q.arg 1 0) = { valid := true, id := (s.dir 0x0B 0x914).toNat, key := s.keyBytes } ∧
    (State.tsvcEffect q s).svc.keyData = [] := by
  unfold State.tsvcEffect
  rw [h]
  have hkeeps (v : State) : (v.clearKeyData.event tsvcPage 0).keySlot (bits q.arg 1 0) = v.keySlot (bits q.arg 1 0) := rfl
  exact ⟨(hkeeps _).trans (State.keySlot_setKey _), rfl⟩

theorem State.tsvcEffect_erase {q : CmdPend} (h : q.code = 3) :
    (State.tsvcEffect q s).keySlot (bits q.arg 1 0) = KeySlot.zero := by
  unfold State.tsvcEffect
  rw [h]
  have hkeeps (v : State) : (v.event tsvcPage 0).keySlot (bits q.arg 1 0) = v.keySlot (bits q.arg 1 0) := rfl
  exact (hkeeps _).trans (State.keySlot_setKey _)

/-! Refusals: with the conditions of a row, only a busy page is left in its way. -/

theorem State.tsvcChecks_install (hid : (s.dir 0x0B 0x914).toNat ≠ 0)
    (huniq : ∀ j < 4, j ≠ bits arg 1 0 → (s.keySlot j).valid = true → (s.keySlot j).id ≠ (s.dir 0x0B 0x914).toNat)
    (hopen : (s.page 0x0B).lockCmd = false) (hother : s.svc.keyCur ≠ bits arg 1 0) :
    s.tsvcChecks 1 arg false = { busy := s.busy 0x0B } := by
  have hnew : ((List.range 4).any fun j => j != bits arg 1 0 && (s.keySlot j).valid &&
      (s.keySlot j).id == (s.dir 0x0B 0x914).toNat) = false := by simpa using fun j hj hne hv => huniq j hj hne hv
  simp [State.tsvcChecks, show tsvcPage = 0x0B from rfl, hid, hnew, hopen, hother]

theorem State.tsvcChecks_current (hopen : (s.page 0x0B).lockCmd = false) (hserves : s.standby = false)
    (hvalid : (s.keySlot (bits arg 1 0)).valid = true) (again : Bool) :
    s.tsvcChecks 2 arg again = { busy := s.busy 0x0B && !again } := by
  simp [State.tsvcChecks, show tsvcPage = 0x0B from rfl, hopen, hserves, hvalid]

theorem State.tsvcChecks_erase (hopen : (s.page 0x0B).lockCmd = false) (hvalid : (s.keySlot (bits arg 1 0)).valid = true)
    (hother : s.svc.keyCur ≠ bits arg 1 0) (again : Bool) : s.tsvcChecks 3 arg again = { busy := s.busy 0x0B && !again } := by
  simp [State.tsvcChecks, show tsvcPage = 0x0B from rfl, hopen, hvalid, hother]

theorem State.tsvcChecks_update (hopen : (s.page 0x0B).lockCmd = false)
    (hmay : (s.pair.role ≠ .active ∨ s.pair.bound = false) ∧ (s.svc.ctrl = .run ∨ s.svc.ctrl = .failed))
    {again busy : Bool} (hbusy : (s.busy 0x0B && !again || (s.svc.fwBusy && !again)) = busy) :
    s.tsvcChecks 4 arg again = { arg := arg.toNat % 4096 != 0, busy := busy } := by
  subst hbusy
  obtain ⟨hrole, hctrl⟩ := hmay
  have hrole' : (s.pair.role == .active && s.pair.bound) = false := by rcases hrole with h | h <;> simp [h]
  have hctrl' : (s.svc.ctrl == .run || s.svc.ctrl == .failed) = true := by rcases hctrl with h | h <;> simp [h]
  simp [State.tsvcChecks, show tsvcPage = 0x0B from rfl, hopen, hrole', hctrl']

theorem State.portChecks_restart (hopen : (s.page 0x0C).lockCmd = false) (hport : s.candInUse (32 + bits arg 1 0) = false)
    (hclients : ∀ i < 4, s.clientActive i = true → s.clientPort i = bits arg 1 0 → s.candInUse (36 + i) = false)
    (again : Bool) :
    s.portChecks 1 arg again = { busy := s.busy 0x0C && !again } := by
  have hunused : ((List.range 4).any fun i => s.clientActive i && s.clientPort i == bits arg 1 0 &&
      s.candInUse (36 + i)) = false := by
    simpa using fun i hi hactive hport => hclients i hi hactive hport
  simp [State.portChecks, show portsPage = 0x0C from rfl, hopen, hport, hunused]

/-! The link of a restarted port. -/

/-- The pending PORT_RESTART drops the link of its port and ends its stop. -/
theorem State.linkDown_port : (((s.linkChange p false).setPort p fun x => { x with svcStop := false }).port p).linkUp = false ∧
    (((s.linkChange p false).setPort p fun x => { x with svcStop := false }).port p).svcStop = false := by
  rw [State.setPort_port_self]
  refine ⟨?_, rfl⟩
  unfold State.linkChange
  dsimp only
  rw [State.setPort_port_self]
  rfl

/-! The verification of firmware (R361, R475). -/

/-- What the verification of an image finds: 0, its defect, or that it could not be read. -/
def State.fwCode (s : State) (image : List Word) (ok : Bool) : Nat :=
  if ok then s.fwDefect (tableFrom 0 (image.map BitVec.toNat)) (4 * image.length) else 15

/-- The verification notes what it found. -/
def State.fwNoted (s : State) (code : Nat) : State := s.setSec fun x => { x with fwVerify := code }

theorem State.fwVerified_idle {image : List Word} {ok : Bool}
    (h : s.serviceOn = false ∨ (s.svc.fwBusy = false ∧ s.boot.fwTry = 0)) : s.fwVerified image ok = s := by
  by_cases hoff : s.serviceOn = false
  · exact if_pos hoff
  · obtain ⟨hbusy, htry⟩ := h.resolve_left hoff
    exact (if_neg hoff).trans ((if_neg (ne_true_of_eq_false hbusy)).trans (if_neg (not_not.mpr htry)))

section Running

variable {image : List Word} {ok : Bool} (hon : s.serviceOn = true)
include hon

theorem State.fwVerified_updates (hbusy : s.svc.fwBusy = true) (hcode : s.fwCode image ok = 0) :
    (s.fwVerified image ok).svc.fwBusy = false ∧ (s.fwVerified image ok).svc.fwResult = 1 ∧
      (s.fwVerified image ok).svc.ctrl = .restart := by
  have htakes : s.fwVerified image ok = ((((s.fwNoted (s.fwCode image ok)).fwTake (tableFrom 0 (image.map BitVec.toNat))).setSvc
      fun v => { v with fwBusy := false, fwResult := 1 }).event tsvcPage 3).ctrlRestart :=
    (if_neg (ne_false_of_eq_true hon)).trans ((if_pos hbusy).trans (if_pos hcode))
  rw [htakes]
  exact ⟨rfl, rfl, rfl⟩

theorem State.fwVerified_reports (hbusy : s.svc.fwBusy = true) (hcode : s.fwCode image ok ≠ 0) :
    s.fwVerified image ok = (((s.fwNoted (s.fwCode image ok)).setSvc fun v => { v with
      fwBusy := false, fwResult := 2 }).event tsvcPage 3).fwRefused :=
  (if_neg (ne_false_of_eq_true hon)).trans ((if_pos hbusy).trans (if_neg hcode))

theorem State.fwVerified_starts (hidle : s.svc.fwBusy = false) (htry : s.boot.fwTry ≠ 0) (hcode : s.fwCode image ok = 0) :
    (s.fwVerified image ok).svc.ctrl = .run ∧ (s.fwVerified image ok).boot.fw = s.boot.fwTry ∧
      (s.fwVerified image ok).boot.fwTry = 0 := by
  have htakes : s.fwVerified image ok = (((s.fwNoted (s.fwCode image ok)).fwTake (tableFrom 0 (image.map BitVec.toNat))).setSvc
      fun v => { v with ctrl := .run }).setBoot fun b => { b with fw := b.fwTry, fwTry := 0 } :=
    (if_neg (ne_false_of_eq_true hon)).trans ((if_neg (ne_true_of_eq_false hidle)).trans ((if_pos htry).trans (if_pos hcode)))
  rw [htakes]
  exact ⟨rfl, rfl, rfl⟩

theorem State.fwVerified_fails (hidle : s.svc.fwBusy = false) (htry : s.boot.fwTry ≠ 0) (hcode : s.fwCode image ok ≠ 0) :
    s.fwVerified image ok =
      let u := ((s.fwNoted (s.fwCode image ok)).setBoot fun b => { b with fwVerify := s.fwCode image ok }).fwRefused
      if u.boot.fwTry = 1 then u.setBoot fun b => { b with fwTry := 2 }
      else (u.setBoot fun b => { b with fw := 3, fwTry := 0 }).setSvc fun v => { v with ctrl := .failed } :=
  (if_neg (ne_false_of_eq_true hon)).trans ((if_neg (ne_true_of_eq_false hidle)).trans ((if_pos htry).trans (if_neg hcode)))

end Running

theorem State.fwRefused_keeps (h : u.fault.compat = false) : u.fwRefused.boot = u.boot ∧
    u.fwRefused.svc.fwBusy = u.svc.fwBusy ∧ u.fwRefused.svc.fwResult = u.svc.fwResult ∧
    u.fwRefused.svc.ctrl = u.svc.ctrl := by
  have hreport := Safety.Reported.report u { page := tsvcPage, bit := 4 } h
  have hsvc := hreport.svc
  exact ⟨hreport.boot, (congrArg Service.fwBusy hsvc :), (congrArg Service.fwResult hsvc :), (congrArg Service.ctrl hsvc :)⟩

/-! The watchdog of the controller (R366). -/

theorem State.ctrlWatchdog_ctrl : s.ctrlWatchdog.svc.ctrl =
    (if 3 ≤ (s.svc.restarts.filter (· < watchRounds)).length then .failed else .restart) ∧
    s.ctrlWatchdog.fault = s.fault := by
  unfold State.ctrlWatchdog
  dsimp only
  split <;> exact ⟨rfl, rfl⟩

end Sys2Proof.Machine

namespace Sys2Proof.Stated

open Machine

variable {s : State} {m : Master} {code : Nat} {c : Instr}

/-- A TSVC command waits, and takes effect at its boundary while its checks still pass. -/
theorem waits_tsvc {legal : State → Prop} {effect : State → State → Prop} (hready : Ready s 0x0B m)
    (he : exec c s = finish (s.tsvcCommand m code)) (hcode : code < 256)
    (hck : (s.tsvcChecks code (s.arg 0x0B (masterCode m)) false).result = 0)
    (hagain : ∀ u, legal u → (u.tsvcChecks code (s.arg 0x0B (masterCode m)) true).again = 0)
    (heffect : ∀ u g, effect u (State.tsvcEffect
      (waiting s 0x0B m code (s.arg 0x0B (masterCode m)) []) { u with pages := g })) :
    Waits c s 0x0B m code (s.arg 0x0B (masterCode m)) State.tsvcApply legal effect := by
  refine waits_submit hready he (ck := s.tsvcChecks code (s.arg 0x0B (masterCode m)) false) ?_ hck hcode fun u hpend hlegal => ?_
  · exact if_neg fun h => h.2 hck
  · have hok : (u.tsvcChecks code (s.arg 0x0B (masterCode m)) true).again = 0 := hagain u hlegal
    obtain ⟨v, hv, g, hg⟩ := settle_of (f := State.tsvcEffect) hpend hok
    have happly : u.tsvcApply = State.tsvcEffect (waiting s 0x0B m code (s.arg 0x0B (masterCode m)) []) v := by
      rw [State.tsvcApply, show tsvcPage = 0x0B from rfl, hpend]
      exact (if_neg fun h => h.2 hok).trans hv
    rw [happly, hg]
    exact heffect u g

end Sys2Proof.Stated
end

section

namespace Sys2Proof.Settled

open Machine Stated Safety

/-- Settles O29: commands by their checks and effects, firmware by what its verification finds. -/
theorem serviceCommandsTakeEffect : Obligations.ServiceCommandsTakeEffect := by
  unfold Obligations.ServiceCommandsTakeEffect
  intro m image s a k b p open_ other valid fwMay id unused st
  refine ⟨fun hready hidle hopen => ⟨fun hid huniq hother => ?install, fun hserves hvalid => ?current,
      fun hvalid hother => ?erase, fun hpage hfree hmay => ?update, ?clear⟩,
    fun hready hidle hopen hunused => ?restartPort,
    fun hon hbusy => ⟨fun hgood => ?updates, fun hnative hbad => ?reports, fun hnative => ?unread⟩,
    fun hon hfree htry => ⟨fun hgood => ?starts, fun hnative ok hbad => ?fails⟩, fun hno ok => ?still,
    fun hruns hnative => ?watchdog, fun hrestart => ?back⟩
  case install =>
    have hbusy : s.busy 0x0B = false := congrArg Option.isSome hidle
    refine waits_tsvc hready rfl (by decide) (State.tsvcChecks_install hid huniq hopen hother ▸ State.busyChecks_result hbusy)
      (fun u hstill => ?_) fun u g => State.tsvcEffect_install rfl
    obtain ⟨hopen, hother⟩ := hstill
    have hlock : (u.page 0x0B).lockCmd = false := hopen
    simpa [Checks.again, State.tsvcChecks, show tsvcPage = 0x0B from rfl, hlock] using hother
  case current =>
    have hbusy : s.busy 0x0B = false := congrArg Option.isSome hidle
    refine waits_tsvc hready rfl (by decide) (State.tsvcChecks_current hopen hserves hvalid false ▸
      State.busyChecks_result (by rw [hbusy]; rfl)) (fun u hstill => ?_) fun u g => rfl
    obtain ⟨hopen, hserves, hvalid⟩ := hstill
    exact State.tsvcChecks_current hopen hserves hvalid true ▸ State.busyChecks_again _
  case erase =>
    have hbusy : s.busy 0x0B = false := congrArg Option.isSome hidle
    refine waits_tsvc hready rfl (by decide) (State.tsvcChecks_erase hopen hvalid hother false ▸
      State.busyChecks_result (by rw [hbusy]; rfl)) (fun u hstill => ?_) fun u g => State.tsvcEffect_erase rfl
    obtain ⟨hopen, hvalid, hother⟩ := hstill
    exact State.tsvcChecks_erase hopen hvalid hother true ▸ State.busyChecks_again _
  case update =>
    have hbusy : s.busy 0x0B = false := congrArg Option.isSome hidle
    refine waits_tsvc hready rfl (by decide) ?_ (fun u hstill => ?_) fun u g => ⟨rfl, rfl⟩
    · rw [State.tsvcChecks_update hopen hmay rfl, Checks.result_eq_zero]
      simpa [hbusy, hfree] using hpage
    · obtain ⟨hopen, hmay⟩ := hstill
      rw [State.tsvcChecks_update hopen hmay rfl]
      rfl
  case clear =>
    have hbusy : s.busy 0x0B = false := congrArg Option.isSome hidle
    have hopen' : (s.page 0x0B).lockCmd = false := hopen
    refine waits_tsvc hready rfl (by decide) ?_ (fun u hstill => ?_) fun u g => rfl
    · rw [Checks.result_eq_zero]
      simp [State.tsvcChecks, show tsvcPage = 0x0B from rfl, hopen', hbusy]
    · have hlock : (u.page 0x0B).lockCmd = false := hstill
      simp [Checks.again, State.tsvcChecks, show tsvcPage = 0x0B from rfl, hlock]
  case restartPort =>
    have hbusy : s.busy 0x0C = false := congrArg Option.isSome hidle
    obtain ⟨hport, hclients⟩ := hunused
    refine waits_submit hready rfl rfl (State.portChecks_restart hopen hport hclients false ▸
      State.busyChecks_result (by rw [hbusy]; rfl)) (by decide) fun u hpend hstill => ?_
    obtain ⟨hopen, hport, hclients⟩ := hstill
    obtain ⟨v, hv, -⟩ := settle_of (f := fun q (s : State) => (s.linkChange (bits q.arg 1 0) false).setPort (bits q.arg 1 0)
      fun x => { x with svcStop := false }) hpend
      (State.portChecks_restart hopen hport hclients true ▸ State.busyChecks_again _)
    have happly : u.portApply = (v.linkChange p false).setPort p fun x => { x with svcStop := false } := by
      rw [State.portApply, show portsPage = 0x0C from rfl, hpend]
      exact hv
    rw [happly]
    exact State.linkDown_port
  case updates =>
    refine completes_of (w := s.fwVerified image true) rfl fun t hkept => ?_
    rw [hkept.svc]
    exact State.fwVerified_updates hon hbusy hgood
  case reports =>
    refine completes_of (w := s.fwVerified image true) rfl fun t hkept => ?_
    rw [hkept.svc, State.fwVerified_reports hon hbusy (show s.fwCode image true ≠ 0 from hbad)]
    obtain ⟨-, hkeep⟩ := State.fwRefused_keeps (u := ((s.fwNoted (s.fwCode image true)).setSvc fun v => { v with
      fwBusy := false, fwResult := 2 }).event tsvcPage 3) hnative
    exact hkeep
  case unread =>
    refine completes_of (w := s.fwVerified image false) rfl fun t hkept => ?_
    rw [hkept.svc, State.fwVerified_reports hon hbusy (ok := false) (by simp [State.fwCode])]
    obtain ⟨-, hfree, hresult, -⟩ := State.fwRefused_keeps (u := ((s.fwNoted (s.fwCode image false)).setSvc fun v => { v with
      fwBusy := false, fwResult := 2 }).event tsvcPage 3) hnative
    exact ⟨hfree, hresult⟩
  case starts =>
    refine completes_of (w := s.fwVerified image true) rfl fun t hkept => ?_
    rw [hkept.svc, hkept.boot]
    exact State.fwVerified_starts hon hfree htry hgood
  case fails =>
    have hcode : s.fwCode image ok ≠ 0 := by
      rcases hbad with h | h
      · simp [h, State.fwCode]
      · cases ok
        · simp [State.fwCode]
        · exact h
    refine completes_of (w := s.fwVerified image ok) rfl fun t hkept => ?_
    rw [hkept.svc, hkept.boot, State.fwVerified_fails hon hfree htry hcode]
    obtain ⟨hboot, -, -, hctrl⟩ := State.fwRefused_keeps
      (u := (s.fwNoted (s.fwCode image ok)).setBoot fun b => { b with fwVerify := s.fwCode image ok }) hnative
    dsimp only
    have htried : ((s.fwNoted (s.fwCode image ok)).setBoot fun b => { b with
        fwVerify := s.fwCode image ok }).fwRefused.boot.fwTry = s.boot.fwTry := (congrArg Boot.fwTry hboot :)
    refine ⟨fun hone => ?_, fun hmore => ?_⟩
    · rw [if_pos (htried.trans hone)]
      exact ⟨rfl, hctrl⟩
    · rw [if_neg fun h => hmore (htried.symm.trans h)]
      exact ⟨rfl, rfl, rfl⟩
  case still => exact does_of (congrArg finish (State.fwVerified_idle hno)) (Same.refl s)
  case watchdog =>
    obtain ⟨hctrl, hfault⟩ := State.ctrlWatchdog_ctrl (s := s)
    have hexec : exec .tsvcCtrlWdog s = finish (s.ctrlWatchdog.raise tsvcPage 0) := congrArg finish (if_pos hruns)
    refine completes_of hexec fun t hkept => ?_
    have hreport := Reported.report s.ctrlWatchdog { page := tsvcPage, bit := 0 } (by rw [hfault]; exact hnative)
    rw [hkept.svc, ← hctrl]
    exact (congrArg Service.ctrl hreport.svc :)
  case back =>
    refine completes_of (congrArg finish (if_pos hrestart)) fun t hkept => ?_
    rw [hkept.svc]
    exact ⟨rfl, rfl⟩

end Sys2Proof.Settled
end

section
/-! PROOFS. Readings of the power budget (R369 to R373), and the decision of its level (R374 to R376). -/

namespace Sys2Proof.Machine

variable (s : State)

/-! Readings of the rails. -/

theorem State.rail_railNow (r v : Nat) : (s.rail r v).railNow r = v := by
  unfold State.railNow
  have hread : tget (fun _ => Vmon.zero) (s.rail r v).budget.vmon r =
      { now := v, low := lowest (tget (fun _ => Vmon.zero) s.budget.vmon r).low v } := tget_tput_self
  rw [hread]

/-- The cell clock follows a reading of VDD_CORE. -/
theorem State.throttleTo_takes (v : Nat) : ∃ g b, s.throttleTo v = { s with pages := g, budget := b } ∧
    b.vmon = s.budget.vmon ∧ b.fCell = s.cellClock v ∧ b.throttle = decide (s.cellClock v < mhz 800) ∧
    b.pAvg = s.budget.pAvg := by
  unfold State.throttleTo State.eventIf
  dsimp only
  split <;> exact ⟨_, _, rfl, rfl, rfl, rfl, rfl⟩

/-- A reading of VDD_CORE is shown, and the cell clock follows it. -/
theorem State.setVdd_takes (v : Nat) : ∃ g b, s.setVdd v = { s with pages := g, budget := b } ∧
    (tget (fun _ => Vmon.zero) b.vmon 0).now = v ∧ b.fCell = s.cellClock v ∧
    b.throttle = decide (s.cellClock v < mhz 800) ∧ b.pAvg = s.budget.pAvg := by
  obtain ⟨g, b, htakes, hvmon, hclock, hthrottle, havg⟩ := (s.rail 0 v).throttleTo_takes v
  exact ⟨g, b, htakes, by rw [hvmon]; exact s.rail_railNow 0 v, hclock, hthrottle, havg⟩

/-! What a reading keeps of what the decision rests on. -/

/-- Readings in native mode keep the configuration, the board, the average power and the mode. -/
def Measures (s t : State) : Prop := s.fault.compat = false →
  t.active = s.active ∧ t.board = s.board ∧ t.budget.pAvg = s.budget.pAvg ∧ t.fault.compat = false

namespace Measures

theorem of_eq {s t : State} (ha : t.active = s.active) (hb : t.board = s.board) (hp : t.budget.pAvg = s.budget.pAvg)
    (hf : t.fault = s.fault) : Measures s t := fun h => ⟨ha, hb, hp, by rw [hf, h]⟩

theorem trans {s t u : State} (h : Measures s t) (g : Measures t u) : Measures s u := fun hnative => by
  obtain ⟨ha, hb, hp, hc⟩ := h hnative
  obtain ⟨ha', hb', hp', hc'⟩ := g hc
  exact ⟨ha'.trans ha, hb'.trans hb, hp'.trans hp, hc'⟩

theorem ite {s t u : State} {c : Prop} [Decidable c] (h : Measures s t) (g : Measures s u) : Measures s (if c then t else u) := by
  split <;> assumption

theorem foldl {α : Type} {f : State → α → State} (hf : ∀ u a, Measures u (f u a)) (l : List α) (s : State) :
    Measures s (l.foldl f s) := by
  induction l generalizing s with
  | nil => exact of_eq rfl rfl rfl rfl
  | cons a l ih => exact (hf s a).trans (ih _)

theorem raise (s : State) (p b : Nat) : Measures s (s.raise p b) := fun hnative => by
  have hreport := Safety.Reported.report s { page := p, bit := b } hnative
  exact ⟨hreport.active, hreport.board, congrArg Budget.pAvg hreport.budget, hreport.compat.trans hnative⟩

theorem setVdd (s : State) (v : Nat) : Measures s (s.setVdd v) := by
  obtain ⟨g, b, htakes, -, -, -, havg⟩ := s.setVdd_takes v
  rw [htakes]
  exact of_eq rfl rfl havg rfl

theorem readSensor (s : State) (i : Nat) (d : Int × Int) : Measures s (s.readSensor i d) := by
  unfold State.readSensor
  dsimp only
  generalize hw : State.setBudget _ _ = w
  have hnoted : Measures s w := hw ▸ of_eq rfl rfl rfl rfl
  have hapart : Measures s (if (w.temp i).apart = 8 then w.raise budPage 7 else w) :=
    hnoted.trans (ite (raise _ _ _) (of_eq rfl rfl rfl rfl))
  exact ite (hapart.trans (raise _ _ _)) hapart

/-- The readings of a latch. -/
theorem latched (s : State) (rails : List Nat) (diodes : List (Int × Int)) : Measures s
    ((((rails.take 10).zipIdx).foldl (fun (s : State) e => if e.2 = 0 then s.setVdd e.1 else s.rail e.2 e.1) s).readSensors
      diodes) := by
  refine (foldl (fun u e => ?_) _ s).trans ((foldl (fun u e => readSensor u _ _) _ _).trans (of_eq rfl rfl rfl rfl))
  split
  · exact setVdd _ _
  · exact of_eq rfl rfl rfl rfl

theorem thermLevel (s : State) : Measures s s.thermLevel :=
  ite (of_eq rfl rfl rfl rfl) (ite (ite (of_eq rfl rfl rfl rfl) (of_eq rfl rfl rfl rfl)) (of_eq rfl rfl rfl rfl))

theorem supplyLevel (s : State) : Measures s s.supplyLevel := by
  unfold State.supplyLevel
  dsimp only
  generalize hw : (if s.budget.sagSeen = true then _ else _ : State) = w
  have hlevel : Measures s w := hw ▸ ite (of_eq rfl rfl rfl rfl) (ite (of_eq rfl rfl rfl rfl) (of_eq rfl rfl rfl rfl))
  exact hlevel.trans (of_eq rfl rfl rfl rfl)

end Measures

/-! The decision. -/

/-- The level that the budget controller decides in a state. -/
def State.levelDue (s : State) : Nat :=
  if s.board.v3Forced then 3
  else max (max s.budget.lt s.budget.ls) (max s.budget.le (bits (s.cfg 0x02 0xC) 1 0))

theorem State.decideLevel_eq : s.decideLevel = s.setBudget fun b => { b with next := s.levelDue } := rfl

/-- The estimate of a round is taken into the average. -/
theorem State.energyLevel_takes (p : Nat) : (s.energyLevel p).active = s.active ∧ (s.energyLevel p).board = s.board ∧
    (s.energyLevel p).budget.pEst = p ∧ (s.energyLevel p).budget.pAvg =
      s.budget.pAvg + floorDiv (p - s.budget.pAvg) (2 ^ s.energyShift : Nat) := by
  unfold State.energyLevel State.eventIf
  dsimp only
  split
  · split
    · split <;> exact ⟨rfl, rfl, rfl, rfl⟩
    · exact ⟨rfl, rfl, rfl, rfl⟩
  · split
    · split <;> exact ⟨rfl, rfl, rfl, rfl⟩
    · exact ⟨rfl, rfl, rfl, rfl⟩

/-- A latch in native mode: the decision of the round, and the estimate in the average. -/
theorem State.budgetLatch_decides (env : BudgetEnv) (hnative : s.fault.compat = false) :
    ∃ w : State, (s.budgetLatch env).budget =
        { w.budget with next := w.levelDue, headroom := (s.budgetLatch env).budget.headroom } ∧
      w.active = s.active ∧ w.board = s.board ∧ w.budget.pEst = env.pEst ∧
      w.budget.pAvg = s.budget.pAvg + floorDiv (env.pEst - s.budget.pAvg) (2 ^ s.energyShift : Nat) := by
  generalize hu : ((((env.rails.take 10).zipIdx).foldl (fun (s : State) e => if e.2 = 0 then s.setVdd e.1 else s.rail e.2 e.1)
    s).readSensors env.diodes).thermLevel.supplyLevel = u
  obtain ⟨hactive, hboard, havg, -⟩ :=
    (((Measures.latched s env.rails env.diodes).trans (Measures.thermLevel _)).trans (Measures.supplyLevel _)) hnative
  rw [hu] at hactive hboard havg
  obtain ⟨hactive', hboard', hest, havg'⟩ := u.energyLevel_takes env.pEst
  have hlatch : s.budgetLatch env = (u.energyLevel env.pEst).decideLevel.setHeadroom := by rw [← hu]; rfl
  have hshift : u.energyShift = s.energyShift := by
    unfold State.energyShift State.cfg
    rw [hactive]
  refine ⟨u.energyLevel env.pEst, ?_, hactive'.trans hactive, hboard'.trans hboard, hest, ?_⟩
  · rw [hlatch]
    rfl
  · rw [havg', havg, hshift]

end Sys2Proof.Machine
end

section
/-! PROOFS. Holds of the power budget that complete, rails that fall, and the obligation on the budget's events (R369 to R376,
R380). -/

namespace Sys2Proof.Machine

variable (s : State)

/-! A count in progress that completes: the thermal, the supply and the energy level, each by the budget `b` before it. -/

def State.thermExpires (b : Budget) : State :=
  if 0 < b.lt ∧ 0 < b.cool then s.setBudget fun b => { b with lt := b.lt - 1, cool := 0 } else s

def State.supplyExpires (b : Budget) : State :=
  if b.ls = 3 ∧ 0 < b.calm ∧ s.sagHi ≤ s.railNow 0 then s.setBudget fun b => { b with ls := 0 } else s

def State.energyExpires (b : Budget) : State :=
  if 0 < b.above then
    (s.eventIf (decide (b.le < 3)) budPage 4).setBudget fun b => { b with le := min (b.le + 1) 3, above := 0 }
  else if 0 < b.le ∧ 0 < b.under then s.setBudget fun b => { b with le := b.le - 1, under := 0 }
  else s

theorem State.holdExpires_eq : s.holdExpires =
    (((s.thermExpires s.budget).supplyExpires s.budget).energyExpires s.budget).decideLevel := rfl

theorem State.thermExpires_takes (b : Budget) : ∃ x, s.thermExpires b = { s with budget := x } ∧ x.vmon = s.budget.vmon ∧
    (0 < b.lt → 0 < b.cool → x.lt = s.budget.lt - 1) := by
  unfold State.thermExpires
  split
  · exact ⟨_, rfl, rfl, fun _ _ => rfl⟩
  · next h => exact ⟨s.budget, rfl, rfl, fun hlt hcool => absurd ⟨hlt, hcool⟩ h⟩

theorem State.supplyExpires_takes (b : Budget) : ∃ x, s.supplyExpires b = { s with budget := x } ∧ x.lt = s.budget.lt ∧
    (b.ls = 3 → 0 < b.calm → s.sagHi ≤ s.railNow 0 → x.ls = 0) := by
  unfold State.supplyExpires
  split
  · exact ⟨_, rfl, rfl, fun _ _ _ => rfl⟩
  · next h => exact ⟨s.budget, rfl, rfl, fun hls hcalm hhigh => absurd ⟨hls, hcalm, hhigh⟩ h⟩

theorem State.energyExpires_takes (b : Budget) : ∃ g x, s.energyExpires b = { s with pages := g, budget := x } ∧
    x.lt = s.budget.lt ∧ x.ls = s.budget.ls := by
  unfold State.energyExpires State.eventIf
  split
  · split <;> exact ⟨_, _, rfl, rfl, rfl⟩
  · split <;> exact ⟨s.pages, _, rfl, rfl, rfl⟩

theorem State.holdExpires_decides : ∃ w : State, s.holdExpires = w.decideLevel ∧ w.active = s.active ∧ w.board = s.board ∧
    (0 < s.budget.lt → 0 < s.budget.cool → w.budget.lt = s.budget.lt - 1) ∧
    (s.budget.ls = 3 → 0 < s.budget.calm → s.sagHi ≤ s.railNow 0 → w.budget.ls = 0) := by
  obtain ⟨x, htherm, hvmon, hlt⟩ := s.thermExpires_takes s.budget
  obtain ⟨y, hsupply, hlt', hls⟩ := ({ s with budget := x } : State).supplyExpires_takes s.budget
  obtain ⟨g, z, henergy, hlt'', hls'⟩ := ({ s with budget := y } : State).energyExpires_takes s.budget
  have hrail : ({ s with budget := x } : State).railNow 0 = s.railNow 0 := by rw [State.railNow, hvmon]; rfl
  refine ⟨{ s with pages := g, budget := z }, ?_, rfl, rfl, fun h hcool => ?_, fun h hcalm hhigh => ?_⟩
  · rw [s.holdExpires_eq, htherm, hsupply, henergy]
  · exact hlt''.trans (hlt'.trans (hlt h hcool))
  · exact hls'.trans (hls h hcalm (by rw [hrail]; exact hhigh))

/-! Rails that fall. -/

theorem State.supplyFault_core (v : Nat) : s.supplyFault 0 v =
    if v < (if s.inV3 then 670 else 690) then (s.setVdd v).raise budPage 1
    else if v < s.sagLo then (s.setVdd v).coreLow.raise budPage 0 else s.setVdd v := by
  obtain ⟨g, b, htakes, -⟩ := s.setVdd_takes v
  have hcore : s.supplyFault 0 v = if v < (if (s.setVdd v).inV3 then 670 else 690) then (s.setVdd v).raise budPage 1
      else if v < (s.setVdd v).sagLo then (s.setVdd v).coreLow.raise budPage 0 else s.setVdd v := rfl
  rw [hcore, htakes]
  rfl

/-- The rails but VDD_CORE and the banks: limit and fault bit of each, and the ports stop with VDD_PORT. -/
theorem State.supplyFault_rail (v : Nat) :
    s.supplyFault 1 v = (if v < 740 then (s.rail 1 v).raise budPage 2 else s.rail 1 v) ∧
    s.supplyFault 2 v = (if v < 850 then ((List.range 4).foldl State.stopPort (s.rail 2 v)).raise budPage 5 else s.rail 2 v) ∧
    s.supplyFault 3 v = (if v < 1710 then (s.rail 3 v).raise budPage 3 else s.rail 3 v) ∧
    s.supplyFault 4 v = (if v < 1620 then (s.rail 4 v).raise budPage 4 else s.rail 4 v) := ⟨rfl, rfl, rfl, rfl⟩

theorem State.supplyFault_bank (n v : Nat) : s.supplyFault (n + 5) v =
    if 10 * v < 9 * s.bankMv n then ((s.rail (n + 5) v).bankFault n).raise (outPage (8 * n)) 3 else s.rail (n + 5) v := rfl

theorem State.holdOut_budget (i : Nat) : (s.holdOut i).budget = s.budget := by
  obtain ⟨l, g, n, h⟩ := (s.setOut i fun o => { o with held := true, starting := false }).linkOf_eq i
  rw [State.holdOut, h]
  rfl

theorem State.bankFault_budget (b : Nat) : (s.bankFault b).budget = s.budget :=
  List.foldlRecOn (motive := fun t : State => t.budget = s.budget) _ _ rfl fun t h i _ => (t.holdOut_budget i).trans h

/-- The fault of VDD_PORT is of no domain: even where it escalates, it is recorded and counted alone. -/
theorem State.kept_portSupply (h : s.fault.compat = false) : Safety.Kept s (s.raise budPage 5) := by
  have hescalate (u : State) : Safety.Kept u (((u.bump 0x03 0xA40).event 0x03 6).escalate { page := budPage, bit := 5 }) :=
    ((Safety.Kept.bump _ _ _).trans (Safety.Kept.event _ _ _)).trans
      (((Safety.Kept.bump _ _ _).trans (Safety.Kept.event _ _ _)).trans
        ((((Safety.Kept.storeRec _ _).trans (Safety.Kept.nextFree _)).trans (Safety.Kept.latchFatal _)).trans
          ((Safety.Kept.logRecord _ _).trans (Safety.Kept.deviceCounter _ _))))
  have hcheck (u : State) : Safety.Kept u (u.check { page := budPage, bit := 5 }) := by
    unfold State.check
    dsimp only
    split
    · exact Safety.Kept.setSlot _ _ _
    · split
      · exact Safety.Kept.setSlot _ _ _
      · exact hescalate u
  have hrecorded := Safety.Kept.recordU s { page := budPage, bit := 5 }
  have hcollect : s.raise budPage 5 = s.collectU { page := budPage, bit := 5 } := rfl
  rw [hcollect]
  unfold State.collectU
  dsimp only
  rw [if_neg (by simpa using hrecorded.compat.trans h), if_neg (by decide)]
  exact hrecorded.trans (hcheck _)

theorem State.stopPorts_stops {l : List Nat} {p : Nat} (h : p ∈ l ∨ (s.port p).svcStop = true) :
    ((l.foldl State.stopPort s).port p).svcStop = true := by
  induction l generalizing s with
  | nil => exact h.resolve_left List.not_mem_nil
  | cons q l ih =>
    refine ih (s.stopPort q) ?_
    unfold State.stopPort
    rw [State.setPort_port]
    by_cases hq : p = q
    · exact .inr (by simp [hq])
    · rw [if_neg hq]
      exact h.imp_left fun h => (List.mem_cons.mp h).resolve_left hq

theorem State.stopPorts_fault (l : List Nat) : (l.foldl State.stopPort s).fault = s.fault :=
  List.foldlRecOn (motive := fun t : State => t.fault = s.fault) _ _ rfl fun _ h _ _ => h

/-- A supply fault above the brown-out level of its rail. -/
theorem exec_supplyFault {r : Fin 10} {v : Nat} (hrel : s.boot.released = true) (hv : brownMv r ≤ v) :
    exec (.supplyFault r v) s = finish (s.supplyFault r v) :=
  congrArg finish ((if_neg (ne_false_of_eq_true hrel)).trans (if_neg (Nat.not_lt.mpr hv)))

theorem hasSource_bankSupply : ∀ n < 5, hasSource (outPage (8 * n)) 3 = true := by decide

end Sys2Proof.Machine

namespace Sys2Proof.Stated

open Machine

variable {s u : State} {c : Instr} {k : Nat}

/-- A command that ends in a fault of the BUDGET page shows it. -/
theorem completes_budgetFault (he : exec c s = finish (u.raise 0x02 k)) (hk : k < 32) (hsource : hasSource 0x02 k = true) :
    Completes c s fun t => (t.page 0x02).fault.getLsbD k = true :=
  completes_standing he fun _ _ hstands => hstands.fault _ _ (u.report_fault rfl rfl hk hsource)

end Sys2Proof.Stated
end

section

namespace Sys2Proof.Settled

open Machine Stated Safety

/-- Settles O30: the decision from the readings of the latch or the counts that complete, the rails by their limits. -/
theorem budgetEventsTakeEffect : Obligations.BudgetEventsTakeEffect := by
  unfold Obligations.BudgetEventsTakeEffect
  intro env mv r i s b decided u noted
  refine ⟨fun hrun => ⟨fun hnative => ?latch, ?hold⟩, fun hrel => ⟨fun hmv => ?sag, fun hmv => ?sagBrown,
    fun hmv => ?brown,
    fun hnative hmv => ⟨fun hr hlow => ?coreFault, fun hr hhigh hlow => ?coreLow, fun k hk => ?single, fun hr hlow => ?ports,
      fun hr hlow => ?bank⟩, fun hnative => ?trip, fun hfine => ?fine⟩⟩
  case latch =>
    have hexec : exec (.budgetLatch env) s = finish (s.budgetLatch env) := congrArg finish (if_pos hrun)
    refine completes_of hexec fun t hkept => ?_
    obtain ⟨w, hlatch, hactive, hboard, hest, havg⟩ := s.budgetLatch_decides env hnative
    have hdue : w.levelDue = if s.board.v3Forced then 3
        else max (max w.budget.lt w.budget.ls) (max w.budget.le (bits (s.cfg 0x02 0xC) 1 0)) := by
      rw [State.levelDue, hboard, State.cfg, hactive]
      rfl
    change t.budget.next = (if s.board.v3Forced then 3
      else max (max t.budget.lt t.budget.ls) (max t.budget.le (bits (s.cfg 0x02 0xC) 1 0))) ∧ _
    rw [hkept.budget, hlatch]
    exact ⟨hdue, hest, havg⟩
  case hold =>
    have hexec : exec .budgetHoldExpiry s = finish s.holdExpires := congrArg finish (if_pos hrun)
    refine completes_of hexec fun t hkept => ?_
    obtain ⟨w, hdecides, hactive, hboard, hlt, hls⟩ := s.holdExpires_decides
    have hdue : w.levelDue = if s.board.v3Forced then 3
        else max (max w.budget.lt w.budget.ls) (max w.budget.le (bits (s.cfg 0x02 0xC) 1 0)) := by
      rw [State.levelDue, hboard, State.cfg, hactive]
      rfl
    change t.budget.next = (if s.board.v3Forced then 3
      else max (max t.budget.lt t.budget.ls) (max t.budget.le (bits (s.cfg 0x02 0xC) 1 0))) ∧ _
    rw [hkept.budget, hdecides, State.decideLevel_eq]
    exact ⟨hdue, hlt, hls⟩
  case sag =>
    have hexec : exec (.sag mv) s = finish (s.setVdd mv) :=
      congrArg finish ((if_neg (ne_false_of_eq_true hrel)).trans (if_neg (Nat.not_lt.mpr hmv)))
    obtain ⟨g, x, htakes, hnow, hclock, hthrottle, -⟩ := s.setVdd_takes mv
    refine completes_of hexec fun t hkept => ?_
    rw [State.railNow, hkept.budget, htakes]
    exact ⟨hnow, hclock, hthrottle⟩
  case sagBrown =>
    have hexec : exec (.sag mv) s = finish s.brownOut :=
      congrArg finish ((if_neg (ne_false_of_eq_true hrel)).trans (if_pos hmv))
    refine completes_of hexec fun t hkept => ?_
    rw [hkept.boot]
    exact ⟨rfl, rfl⟩
  case brown =>
    have hexec : exec (.supplyFault r mv) s = finish s.brownOut :=
      congrArg finish ((if_neg (ne_false_of_eq_true hrel)).trans (if_pos hmv))
    refine completes_of hexec fun t hkept => ?_
    rw [hkept.boot]
    exact ⟨rfl, rfl⟩
  case coreFault =>
    subst hr
    have hexec : exec (.supplyFault 0 mv) s = finish (u.raise 0x02 1) :=
      (exec_supplyFault s hrel hmv).trans (congrArg finish ((s.supplyFault_core mv).trans (if_pos hlow)))
    obtain ⟨g, x, htakes, -⟩ := s.setVdd_takes mv
    have hcompat : u.fault.compat = false := by
      change (s.setVdd mv).fault.compat = false
      rw [htakes, ← hnative]
    exact ⟨reports_raise hexec hcompat, completes_budgetFault hexec (by decide) rfl⟩
  case coreLow =>
    subst hr
    obtain ⟨g, x, htakes, hnow, -⟩ := s.setVdd_takes mv
    have hexec : exec (.supplyFault 0 mv) s = finish ((s.setVdd mv).coreLow.raise 0x02 0) := (exec_supplyFault s hrel hmv).trans
      (congrArg finish ((s.supplyFault_core mv).trans ((if_neg (Nat.not_lt.mpr hhigh)).trans (if_pos hlow))))
    refine completes_standing hexec fun t hkept hstands => ?_
    have hbudget : t.budget = { x with ls := 3, calm := 0, sagSeen := true } := by
      rw [hkept.budget, htakes]
      exact (Reported.report (State.coreLow { s with pages := g, budget := x }) { page := 0x02, bit := 0 } hnative).budget
    refine ⟨by rw [hbudget], by rw [State.railNow, hbudget]; exact hnow, ?_⟩
    exact hstands.fault _ _ (State.report_fault _ rfl rfl (by decide) rfl)
  case single =>
    have hexec : exec (.supplyFault r mv) s = finish (u.raise 0x02 k) ∧ k < 32 ∧ hasSource 0x02 k = true ∧
        u.fault.compat = false := by
      obtain ⟨hone, -, hthree, hfour⟩ := s.supplyFault_rail mv
      rw [exec_supplyFault s hrel hmv]
      rcases hk with ⟨rfl, hlow, rfl⟩ | ⟨rfl, hlow, rfl⟩ | ⟨rfl, hlow, rfl⟩
      · exact ⟨congrArg finish (hone.trans (if_pos hlow)), by decide, rfl, hnative⟩
      · exact ⟨congrArg finish (hthree.trans (if_pos hlow)), by decide, rfl, hnative⟩
      · exact ⟨congrArg finish (hfour.trans (if_pos hlow)), by decide, rfl, hnative⟩
    obtain ⟨hexec, hbit, hsource, hcompat⟩ := hexec
    exact ⟨reports_raise hexec hcompat, completes_budgetFault hexec hbit hsource⟩
  case ports =>
    subst hr
    obtain ⟨-, htwo, -⟩ := s.supplyFault_rail mv
    have hexec : exec (.supplyFault 2 mv) s = finish (((List.range 4).foldl State.stopPort (s.rail 2 mv)).raise 0x02 5) :=
      (exec_supplyFault s hrel hmv).trans (congrArg finish (htwo.trans (if_pos hlow)))
    refine completes_standing hexec fun t hkept hstands => ?_
    refine ⟨hstands.fault _ _ (State.report_fault _ rfl rfl (by decide) rfl), fun p hp => ?_⟩
    have hraised := State.kept_portSupply ((List.range 4).foldl State.stopPort (s.rail 2 mv))
      ((congrArg FaultUnit.compat (State.stopPorts_fault _ _)).trans hnative)
    rw [(hraised.trans hkept).port]
    exact State.stopPorts_stops _ (.inl (List.mem_range.mpr hp))
  case bank =>
    obtain ⟨n, hn⟩ : ∃ n, r.val = n + 5 := ⟨r.val - 5, by omega⟩
    have hsupply : r.val - 5 = n := by omega
    have hbank : n < 5 := by omega
    rw [hsupply] at hlow ⊢
    have hexec : exec (.supplyFault r mv) s = finish (((s.rail (n + 5) mv).bankFault n).raise (outPage (8 * n)) 3) := by
      rw [exec_supplyFault s hrel hmv, hn, s.supplyFault_bank, if_pos hlow]
    have hcompat : ((s.rail (n + 5) mv).bankFault n).fault.compat = false := by
      rw [State.bankFault_fault]
      exact hnative
    refine completes_standing hexec fun t hkept hstands => ⟨?_, ?_, fun j hj => ?_⟩
    · have hbudget : t.budget = (s.rail (n + 5) mv).budget := by
        rw [hkept.budget, ← State.bankFault_budget (s.rail (n + 5) mv) n]
        exact (Reported.report _ { page := outPage (8 * n), bit := 3 } hcompat).budget
      rw [State.railNow, hbudget, hn]
      exact s.rail_railNow (n + 5) mv
    · exact hstands.fault _ _ (State.report_fault _ rfl rfl (by decide) (hasSource_bankSupply n hbank))
    · obtain ⟨held, hout, hholds⟩ := raise_out hkept hcompat (8 * n + j)
      rw [hout]
      exact hholds (by rw [State.bankFault_out _ hj]; rfl)
  case trip =>
    have hexec : exec (.thermTrip i) s = finish ((s.setBudget fun b => { b with
        temps := tmod (fun _ => Temp.zero) b.temps i fun t => { t with hot := 9 } }).raise 0x02 6) :=
      congrArg finish (if_pos hrel)
    refine completes_standing hexec fun t hkept hstands =>
      ⟨?_, hstands.fault _ _ (State.report_fault _ rfl rfl (by decide) rfl)⟩
    have hbudget := (Reported.report (s.setBudget fun b => { b with
      temps := tmod (fun _ => Temp.zero) b.temps i fun t => { t with hot := 9 } }) { page := 0x02, bit := 6 } hnative).budget
    have htemps : t.budget.temps = tmod (fun _ => Temp.zero) s.budget.temps i fun t => { t with hot := 9 } :=
      congrArg Budget.temps (hkept.budget.trans hbudget)
    rw [State.temp, htemps, tget_tmod_self]
  case fine =>
    have hstays : brownMv r ≤ mv ∧ s.supplyFault r mv = u := by
      obtain ⟨hone, htwo, hthree, hfour⟩ := s.supplyFault_rail mv
      rcases hfine with ⟨rfl, hsag, hcore⟩ | ⟨rfl, h⟩ | ⟨rfl, h⟩ | ⟨rfl, h⟩ | ⟨rfl, h⟩ | ⟨hr, h⟩
      · refine ⟨Nat.le_trans ?_ hcore, (s.supplyFault_core mv).trans ((if_neg (Nat.not_lt.mpr hcore)).trans
          (if_neg (Nat.not_lt.mpr hsag)))⟩
        change 600 ≤ _
        split <;> decide
      · exact ⟨Nat.le_trans (by decide) h, hone.trans (if_neg (Nat.not_lt.mpr h))⟩
      · exact ⟨Nat.le_trans (by decide) h, htwo.trans (if_neg (Nat.not_lt.mpr h))⟩
      · exact ⟨Nat.le_trans (by decide) h, hthree.trans (if_neg (Nat.not_lt.mpr h))⟩
      · exact ⟨Nat.le_trans (by decide) h, hfour.trans (if_neg (Nat.not_lt.mpr h))⟩
      · obtain ⟨n, hn⟩ : ∃ n, r.val = n + 5 := ⟨r.val - 5, by omega⟩
        have hsupply : r.val - 5 = n := by omega
        have hother : u = s.rail (n + 5) mv := by
          rw [← hn]
          exact if_neg fun h0 => by simp [h0] at hr
        rw [hsupply] at h
        rw [hother, hn, s.supplyFault_bank, if_neg (Nat.not_lt.mpr h)]
        exact ⟨Nat.zero_le _, rfl⟩
    obtain ⟨hmv, hsame⟩ := hstays
    exact does_of ((exec_supplyFault s hrel hmv).trans (congrArg finish hsame)) (Same.refl u)

end Sys2Proof.Settled
end
